-- ==== Sys2Proof/Word.lean ====
section
/-! DEFINITION. The word types of the block, the one container for sparse state, and the operand
types of the commands. -/

namespace Sys2Proof

/-- One byte. -/
abbrev Byte := BitVec 8

/-- One 64-bit word: a register, a header word, a descriptor word. -/
abbrev Word := BitVec 64

/-- A sparse table: pairs of a key and a value, keys strictly rising, no value equal to the
default of its key. A key that is not listed holds its default. -/
abbrev Tbl (α : Type) := List (Nat × α)

/-- The two parts of the block: one QD1 and one Svapo end-point block. -/
inductive Side where
  | qd
  | sv
  deriving DecidableEq, Repr

/-- A port controller: QD1 port 0-159 (R10) or Svapo port controller 0-17 (R11). -/
inductive PortSel where
  | qd (n : Fin 160)
  | sv (p : Fin 18)
  deriving DecidableEq, Repr

/-- An ingress of the switch core: a link port or a service port (R171, R174). -/
inductive Ingress where
  | link (n : Fin 160)
  | service (n : Fin 16)
  deriving DecidableEq, Repr

/-- The way by which a packet reaches the unit that performs it: a QD1 link port, a unit of the
QD1 itself, a Svapo port controller, or the loopback path of a Svapo block (R373). -/
inductive Via where
  | link (n : Fin 160)
  | unit
  | plane (p : Fin 18)
  | loop
  deriving DecidableEq, Repr

/-- A source of register accesses: the four sources of window 63 (R533), and the register channel
and the management access of a Svapo block (R367, R368). -/
inductive RegSrc where
  | rslA
  | rslB
  | fabric
  | hm
  | channel
  | management
  deriving DecidableEq, Repr

/-- One of the two rack service links (R410). -/
inductive RslLink where
  | a
  | b
  deriving DecidableEq, Repr

/-- The two geometry slots of a tile packet, G0 to G3 (R58). -/
structure Geom where
  g0 : Word
  g1 : Word
  g2 : Word
  g3 : Word
  deriving DecidableEq, Repr, Inhabited

/-- A packet: the four header words, the geometry slots, the mask slot and the payload (R53). -/
structure Packet where
  w0 : Word
  w1 : Word
  w2 : Word
  w3 : Word
  geom : Option Geom := none
  mask : Option (Word × Word) := none
  data : List Byte := []
  deriving DecidableEq, Repr, Inhabited

/-- A Ferry segment: its four header words, its ciphertext and its 16-byte tag (R407). -/
structure Segment where
  h0 : Word
  h1 : Word
  h2 : Word
  h3 : Word
  data : List Byte
  tag : List Byte
  deriving DecidableEq, Repr, Inhabited

/-- What a lane receiver hands to the link layer: the 272 bytes of one FEC block (R391). -/
structure RxUnit where
  block : List Byte
  deriving DecidableEq, Repr

/-- The key of a replay-cache entry (R81). -/
structure ReplayKey where
  src : BitVec 14
  que : BitVec 10
  tag : BitVec 9
  tseq : Byte
  deriving DecidableEq, Repr, Inhabited

/-- One member of a combine record: its key and its prefix (R190). -/
structure CombineMember where
  key : ReplayKey
  pre : BitVec 128
  deriving DecidableEq, Repr, Inhabited

/-- A combine record of an add update (R190). -/
structure CombineRec where
  entry : Fin 512
  dst : BitVec 14
  total : BitVec 128
  tag : BitVec 9
  tseq : Byte
  members : List CombineMember
  /-- The header of the first member, from which the answers are formed (R57). -/
  head : Packet
  deriving DecidableEq, Repr, Inhabited

/-- A request unit of an RQO bus: the header fields of R361, the first beat of a tile and the
payload with the byte enables of its first beat. -/
structure Rqo where
  opc : Byte
  qid : Fin 32
  id : BitVec 16
  addr : Word
  len : BitVec 17
  aux : Byte
  cls : BitVec 2
  clsv : Bool
  ord : BitVec 2
  geom : Option (Word × Word) := none
  be : Word := 0xFFFFFFFFFFFFFFFF
  data : List Byte := []
  deriving DecidableEq, Repr

/-- A mirroring message received from the partner QD1 over the partner ports (R84, R117, R244,
R290, R342, R347, R355, R527, R528). -/
inductive MirrorMsg where
  /-- A write of a mirrored Granary page. -/
  | data (id : Nat) (addr : Nat) (bytes : List Byte)
  /-- An atomic of a mirrored page, with its replay entry. -/
  | atomic (id : Nat) (addr : Nat) (bytes : List Byte) (key : ReplayKey) (status : BitVec 7)
      (old : List Byte)
  /-- A window-table entry for the mirror table. -/
  | window (id : Nat) (win : Fin 48) (w0 w1 w2 w3 : Word)
  /-- A binding with MIR = 1. -/
  | binding (id : Nat) (q : Fin 4096) (w0 w1 w2 w3 : Word)
  /-- The state of a mirrored queue: accepted and consumer index, and the descriptors fetched and not
  completed with whether each has started. -/
  | queue (id : Nat) (q : Fin 4096) (pi ci : BitVec 32) (pend : List (BitVec 32 × Bool))
  /-- A stochastic-rounding seed of a context (R255). -/
  | seed (id : Nat) (ctx : BitVec 16) (seed : Word)
  /-- A KV pool made or released, with its words D5 to D7 (R335). -/
  | pool (id : Nat) (ctx : BitVec 16) (w5 w6 w7 : Word) (made : Bool)
  /-- A COUNT of a collective member. -/
  | count (id : Nat) (ctx : BitVec 16) (coll : BitVec 32) (slot : Byte) (count : BitVec 32)
  /-- The same of the receiver's own node: what a spare is loaded with, and a resync of it (R475, R476). -/
  | home (m : MirrorMsg)
  deriving DecidableEq, Repr

/-- What a read of memory returns: its bytes, or an uncorrectable error (R482, R364). -/
inductive ReadResult where
  | ok (bytes : List Byte)
  | bad
  deriving DecidableEq, Repr

/-- A finding of a background scrub: the word's address, whether it can be corrected, and the
word or syndrome found (R482, R484). -/
structure EccFinding where
  addr : Nat
  correctable : Bool
  found : Word
  deriving DecidableEq, Repr

/-- What home memory answers to a directory request (R156, R160). -/
structure MemReply where
  slice : Fin 16
  tag : BitVec 9
  status : BitVec 7
  data : List Byte
  deriving DecidableEq, Repr

/-- The causes for which a port goes down (R399). -/
inductive DownCause where
  | lossOfSignal
  | retrainFailed
  | protocolViolation
  | portReset
  | identityMismatch
  deriving DecidableEq, Repr

/-- One input of a Green chunk: its member by local rank, the status of its reads, its element bytes in the
order of the elements read, its scale bytes and its check value (R241, R242). For DISP and COMB `data` holds
the plane's columns of every row of the member's input, and `scales` its route array, with the expert map
after it for the member of rank 0 (R250). Data is plaintext. -/
structure GreenMember where
  member : Nat
  status : BitVec 7
  data : List Byte
  scales : List Byte
  icrc : BitVec 32
  deriving DecidableEq, Repr, Inhabited

/-- What the Green reads for one chunk: its members' inputs, the lane group that computes it, and the sums
that the second and third lane groups compute when the sentinel samples the chunk, as LACC48 elements, where
they differ from the first (R245, R258). -/
structure GreenIn where
  members : List GreenMember
  groupA : Fin 48 := 0
  second : Option (List Byte) := none
  third : Option (List Byte) := none
  deriving DecidableEq, Repr

/-- Bytes that a descriptor's reads return, or the status with which they fail. -/
structure InData where
  status : BitVec 7
  data : List Byte
  deriving DecidableEq, Repr

/-- What the voltage and frequency loop senses (R421, R429): the worst margin of each island's monitors in
steps, package power in W, the hottest junction in °C, the grid's busy fraction in thousandths, and the
temperatures of the stacks. -/
structure VfSense where
  marginG : Int
  marginC : Int
  power : Nat
  temp : Nat
  busy : Nat
  stackTemps : List Nat := []
  deriving DecidableEq, Repr

/-- A wait that the trace records: its kind, waiter and party (R495). -/
structure WaitInfo where
  kind : BitVec 4
  start : Word
  dur : BitVec 40
  wclass : Byte
  windex : Byte
  wsub : BitVec 16
  ctx : BitVec 16
  node : BitVec 14
  q : BitVec 12
  obj : BitVec 32
  ring : Fin 454
  deriving DecidableEq, Repr

/-- How a boot step ends (R507). -/
structure BootResult where
  ok : Bool
  status : BitVec 7
  words : List Word
  data : List Byte
  deriving DecidableEq, Repr

/-- Fields of a mill instruction of format A whose FN the row gives (R296). -/
structure FmtA where
  da : Fin 32
  sa : Fin 32
  sb : Fin 32
  deriving DecidableEq, Repr

/-- Fields of a mill instruction of format I (R296). -/
structure FmtI where
  da : Fin 32
  sa : Fin 32
  imm : BitVec 16
  deriving DecidableEq, Repr

/-- Fields of a mill instruction of format B (R296). -/
structure FmtB where
  sa : Fin 32
  sb : Fin 32
  off : BitVec 16
  deriving DecidableEq, Repr

/-- Fields of a mill instruction of format V whose FN the row gives (R296). -/
structure FmtV where
  vd : Fin 32
  va : Fin 32
  vb : Fin 32
  pm : Fin 8
  deriving DecidableEq, Repr

/-- Fields of a mill instruction of format T (R296). -/
structure FmtT where
  acc : Fin 4
  sa : Fin 32
  sb : Fin 32
  pay : BitVec 14
  deriving DecidableEq, Repr

end Sys2Proof
end

