-- ==== Sys2Proof/Syntax.lean ====
section
/-! DEFINITION. The commands of the block: one constructor per row of spec/opcode_table.json, in
the table's order. The docstring of each names the row and the rule that governs it. -/

namespace Sys2Proof

/-- The commands that the block takes. -/
inductive Instr where
  /-- FLIT_RECEIVE (R400). -/
  | flitReceive (p : PortSel) (u : RxUnit)
  /-- FLIT_SEND (R400). -/
  | flitSend (p : PortSel)
  /-- RETRY_TIMEOUT (R401). -/
  | retryTimeout (p : PortSel)
  /-- INGRESS_PACKET (R194). -/
  | ingressPacket (i : Ingress) (p : Packet)
  /-- CELL_TIME_MATCH (R175). -/
  | cellTimeMatch
  /-- HOT_WINDOW_TICK (R185). -/
  | hotWindowTick
  /-- MERGE_UPDATE_SEND (R187). -/
  | mergeUpdateSend (e : Fin 512)
  /-- MERGE_UPDATE_RESPONSE (R187). -/
  | mergeUpdateResponse (p : Packet)
  /-- COMBINE_RECORD (R190). -/
  | combineRecord (r : CombineRec)
  /-- COMBINE_RECORD_ACK (R190). -/
  | combineRecordAck (e : Fin 512)
  /-- RQO_REQUEST (R370). -/
  | rqoRequest (berth : Fin 16) (r : Rqo)
  /-- LD (R61). -/
  | ld (v : Via) (p : Packet)
  /-- ST (R61). -/
  | st (v : Via) (p : Packet)
  /-- STA (R61). -/
  | sta (v : Via) (p : Packet)
  /-- STM (R59). -/
  | stm (v : Via) (p : Packet)
  /-- STMA (R59). -/
  | stma (v : Via) (p : Packet)
  /-- ADD (R62). -/
  | add (v : Via) (p : Packet)
  /-- FADD (R62). -/
  | fadd (v : Via) (p : Packet)
  /-- MIN (R62). -/
  | amin (v : Via) (p : Packet)
  /-- MAX (R62). -/
  | amax (v : Via) (p : Packet)
  /-- SWAP (R62). -/
  | swap (v : Via) (p : Packet)
  /-- CAS (R62). -/
  | cas (v : Via) (p : Packet)
  /-- AND (R62). -/
  | aand (v : Via) (p : Packet)
  /-- OR (R62). -/
  | aor (v : Via) (p : Packet)
  /-- XOR (R62). -/
  | axor (v : Via) (p : Packet)
  /-- FPADD (R62). -/
  | fpadd (v : Via) (p : Packet)
  /-- RED (R62). -/
  | red (v : Via) (p : Packet)
  /-- REDA (R62). -/
  | reda (v : Via) (p : Packet)
  /-- MSG (R71). -/
  | msg (v : Via) (p : Packet)
  /-- TRD (R46). -/
  | trd (v : Via) (p : Packet)
  /-- TWR (R67). -/
  | twr (v : Via) (ps : List Packet)
  /-- TILE_REGISTRATION_LAPSE (R44). -/
  | tileRegistrationLapse (d : Side) (src : BitVec 14) (que : BitVec 10) (tag : BitVec 9)
  /-- FENCE (R73). -/
  | fence (v : Via) (p : Packet)
  /-- FENCE_ANSWER (R73). -/
  | fenceAnswer (v : Via) (src : BitVec 14) (que : BitVec 10) (cls : BitVec 2)
  /-- BELL (R96). -/
  | bell (v : Via) (p : Packet)
  /-- MANAGEMENT_ACCESS (R368). -/
  | managementAccess (plane : Fin 18) (p : Packet)
  /-- MILL_MSG_RECEIVE (R277). -/
  | millMsgReceive (v : Via) (p : Packet)
  /-- WINDOW63_ACCESS (R535). -/
  | window63Access (v : Via) (p : Packet)
  /-- RESPONSE_RECEIVE (R66). -/
  | responseReceive (v : Via) (p : Packet)
  /-- ERROR_NOTICE (R72). -/
  | errorNotice (v : Via) (p : Packet)
  /-- REPLY_TIMEOUT (R76). -/
  | replyTimeout (d : Side) (que : BitVec 10) (tag : BitVec 9)
  /-- REPLAY_ENTRY_EXPIRE (R81). -/
  | replayEntryExpire (d : Side) (k : ReplayKey)
  /-- MIRROR_WRITE (R117). -/
  | mirrorWrite (m : MirrorMsg)
  /-- MIRROR_ACK (R84). -/
  | mirrorAck (id : Nat)
  /-- PORT_CONTROLLER_DOWN (R77). -/
  | portControllerDown (plane : Fin 18)
  /-- PORT_CONTROLLER_UP (R77). -/
  | portControllerUp (plane : Fin 18)
  /-- APERTURE_WRITE (R22). -/
  | apertureWrite (i : Fin 256) (w : Fin 4) (v : Word)
  /-- SV_PTR_L2F (R25). -/
  | svPtrL2f (v : Word)
  /-- SV_PTR_F2L (R25). -/
  | svPtrF2l (v : Word)
  /-- SV_WT_CMD (R375). -/
  | svWtCmd (v : Word)
  /-- WIN_WITHDRAW (R41). -/
  | winWithdraw (d : Side) (src : RegSrc) (v : Word)
  /-- MIRROR_WITHDRAW_UPDATE (R555). -/
  | mirrorWithdrawUpdate (id : Nat) (win : Fin 48) (w2 : Word)
  /-- WITHDRAW_COMPLETE (R41). -/
  | withdrawComplete (d : Side) (win : Fin 64)
  /-- WITHDRAW_TIMEOUT (R42). -/
  | withdrawTimeout (d : Side) (win : Fin 64)
  /-- PAGE_TABLE_READ_DONE (R31). -/
  | pageTableReadDone (d : Side) (id : Nat) (v : ReadResult)
  /-- STREAM_PREFETCH (R34). -/
  | streamPrefetch (id : Nat)
  /-- DESCRIPTOR_FETCH (R98). -/
  | descriptorFetch (q : Fin 4096)
  /-- DESCRIPTOR_FETCH_RETURN (R99). -/
  | descriptorFetchReturn (p : Packet)
  /-- DESCRIPTOR_START (R92). -/
  | descriptorStart (q : Fin 4096) (ridx : BitVec 32)
  /-- DESCRIPTOR_NOP (R93). -/
  | descriptorNop (q : Fin 4096) (ridx : BitVec 32)
  /-- STATUS_WORD_WRITE (R102). -/
  | statusWordWrite (q : Fin 4096)
  /-- COMPLETION_WRITE (R107). -/
  | completionWrite (q : Fin 4096) (ridx : BitVec 32)
  /-- CHUNK_SIGNAL_WRITE (R110). -/
  | chunkSignalWrite (q : Fin 4096) (ridx : BitVec 32)
  /-- SQ_LOAD (R528). -/
  | sqLoad (src : RegSrc) (v : Word)
  /-- SQ_UNBIND (R113). -/
  | sqUnbind (src : RegSrc) (v : Word)
  /-- UNBIND_PROGRESS_EVENT (R113). -/
  | unbindProgressEvent (q : Fin 4096)
  /-- UNBIND_COMPLETE (R113). -/
  | unbindComplete (q : Fin 4096)
  /-- SQ_BINDING_SCRUB (R484). -/
  | sqBindingScrub
  /-- WINDOW_TABLE_SCRUB (R484). -/
  | windowTableScrub (d : Side)
  /-- ROUTE_SCRUB (R194). -/
  | routeScrub
  /-- DIRECTORY_SCRUB (R484). -/
  | directoryScrub (f : EccFinding)
  /-- GRANARY_SCRUB (R484). -/
  | granaryScrub (f : EccFinding)
  /-- HAM_CFG_WRITE (R137). -/
  | hamCfgWrite (src : RegSrc) (h : Fin 9) (w : Fin 4) (v : Word)
  /-- COH_WIN_WRITE (R138). -/
  | cohWinWrite (src : RegSrc) (i : Fin 256) (v : Word)
  /-- SET_MODE (R163). -/
  | setMode (src : RegSrc) (v : Word)
  /-- SET_MODE_SWEEP (R163). -/
  | setModeSweep (src : RegSrc) (v : Word)
  /-- REMOVE_WINDOW (R163). -/
  | removeWindow (src : RegSrc) (v : Word)
  /-- COH_CMD_DONE (R163). -/
  | cohCmdDone
  /-- AGENT_LOAD (R151). -/
  | agentLoad (q : Fin 32) (tag : BitVec 9)
  /-- AGENT_STORE (R151). -/
  | agentStore (q : Fin 32) (tag : BitVec 9)
  /-- AGENT_REPLACE (R151). -/
  | agentReplace (line : BitVec 57)
  /-- RDSH (R155). -/
  | rdsh (v : Via) (p : Packet)
  /-- RDOWN (R155). -/
  | rdown (v : Via) (p : Packet)
  /-- RDNA (R155). -/
  | rdna (v : Via) (p : Packet)
  /-- UPGR (R155). -/
  | upgr (v : Via) (p : Packet)
  /-- WBD (R157). -/
  | wbd (v : Via) (p : Packet)
  /-- EVICT (R155). -/
  | evict (v : Via) (p : Packet)
  /-- SNPSH (R151). -/
  | snpsh (plane : Fin 18) (p : Packet)
  /-- SNPINV (R151). -/
  | snpinv (plane : Fin 18) (p : Packet)
  /-- SNPNA (R151). -/
  | snpna (plane : Fin 18) (p : Packet)
  /-- SNPCEN (R169). -/
  | snpcen (plane : Fin 18) (p : Packet)
  /-- CDATA (R152). -/
  | cdata (v : Via) (p : Packet)
  /-- CACK (R152). -/
  | cack (v : Via) (p : Packet)
  /-- CNACK (R152). -/
  | cnack (plane : Fin 18) (p : Packet)
  /-- AGENT_NACK_RESEND (R384). -/
  | agentNackResend (line : BitVec 57)
  /-- DIRECTORY_MEMORY_REPLY (R158). -/
  | directoryMemoryReply (o : MemReply)
  /-- CENSUS_TIMEOUT (R170). -/
  | censusTimeout (slot : Fin 144)
  /-- RESERVATION_EXPIRE (R164). -/
  | reservationExpire (line : BitVec 57)
  /-- COHERENCE_TIMEOUT (R165). -/
  | coherenceTimeout (d : Side) (que : BitVec 10) (tag : BitVec 9)
  /-- RELAYED_RDNA (R385). -/
  | relayedRdna (plane : Fin 18) (p : Packet)
  /-- WAY11_MIGRATE (R163). -/
  | way11Migrate
  /-- LINK_DOWN (R399). -/
  | linkDown (p : PortSel) (c : DownCause)
  /-- ROUTE_HOLD (R196). -/
  | routeHold (src : RegSrc) (v : Word)
  /-- ROUTE_DRAINED (R196). -/
  | routeDrained
  /-- ROUTE_DRAIN_TIMEOUT (R196). -/
  | routeDrainTimeout
  /-- ROUTE_UPDATE (R196). -/
  | routeUpdate (src : RegSrc) (v : Word)
  /-- ROUTE_RELEASE (R196). -/
  | routeRelease (src : RegSrc) (v : Word)
  /-- RT_LOAD (R529). -/
  | rtLoad (src : RegSrc) (v : Word)
  /-- TELEMETRY_SAMPLE (R198). -/
  | telemetrySample
  /-- SEED (R255). -/
  | seed (q : Fin 4096) (ridx : BitVec 32)
  /-- REDUCE (R231). -/
  | reduce (q : Fin 4096) (ridx : BitVec 32)
  /-- ALLRED (R231). -/
  | allred (q : Fin 4096) (ridx : BitVec 32)
  /-- RSCAT (R231). -/
  | rscat (q : Fin 4096) (ridx : BitVec 32)
  /-- AGATH (R231). -/
  | agath (q : Fin 4096) (ridx : BitVec 32)
  /-- BCAST (R231). -/
  | bcast (q : Fin 4096) (ridx : BitVec 32)
  /-- SHIFT (R231). -/
  | shift (q : Fin 4096) (ridx : BitVec 32)
  /-- PERM (R231). -/
  | perm (q : Fin 4096) (ridx : BitVec 32)
  /-- DISP (R252). -/
  | disp (q : Fin 4096) (ridx : BitVec 32)
  /-- COMB (R253). -/
  | comb (q : Fin 4096) (ridx : BitVec 32)
  /-- COLLECTIVE_START (R240). -/
  | collectiveStart (ctx : BitVec 16) (coll : BitVec 32)
  /-- COLLECTIVE_ARRIVAL_TIMEOUT (R240). -/
  | collectiveArrivalTimeout (ctx : BitVec 16) (coll : BitVec 32)
  /-- GREEN_CHUNK (R245). -/
  | greenChunk (ctx : BitVec 16) (coll : BitVec 32) (c : Nat) (d : GreenIn)
  /-- RING_DIGEST (R247). -/
  | ringDigest (ctx : BitVec 16) (coll : BitVec 32) (fromPrev : Bool) (digest : BitVec 128)
  /-- RING_CHUNK (R248). -/
  | ringChunk (ctx : BitVec 16) (coll : BitVec 32) (c : Nat) (gather : Bool) (d : List Byte)
  /-- COLLECTIVE_ABORT (R256). -/
  | collectiveAbort (ctx : BitVec 16) (coll : BitVec 32) (node : BitVec 14) (cause : BitVec 2)
  /-- LEASE_EXPIRE (R270). -/
  | leaseExpire (w : Fin 4096)
  /-- MESH_REQUEST (R274). -/
  | meshRequest (src : Fin 256)
  /-- MESH_RESPONSE (R301). -/
  | meshResponse (m : Fin 256)
  /-- MESH_MESSAGE (R276). -/
  | meshMessage (src : Fin 256)
  /-- MESSAGE_CREDIT_RETURN (R276). -/
  | messageCreditReturn (m : Fin 256) (q : Fin 8)
  /-- DMA_READ (R280). -/
  | dmaRead (m : Fin 256)
  /-- DMA_WRITE (R280). -/
  | dmaWrite (m : Fin 256)
  /-- COPY (R280). -/
  | copy (m : Fin 256)
  /-- DMA_FENCE (R280). -/
  | dmaFence (m : Fin 256)
  /-- RELST (R280). -/
  | relst (m : Fin 256)
  /-- ACQLD (R280). -/
  | acqld (m : Fin 256)
  /-- DMA_DESCRIPTOR_COMPLETE (R283). -/
  | dmaDescriptorComplete (m : Fin 256) (id : Nat)
  /-- CREATE (R289). -/
  | create (q : Fin 4096) (ridx : BitVec 32)
  /-- ALLOT_PLACE (R287). -/
  | allotPlace
  /-- CREATE_WAIT_TIMEOUT (R289). -/
  | createWaitTimeout (q : Fin 4096) (ridx : BitVec 32)
  /-- ALLOT_LOAD (R289). -/
  | allotLoad (q : Fin 4096) (ridx : BitVec 32) (d : InData)
  /-- ALLOT_LOAD_DONE (R289). -/
  | allotLoadDone (q : Fin 4096) (ridx : BitVec 32)
  /-- ALLOT_START (R289). -/
  | allotStart (q : Fin 4096) (ridx : BitVec 32)
  /-- ALLOT_RUN_END (R289). -/
  | allotRunEnd (a : Fin 64)
  /-- ALLOT_HALT (R289). -/
  | allotHalt (q : Fin 4096) (ridx : BitVec 32)
  /-- ALLOT_HALT_DONE (R289). -/
  | allotHaltDone (a : Fin 64)
  /-- FREE (R289). -/
  | free (q : Fin 4096) (ridx : BitVec 32)
  /-- SALU_ADD (R299). -/
  | saluAdd (m : Fin 256) (f : FmtA)
  /-- SUB (R299). -/
  | sub (m : Fin 256) (f : FmtA)
  /-- SALU_AND (R299). -/
  | saluAnd (m : Fin 256) (f : FmtA)
  /-- SALU_OR (R299). -/
  | saluOr (m : Fin 256) (f : FmtA)
  /-- SALU_XOR (R299). -/
  | saluXor (m : Fin 256) (f : FmtA)
  /-- SLL (R299). -/
  | sll (m : Fin 256) (f : FmtA)
  /-- SRL (R299). -/
  | srl (m : Fin 256) (f : FmtA)
  /-- SRA (R299). -/
  | sra (m : Fin 256) (f : FmtA)
  /-- SLT (R299). -/
  | slt (m : Fin 256) (f : FmtA)
  /-- SLTU (R299). -/
  | sltu (m : Fin 256) (f : FmtA)
  /-- MUL (R299). -/
  | mul (m : Fin 256) (f : FmtA)
  /-- MULH (R299). -/
  | mulh (m : Fin 256) (f : FmtA)
  /-- MULHU (R299). -/
  | mulhu (m : Fin 256) (f : FmtA)
  /-- DIV (R300). -/
  | div (m : Fin 256) (f : FmtA)
  /-- DIVU (R300). -/
  | divu (m : Fin 256) (f : FmtA)
  /-- REM (R300). -/
  | rem (m : Fin 256) (f : FmtA)
  /-- REMU (R300). -/
  | remu (m : Fin 256) (f : FmtA)
  /-- SALU_MIN (R299). -/
  | saluMin (m : Fin 256) (f : FmtA)
  /-- SALU_MAX (R299). -/
  | saluMax (m : Fin 256) (f : FmtA)
  /-- MINU (R299). -/
  | minu (m : Fin 256) (f : FmtA)
  /-- MAXU (R299). -/
  | maxu (m : Fin 256) (f : FmtA)
  /-- CLZ (R299). -/
  | clz (m : Fin 256) (f : FmtA)
  /-- CTZ (R299). -/
  | ctz (m : Fin 256) (f : FmtA)
  /-- POPC (R299). -/
  | popc (m : Fin 256) (f : FmtA)
  /-- ADDI (R297). -/
  | addi (m : Fin 256) (f : FmtI)
  /-- ANDI (R297). -/
  | andi (m : Fin 256) (f : FmtI)
  /-- ORI (R297). -/
  | ori (m : Fin 256) (f : FmtI)
  /-- XORI (R297). -/
  | xori (m : Fin 256) (f : FmtI)
  /-- LUI (R297). -/
  | lui (m : Fin 256) (f : FmtI)
  /-- SHI (R297). -/
  | shi (m : Fin 256) (f : FmtI)
  /-- SLTI (R297). -/
  | slti (m : Fin 256) (f : FmtI)
  /-- LB (R301). -/
  | lb (m : Fin 256) (f : FmtI)
  /-- LBU (R301). -/
  | lbu (m : Fin 256) (f : FmtI)
  /-- LH (R301). -/
  | lh (m : Fin 256) (f : FmtI)
  /-- LHU (R301). -/
  | lhu (m : Fin 256) (f : FmtI)
  /-- LW (R301). -/
  | lw (m : Fin 256) (f : FmtI)
  /-- LWU (R301). -/
  | lwu (m : Fin 256) (f : FmtI)
  /-- SCALAR_LD (R301). -/
  | scalarLd (m : Fin 256) (f : FmtI)
  /-- SB (R301). -/
  | sb (m : Fin 256) (f : FmtI)
  /-- SH (R301). -/
  | sh (m : Fin 256) (f : FmtI)
  /-- SW (R301). -/
  | sw (m : Fin 256) (f : FmtI)
  /-- SD (R301). -/
  | sd (m : Fin 256) (f : FmtI)
  /-- ATOM_ADD (R302). -/
  | atomAdd (m : Fin 256) (f : FmtA) (size : Bool)
  /-- ATOM_SWAP (R302). -/
  | atomSwap (m : Fin 256) (f : FmtA) (size : Bool)
  /-- BEQ (R303). -/
  | beq (m : Fin 256) (f : FmtB)
  /-- BNE (R303). -/
  | bne (m : Fin 256) (f : FmtB)
  /-- BLT (R303). -/
  | blt (m : Fin 256) (f : FmtB)
  /-- BGE (R303). -/
  | bge (m : Fin 256) (f : FmtB)
  /-- BLTU (R303). -/
  | bltu (m : Fin 256) (f : FmtB)
  /-- BGEU (R303). -/
  | bgeu (m : Fin 256) (f : FmtB)
  /-- JAL (R297). -/
  | jal (m : Fin 256) (off : BitVec 26)
  /-- JALR (R297). -/
  | jalr (m : Fin 256) (f : FmtI)
  /-- VADD (R305). -/
  | vadd (m : Fin 256) (f : FmtV)
  /-- VSUB (R305). -/
  | vsub (m : Fin 256) (f : FmtV)
  /-- VMUL (R305). -/
  | vmul (m : Fin 256) (f : FmtV)
  /-- VAND (R305). -/
  | vand (m : Fin 256) (f : FmtV)
  /-- VOR (R305). -/
  | vor (m : Fin 256) (f : FmtV)
  /-- VXOR (R305). -/
  | vxor (m : Fin 256) (f : FmtV)
  /-- VSLL (R305). -/
  | vsll (m : Fin 256) (f : FmtV)
  /-- VSRL (R305). -/
  | vsrl (m : Fin 256) (f : FmtV)
  /-- VSRA (R305). -/
  | vsra (m : Fin 256) (f : FmtV)
  /-- VMIN (R305). -/
  | vmin (m : Fin 256) (f : FmtV)
  /-- VMAX (R305). -/
  | vmax (m : Fin 256) (f : FmtV)
  /-- VMINU (R305). -/
  | vminu (m : Fin 256) (f : FmtV)
  /-- VMAXU (R305). -/
  | vmaxu (m : Fin 256) (f : FmtV)
  /-- VCMPEQ (R305). -/
  | vcmpeq (m : Fin 256) (f : FmtV)
  /-- VCMPLT (R305). -/
  | vcmplt (m : Fin 256) (f : FmtV)
  /-- VCMPLTU (R305). -/
  | vcmpltu (m : Fin 256) (f : FmtV)
  /-- VSEL (R305). -/
  | vsel (m : Fin 256) (f : FmtV)
  /-- VPERM (R305). -/
  | vperm (m : Fin 256) (f : FmtV)
  /-- VBCAST (R305). -/
  | vbcast (m : Fin 256) (f : FmtV)
  /-- VEXT (R305). -/
  | vext (m : Fin 256) (f : FmtV)
  /-- VINS (R305). -/
  | vins (m : Fin 256) (f : FmtV)
  /-- VFADD (R306). -/
  | vfadd (m : Fin 256) (f : FmtV) (ty : BitVec 2)
  /-- VFSUB (R306). -/
  | vfsub (m : Fin 256) (f : FmtV) (ty : BitVec 2)
  /-- VFMUL (R306). -/
  | vfmul (m : Fin 256) (f : FmtV) (ty : BitVec 2)
  /-- VFMA (R306). -/
  | vfma (m : Fin 256) (f : FmtV) (ty : BitVec 2)
  /-- VFMIN (R306). -/
  | vfmin (m : Fin 256) (f : FmtV) (ty : BitVec 2)
  /-- VFMAX (R306). -/
  | vfmax (m : Fin 256) (f : FmtV) (ty : BitVec 2)
  /-- VEXP2 (R307). -/
  | vexp2 (m : Fin 256) (f : FmtV) (ty : BitVec 2)
  /-- VRCP (R307). -/
  | vrcp (m : Fin 256) (f : FmtV) (ty : BitVec 2)
  /-- VRSQ (R307). -/
  | vrsq (m : Fin 256) (f : FmtV) (ty : BitVec 2)
  /-- VFCMPEQ (R306). -/
  | vfcmpeq (m : Fin 256) (f : FmtV) (ty : BitVec 2)
  /-- VFCMPLT (R306). -/
  | vfcmplt (m : Fin 256) (f : FmtV) (ty : BitVec 2)
  /-- VFCMPLE (R306). -/
  | vfcmple (m : Fin 256) (f : FmtV) (ty : BitVec 2)
  /-- VCVT_WIDEN (R308). -/
  | vcvtWiden (m : Fin 256) (f : FmtV) (fn : BitVec 7)
  /-- VCVT_NARROW (R308). -/
  | vcvtNarrow (m : Fin 256) (f : FmtV) (fn : BitVec 7)
  /-- VLD (R309). -/
  | vld (m : Fin 256) (f : FmtI)
  /-- VST (R309). -/
  | vst (m : Fin 256) (f : FmtI)
  /-- VGATHER (R309). -/
  | vgather (m : Fin 256) (f : FmtV)
  /-- VSCATTER (R309). -/
  | vscatter (m : Fin 256) (f : FmtV)
  /-- RSUMF (R310). -/
  | rsumf (m : Fin 256) (f : FmtV)
  /-- RMAXF (R310). -/
  | rmaxf (m : Fin 256) (f : FmtV)
  /-- RMINF (R310). -/
  | rminf (m : Fin 256) (f : FmtV)
  /-- RSUMI (R310). -/
  | rsumi (m : Fin 256) (f : FmtV)
  /-- RMAXI (R310). -/
  | rmaxi (m : Fin 256) (f : FmtV)
  /-- RMINI (R310). -/
  | rmini (m : Fin 256) (f : FmtV)
  /-- TMMA (R311). -/
  | tmma (m : Fin 256) (f : FmtT)
  /-- TMMA_COMPLETE (R316). -/
  | tmmaComplete (m : Fin 256)
  /-- TZERO (R315). -/
  | tzero (m : Fin 256) (f : FmtT)
  /-- TLD (R315). -/
  | tld (m : Fin 256) (f : FmtT)
  /-- TST (R315). -/
  | tst (m : Fin 256) (f : FmtT)
  /-- TSTB (R315). -/
  | tstb (m : Fin 256) (f : FmtT)
  /-- TROW (R315). -/
  | trow (m : Fin 256) (f : FmtT)
  /-- TWROW (R315). -/
  | twrow (m : Fin 256) (f : FmtT)
  /-- QCFG (R317). -/
  | qcfg (m : Fin 256) (f : FmtA) (ep : Fin 8)
  /-- QSEND (R317). -/
  | qsend (m : Fin 256) (f : FmtA) (ep : Fin 8)
  /-- QRECV (R317). -/
  | qrecv (m : Fin 256) (f : FmtA) (ep : Fin 8)
  /-- QPOLL (R317). -/
  | qpoll (m : Fin 256) (f : FmtA) (ep : Fin 8)
  /-- QSTAT (R317). -/
  | qstat (m : Fin 256) (f : FmtA) (ep : Fin 8)
  /-- DMAQ (R318). -/
  | dmaq (m : Fin 256) (f : FmtA) (c : Fin 16)
  /-- DWAIT (R318). -/
  | dwait (m : Fin 256) (f : FmtA) (c : Fin 16)
  /-- DREAD (R318). -/
  | dread (m : Fin 256) (f : FmtA) (c : Fin 16)
  /-- DCLR (R318). -/
  | dclr (m : Fin 256) (f : FmtA) (c : Fin 16)
  /-- DLOG (R318). -/
  | dlog (m : Fin 256) (f : FmtA) (c : Fin 16)
  /-- DWAITF (R318). -/
  | dwaitf (m : Fin 256) (f : FmtA) (c : Fin 16)
  /-- CSR_READ (R319). -/
  | csrRead (m : Fin 256) (f : FmtI)
  /-- CSR_WRITE (R319). -/
  | csrWrite (m : Fin 256) (f : FmtI)
  /-- CSR_SWAP (R319). -/
  | csrSwap (m : Fin 256) (f : FmtI)
  /-- CSR_SET (R319). -/
  | csrSet (m : Fin 256) (f : FmtI)
  /-- SYS_NOP (R320). -/
  | sysNop (m : Fin 256) (f : FmtA)
  /-- SYS_FENCE (R320). -/
  | sysFence (m : Fin 256) (f : FmtA)
  /-- SYS_HALT (R320). -/
  | sysHalt (m : Fin 256) (f : FmtA)
  /-- BRK (R320). -/
  | brk (m : Fin 256) (f : FmtA)
  /-- ERET (R320). -/
  | eret (m : Fin 256) (f : FmtA)
  /-- SYS_ABORT (R320). -/
  | sysAbort (m : Fin 256) (f : FmtA)
  /-- BAR (R321). -/
  | bar (m : Fin 256) (f : FmtA)
  /-- WAITT (R320). -/
  | waitt (m : Fin 256) (f : FmtA)
  /-- WAITT_EXPIRE (R320). -/
  | waittExpire (m : Fin 256)
  /-- TFENCE (R320). -/
  | tfence (m : Fin 256) (f : FmtA)
  /-- DEBUG_HALT (R327). -/
  | debugHalt (src : RegSrc) (m : Fin 256)
  /-- DEBUG_STEP (R328). -/
  | debugStep (src : RegSrc) (m : Fin 256)
  /-- DEBUG_RESUME (R327). -/
  | debugResume (src : RegSrc) (m : Fin 256)
  /-- DEBUG_REG_WRITE (R327). -/
  | debugRegWrite (src : RegSrc) (m : Fin 256) (off : BitVec 15) (v : Word)
  /-- POOL (R335). -/
  | pool (q : Fin 4096) (ridx : BitVec 32)
  /-- PFREE (R335). -/
  | pfree (q : Fin 4096) (ridx : BitVec 32)
  /-- OPEN (R339). -/
  | openSeq (q : Fin 4096) (ridx : BitVec 32)
  /-- APPEND (R340). -/
  | append (q : Fin 4096) (ridx : BitVec 32) (d : InData)
  /-- KV_READ (R341). -/
  | kvRead (q : Fin 4096) (ridx : BitVec 32)
  /-- TRUNC (R341). -/
  | trunc (q : Fin 4096) (ridx : BitVec 32)
  /-- CLOSE (R341). -/
  | close (q : Fin 4096) (ridx : BitVec 32)
  /-- PART (R345). -/
  | part (q : Fin 4096) (ridx : BitVec 32) (d : InData)
  /-- OPTS_LOAD (R351). -/
  | optsLoad (q : Fin 4096) (ridx : BitVec 32) (d : InData)
  /-- OPTS_STEP (R352). -/
  | optsStep (q : Fin 4096) (ridx : BitVec 32)
  /-- SAVE (R351). -/
  | save (q : Fin 4096) (ridx : BitVec 32)
  /-- OPTS_BLOCK_COMMIT (R354). -/
  | optsBlockCommit (ctx : BitVec 16) (coll : BitVec 32) (b : Nat) (g : List (BitVec 32))
  /-- RSI_RESPONSE (R362). -/
  | rsiResponse (tag : BitVec 12) (status : BitVec 7) (data : List Byte)
  /-- RQI_ANSWER_LATE (R364). -/
  | rqiAnswerLate (tag : BitVec 12)
  /-- SV_LIVE_WRITE (R374). -/
  | svLiveWrite (plane : Fin 18) (v : Word)
  /-- MAP_RESTORE (R477). -/
  | mapRestore
  /-- SVAPO_BRINGUP (R556). -/
  | svapoBringup (slot : Fin 144) (live : BitVec 18)
  /-- KEY_LOAD_COMMIT (R448). -/
  | keyLoadCommit (plane : Fin 18)
  /-- HOLDER_RETIRE_PHASE0 (R451). -/
  | holderRetirePhase0 (plane : Fin 18) (k : Fin 64)
  /-- HOLDER_RETIRE_PHASE1 (R451). -/
  | holderRetirePhase1 (plane : Fin 18) (k : Fin 64)
  /-- HOLDER_ZEROIZE_TIMEOUT (R451). -/
  | holderZeroizeTimeout (k : Fin 64)
  /-- HOLDER_SLOT_RELEASE (R443). -/
  | holderSlotRelease (k : Fin 64)
  /-- CA_FLUSH (R384). -/
  | caFlush
  /-- LIMITER_PERIOD (R386). -/
  | limiterPeriod
  /-- BLOCK_RESET (R388). -/
  | blockReset
  /-- SIGNAL_ENERGY_DETECT (R394). -/
  | signalEnergyDetect (p : PortSel) (lanes : BitVec 4)
  /-- TRAINING_STEP_DONE (R394). -/
  | trainingStepDone (p : PortSel)
  /-- TRAINING_RESTART (R397). -/
  | trainingRestart (p : PortSel)
  /-- TS (R395). -/
  | ts (p : PortSel) (lane : Byte) (coef : BitVec 16) (st : Byte)
  /-- MARK (R395). -/
  | mark (p : PortSel) (lane : Byte)
  /-- IDENT (R396). -/
  | ident (p : PortSel) (node : BitVec 16) (plane port role : Byte)
  /-- CRINIT (R402). -/
  | crinit (p : PortSel) (c0 c1 c2 c3 : Byte)
  /-- MCRED (R403). -/
  | mcred (p : PortSel) (n : Byte)
  /-- PMREQ (R404). -/
  | pmreq (p : PortSel) (st : Byte)
  /-- PMACK (R404). -/
  | pmack (p : PortSel) (st : Byte)
  /-- PMNAK (R404). -/
  | pmnak (p : PortSel) (st : Byte)
  /-- RETRAIN (R398). -/
  | retrain (p : PortSel) (width : Byte)
  /-- TEST (R406). -/
  | test (p : PortSel) (pat : Byte) (errs : BitVec 32)
  /-- LANE_FAIL (R398). -/
  | laneFail (p : PortSel) (lanes : BitVec 4)
  /-- PM_EXIT (R404). -/
  | pmExit (p : PortSel)
  /-- LQ_AUTO_TIMEOUT (R405). -/
  | lqAutoTimeout (p : PortSel)
  /-- PORT_RESET (R517). -/
  | portReset (p : PortSel)
  /-- LQ_REQUEST (R404). -/
  | lqRequest (p : PortSel)
  /-- LD_REQUEST (R404). -/
  | ldRequest (p : PortSel)
  /-- PORT_TEST (R406). -/
  | portTest (p : Fin 160)
  /-- TRANSFER_CLOSE (R408). -/
  | transferClose (rack : Fin 64)
  /-- FERRY_DATA (R408). -/
  | ferryData (p : Fin 160) (s : Segment)
  /-- FERRY_RESP (R408). -/
  | ferryResp (p : Fin 160) (s : Segment)
  /-- FERRY_ACK (R409). -/
  | ferryAck (p : Fin 160) (s : Segment)
  /-- FERRY_ABORT (R256). -/
  | ferryAbort (p : Fin 160) (s : Segment)
  /-- FERRY_ACK_SEND (R409). -/
  | ferryAckSend (rack : Fin 64) (xid : Fin 64)
  /-- SEGMENT_RESEND_TIMEOUT (R409). -/
  | segmentResendTimeout (rack : Fin 64) (xid : Fin 64) (seg : BitVec 12)
  /-- PEER_RACK_LOST (R409). -/
  | peerRackLost (rack : Fin 64)
  /-- FERRY_KEY_EXPIRE (R449). -/
  | ferryKeyExpire
  /-- TIME_MARK (R411). -/
  | timeMark (l : RslLink) (v c : Word)
  /-- RSL_LOCK_LOSS (R413). -/
  | rslLockLoss (l : RslLink)
  /-- SLIP (R413). -/
  | slip (l : RslLink) (lock : Bool)
  /-- REGRD (R412). -/
  | regrd (l : RslLink) (seq : Byte) (off : Word)
  /-- REGWR (R412). -/
  | regwr (l : RslLink) (seq : Byte) (off v : Word)
  /-- BULK_BLOCK (R508). -/
  | bulkBlock (l : RslLink) (imgid : Word) (off : BitVec 32) (d : List Byte) (crcOk : Bool)
  /-- IMGREQ_TIMEOUT (R508). -/
  | imgreqTimeout (off : BitVec 32)
  /-- HEALTH_SEND (R488). -/
  | healthSend
  /-- REFERENCE_LOSS (R416). -/
  | referenceLoss (l : RslLink)
  /-- REFERENCE_RETURN (R417). -/
  | referenceReturn (l : RslLink)
  /-- HOLDOVER_EVENT (R416). -/
  | holdoverEvent
  /-- VF_LOOP_TICK (R429). -/
  | vfLoopTick (v : VfSense)
  /-- DVFS_SETTLED (R421). -/
  | dvfsSettled
  /-- DVFS_UP_TIMEOUT (R421). -/
  | dvfsUpTimeout
  /-- CLOCK_STRETCH (R429). -/
  | clockStretch (grid : Bool)
  /-- EQ_LOOP_ADAPT (R430). -/
  | eqLoopAdapt (lane : Fin 640) (coef : BitVec 16)
  /-- BUF_LOOP_TICK (R431). -/
  | bufLoopTick
  /-- PLACEMENT_LOOP_TICK (R432). -/
  | placementLoopTick (util : List Nat) (frame : Nat)
  /-- FRAME_MOVE_DONE (R432). -/
  | frameMoveDone
  /-- CLOCK_GATE (R423). -/
  | clockGate (src : RegSrc) (u : Fin 4)
  /-- CLOCK_UNGATE (R423). -/
  | clockUngate (src : RegSrc) (u : Fin 4)
  /-- FMEAS_START (R424). -/
  | fmeasStart (src : RegSrc)
  /-- FMEAS_DONE (R424). -/
  | fmeasDone (count : BitVec 32)
  /-- THROTTLE_ASSERT (R433). -/
  | throttleAssert
  /-- THERMAL_THROTTLE (R433). -/
  | thermalThrottle (temp : Byte)
  /-- THROTTLE_STEP (R433). -/
  | throttleStep
  /-- THROTTLE_END (R433). -/
  | throttleEnd
  /-- THERMAL_TRIP (R434). -/
  | thermalTrip (temp : Byte)
  /-- PWRFAIL (R435). -/
  | pwrfail
  /-- PWRFAIL_RELEASE (R435). -/
  | pwrfailRelease
  /-- BROWN_OUT (R547). -/
  | brownOut (rail : BitVec 3)
  /-- REPORT (R440). -/
  | report (q : Fin 4096) (ridx : BitVec 32) (d : InData)
  /-- DELIVER (R447). -/
  | deliver (q : Fin 4096) (ridx : BitVec 32) (d : InData)
  /-- RETIRE (R451). -/
  | retire (q : Fin 4096) (ridx : BitVec 32)
  /-- COUNTERS (R457). -/
  | counters (q : Fin 4096) (ridx : BitVec 32)
  /-- KEY_RETIRE (R451). -/
  | keyRetire (src : RegSrc) (v : Word)
  /-- RETIRE_DRAIN_END (R451). -/
  | retireDrainEnd (k : Fin 64)
  /-- RETIRE_COMPLETE (R451). -/
  | retireComplete (k : Fin 64)
  /-- RETIRE_HOLD_EXPIRE (R443). -/
  | retireHoldExpire (k : Fin 64)
  /-- CUST_SCRUB (R454). -/
  | custScrub (src : RegSrc) (v : Word)
  /-- SCRUB_DONE (R454). -/
  | scrubDone
  /-- SELFTEST (R461). -/
  | selftest (src : RegSrc) (v : Word)
  /-- ZEROIZE (R463). -/
  | zeroize (src : RegSrc) (v : Word)
  /-- ENTROPY_TEST_FAIL (R462). -/
  | entropyTestFail (test : BitVec 8)
  /-- PARTNER_POLL (R470). -/
  | partnerPoll (states : List (Option (BitVec 3)))
  /-- PLANE_DECLARE (R470). -/
  | planeDeclare
  /-- FENCE_STOP (R471). -/
  | fenceStop
  /-- LIVE_NOTICE (R473). -/
  | liveNotice (slot : Fin 144) (mask : BitVec 18)
  /-- PAIR_EXPOSE (R475). -/
  | pairExpose
  /-- PARTNER_LINK_UP (R475). -/
  | partnerLinkUp
  /-- RESYNC_DONE (R475). -/
  | resyncDone
  /-- DECLARE (R471). -/
  | declare (l : RslLink) (index : Byte)
  /-- PAIRLOST (R480). -/
  | pairlost (l : RslLink) (index : Byte)
  /-- SPARE (R476). -/
  | spare (l : RslLink) (index : Byte)
  /-- SPARE_TEST_DONE (R476). -/
  | spareTestDone (ok : Bool)
  /-- SPARE_LOAD_DONE (R476). -/
  | spareLoadDone
  /-- SPARE_ADMIT (R476). -/
  | spareAdmit
  /-- ADMIT (R476). -/
  | ftAdmit (l : RslLink) (index : Byte)
  /-- READMIT (R481). -/
  | readmit (l : RslLink) (index : Byte)
  /-- ABORTLOAD (R490). -/
  | abortload (l : RslLink) (index : Byte)
  /-- EPLOST (R481). -/
  | eplost (l : RslLink) (index : Byte)
  /-- BOUNDARY (R479). -/
  | boundary (q : Fin 4096) (ridx : BitVec 32)
  /-- PORT_VECTOR_EXCHANGE (R481). -/
  | portVectorExchange (down : BitVec 144)
  /-- END_POINT_DECLARE (R481). -/
  | endPointDeclare (slot : Fin 144)
  /-- HANG_TIMEOUT (R496). -/
  | hangTimeout (w : WaitInfo)
  /-- ARM (R499). -/
  | arm (src : RegSrc)
  /-- TRIG (R498). -/
  | trig (src : RegSrc)
  /-- POST_TIMEOUT (R499). -/
  | postTimeout
  /-- REPLAY (R506). -/
  | replay (src : RegSrc) (v : Word)
  /-- LEDGER_ABORT (R491). -/
  | ledgerAbort (src : RegSrc) (v : Word)
  /-- REPLAY_RECORD (R506). -/
  | replayRecord
  /-- POWER_ON (R517). -/
  | powerOn (tray : BitVec 6)
  /-- RESET_N_ASSERT (R517). -/
  | resetNAssert
  /-- BOOT_STEP_DONE (R507). -/
  | bootStepDone (r : BootResult)
  /-- FR (R517). -/
  | fr (l : RslLink) (seq arg : Byte) (index : BitVec 16)
  /-- WR (R517). -/
  | wr (l : RslLink) (seq arg : Byte) (index : BitVec 16)
  /-- GR (R517). -/
  | gr (l : RslLink) (seq arg : Byte) (index : BitVec 16)
  /-- PR (R517). -/
  | pr (l : RslLink) (seq arg : Byte) (index : BitVec 16)
  /-- BOOT (R515). -/
  | boot (l : RslLink) (seq arg : Byte) (index : BitVec 16)
  /-- SETUP (R513). -/
  | setup (l : RslLink) (seq arg : Byte) (index : BitVec 16)
  /-- RUN (R513). -/
  | run (l : RslLink) (seq arg : Byte) (index : BitVec 16)
  /-- GPIN (R520). -/
  | gpin (l : RslLink) (seq arg : Byte) (index : BitVec 16)
  /-- GPOUT (R520). -/
  | gpout (l : RslLink) (seq arg : Byte) (index : BitVec 16)
  /-- HSIN (R520). -/
  | hsin (l : RslLink) (seq arg : Byte) (index : BitVec 16)
  /-- HSOUT (R520). -/
  | hsout (l : RslLink) (seq arg : Byte) (index : BitVec 16)
  /-- DSIN (R520). -/
  | dsin (l : RslLink) (seq arg : Byte) (index : BitVec 16)
  /-- WAKE (R520). -/
  | wake (l : RslLink) (seq arg : Byte) (index : BitVec 16)
  /-- WT_CMD (R527). -/
  | wtCmd (src : RegSrc) (v : Word)
  /-- REGISTER_WRITE (R537). -/
  | registerWrite (d : Side) (src : RegSrc) (off v : Word)
  /-- BYPASS (R551). -/
  | bypass
  /-- IDCODE (R551). -/
  | idcode
  /-- SAMPLE_PRELOAD (R551). -/
  | samplePreload
  /-- EXTEST (R551). -/
  | extest
  /-- EXTEST_PULSE (R551). -/
  | extestPulse
  /-- EXTEST_TRAIN (R551). -/
  | extestTrain
  /-- CLAMP (R551). -/
  | clamp
  /-- HIGHZ (R551). -/
  | highz
  /-- TOKEN_BUCKET_REFILL (R386). -/
  | tokenBucketRefill (dst : Fin 256) (cls2 : Bool)
  /-- TRAINING_STEP_FAIL (R394). -/
  | trainingStepFail (p : PortSel) (lanes : BitVec 4)
  /-- BLOCK_RESET_RELEASE (R388). -/
  | blockResetRelease
  /-- PARTNER_IMGREQ (R515). -/
  | partnerImgreq (kind : Byte) (off len : BitVec 32)
  /-- SELFTEST_DONE (R461). -/
  | selftestDone (failed : BitVec 8)
  /-- ALLOT_FREE_DONE (R289). -/
  | allotFreeDone (a : Fin 64)
  deriving DecidableEq, Repr

end Sys2Proof
end

