-- ==== Sys2Proof/Decode.lean ====
section
/-! DEFINITION. The block has no decoder: no row of spec/opcode_table.json gives bits, so no word
spells a command (log entry 10). -/

namespace Sys2Proof

/-- The command that a word spells by the table's bits: none, since no row gives bits. -/
def decodeTableWord (_nbits _w : Nat) : Option Instr := none

end Sys2Proof
end

