-- ==== Sys2Proof/Config.lean ====
section
/-! DEFINITION. What an implementation fixes and what the spec leaves open: the free values, and
the cryptographic primitives that the spec names by outside standards. Nothing here has a body,
so no proof can use a value of it (log entries 6 and 7). -/

namespace Sys2Proof.Config

/-- A value the spec leaves open, `w` bits wide, the `n`-th that a run draws (log entry 6). -/
opaque freeBits (w n : Nat) : BitVec w

/-- SHA3-512 (FIPS 202), named and not defined by the spec (R439). -/
opaque sha3 : List Byte → BitVec 512

/-- KMAC256 of a key over an input, 512 bits of output (R438, R440, R446). -/
opaque kmac : List Byte → List Byte → BitVec 512

/-- ML-DSA-87 verification of a signature over a message by a public key (R511, R512). -/
opaque mldsaVerify : List Byte → List Byte → List Byte → Bool

/-- ML-DSA-87 signature of a message under the key pair that a seed gives (R440). -/
opaque mldsaSign : BitVec 512 → List Byte → List Byte

/-- The public key of the ML-DSA-87 pair that a seed gives (R438). -/
opaque mldsaPublic : BitVec 512 → List Byte

/-- The public encapsulation key of the ML-KEM-1024 pair that a seed gives (R438). -/
opaque mlkemPublic : BitVec 512 → List Byte

/-- ML-KEM-1024 decapsulation of a ciphertext under the pair that a seed gives (R447, R448). -/
opaque mlkemDecaps : BitVec 512 → List Byte → List Byte

/-- ML-KEM-1024 encapsulation to a public key with drawn randomness: ciphertext and secret (R448). -/
opaque mlkemEncaps : List Byte → BitVec 512 → List Byte × List Byte

/-- AES-256-GCM decryption: key, IV, associated data, ciphertext, tag (R447, R448). -/
opaque gcmOpen : List Byte → List Byte → List Byte → List Byte → List Byte → Option (List Byte)

/-- AES-256-GCM encryption: key, IV, associated data, plaintext; ciphertext and tag (R407). -/
opaque gcmSeal : List Byte → List Byte → List Byte → List Byte → List Byte × List Byte

/-- AES-256-XTS encryption of one data unit under a 64-byte key and a 128-bit tweak (R379). -/
opaque xtsEnc : List Byte → BitVec 128 → List Byte → List Byte

/-- AES-256-XTS decryption of one data unit (R379). -/
opaque xtsDec : List Byte → BitVec 128 → List Byte → List Byte

/-- The seed that the physically unclonable function and the helper data give (R438). -/
opaque pufSeed : List Byte → BitVec 256

/-- The SHA3-512 digests of the four Huhithal firmware public keys in the ROM (R510). -/
opaque romDigest : Fin 4 → BitVec 512

/-- The DevID public key that a vendor certificate bundle names (R438). -/
opaque certKey : List Byte → List Byte

/-- Die revision in DEV_ID.REV (R525). -/
opaque dieRev : BitVec 8

/-- Macro revision in SV_ID.REV (R369). -/
opaque macroRev : BitVec 8

/-- Huhithal's JTAG manufacturer identity (R551). -/
opaque jtagMaker : BitVec 11

/-- The choice of the vector unit's fixed algorithm between the two nearest results of VEXP2 (0),
VRCP (1) and VRSQ (2) on an operand (R307). -/
opaque vecChoice : Nat → BitVec 32 → Nat

end Sys2Proof.Config
end

