-- ==== Sys2Proof/Machine/State.lean ====
section
/-! DEFINITION. The state of the block: one QD1, one Svapo end-point block, what they have sent, and
the queue of waiting commands. Plain data throughout. -/

namespace Sys2Proof.Machine

/-- The three variants of the QD1 (R2). -/
inductive Variant where
  | qd19
  | qd17
  | qd15
  deriving DecidableEq, Repr, Inhabited

/-- An event record or a sync record: four words (R493, R495). -/
structure EvRec where
  e0 : Word := 0
  e1 : Word := 0
  e2 : Word := 0
  e3 : Word := 0
  deriving DecidableEq, Repr, Inhabited

/-- An event ring (R492): its 256 records, the records written, and the records written since the
recorded trigger (R499). -/
structure EvRing where
  recs : Tbl EvRec := []
  total : BitVec 32 := 0
  since : Nat := 0
  deriving DecidableEq, Repr, Inhabited

/-- A 64-byte table entry held with its complement: a window-table entry (R26) or a service-queue
binding (R87). -/
structure Entry where
  w0 : Word := 0
  w1 : Word := 0
  w2 : Word := 0
  w3 : Word := 0
  n0 : Word := 0xFFFFFFFFFFFFFFFF
  n1 : Word := 0xFFFFFFFFFFFFFFFF
  n2 : Word := 0xFFFFFFFFFFFFFFFF
  n3 : Word := 0xFFFFFFFFFFFFFFFF
  deriving DecidableEq, Repr, Inhabited

/-- A cached translation of one page of one window (R31). -/
structure Trans where
  win : Nat
  page : Nat
  gen : Nat
  pte : Word
  pinned : Bool := false
  deriving DecidableEq, Repr, Inhabited

/-- A registered tile (R44): the window and entry under which it was admitted, its key, its number
of parts and the parts performed. -/
structure TileReg where
  win : Nat
  src : BitVec 14
  que : BitVec 10
  tag : BitVec 9
  tseq : Byte
  nparts : Nat
  doneParts : List Nat := []
  ent : Entry := {}
  tr : List Trans := []
  deriving DecidableEq, Repr, Inhabited

/-- A declared stream of tiles (R34): its window, first tile, step and the tile next used. -/
structure Stream where
  id : Nat
  win : Nat
  base : Nat
  rowLen : Nat
  rows : Nat
  stride : Nat
  step : Nat
  next : Nat := 0
  buf : List Trans := []
  prefetch : Bool := true
  deriving DecidableEq, Repr, Inhabited

/-- Why an arriving request waits at the node that performs it. -/
inductive WaitWhy where
  /-- A page-table entry is being read (R31, R375). -/
  | pageTable (id page : Nat)
  /-- A mirrored write of bytes that it touches has not been acknowledged (R117), or a locked
  operation of a Svapo block on a 64-byte block that it touches has not ended (R376). -/
  | mirror
  /-- Every replay entry is within its hold (R83). -/
  | replay
  /-- An earlier packet of its stream waits (R83, R120). -/
  | behind
  /-- A FENCE waits for the packets of its stream that arrived before it: those that wait before it
  in the list, and the operations whose number is below `before` (R73). -/
  | fence (before : Nat)
  deriving DecidableEq, Repr

/-- An arriving request that waits: where it came from, its packets, once checks 1 to 7 of R30 have
passed the entry under which they did, and once it has been admitted the translations that it
holds. -/
structure Waiting where
  why : WaitWhy
  via : Via
  pkts : List Packet
  ent : Option Entry := none
  admitted : Option (List Trans) := none
  deriving DecidableEq, Repr

/-- An entry of the responder replay cache (R81). `kept` marks an entry held beyond its hold
(R85); `plane` is the plane on which a Svapo block answered, or 18 for the loopback; `mirrored`
marks an entry received from the partner. -/
structure ReplayEnt where
  key : ReplayKey
  status : BitVec 7
  old : List Byte
  at_ : Word
  kslot : BitVec 6 := 0
  plane : Nat := 18
  mirrored : Bool := false
  kept : Bool := false
  deriving DecidableEq, Repr, Inhabited

/-- What a request of the block is for, so that its response can be used. -/
inductive Purpose where
  /-- A request of a Svapo engine queue (R361). -/
  | engine (r : Rqo)
  /-- The FENCE packets of a Svapo engine queue (R73). -/
  | fenceLegs
  /-- An access to a coherent line of a Svapo engine queue, at its fabric address (R383). -/
  | access (r : Rqo) (fa : Word)
  /-- A request of the coherence agent for a line (R150). -/
  | agent (line : BitVec 57)
  /-- A relayed RdNoAlloc, with the request that it serves (R385). -/
  | relay (plane : Nat) (req : Packet)
  /-- A LIVE notice (R473). -/
  | liveNotice
  /-- A request of a unit of the QD1: unit, item and two further numbers that the unit uses. -/
  | unit (u : Nat) (a b c : Nat)
  deriving DecidableEq, Repr

/-- One part of an outstanding request: its packets as sent, the plane, the resends used after
timeouts and after E2E failures (R76, R78), whether it has been answered, the data packets received
of a tile read, and whether an earlier sending may have been performed. -/
structure Part where
  part : Nat := 0
  pkts : List Packet
  plane : Nat := 0
  rty : Nat := 0
  e2e : Nat := 0
  answered : Bool := false
  got : List Nat := []
  unsure : Bool := false
  deriving DecidableEq, Repr, Inhabited

/-- An outstanding request (R66): its queue, tag and use count, and its parts. A FENCE has one part
for each packet; any other request that is no tile has one part. -/
structure OutReq where
  que : Nat
  tag : Nat
  tseq : Byte
  parts : List Part
  purpose : Purpose
  /-- At a QD1: the first error with its WOFF, and the data by place. -/
  st : BitVec 7 := 0
  woff : BitVec 50 := 0
  data : List (Nat × List Byte) := []
  deriving DecidableEq, Repr

/-- A request of a unit of the QD1 that waits for a tag (R68): its queue, what it is for, and its
packets part by part without tag and use count. -/
structure TagWait where
  que : Nat
  purpose : Purpose
  parts : List (List Packet)
  deriving DecidableEq, Repr

/-! ### What the block sends -/

/-- One thing that the block has sent or done outside itself. -/
inductive Out where
  /-- A packet received on a link port or handed over by a unit, ready for the switch core. -/
  | ingress (i : Ingress) (p : Packet)
  /-- A packet that left a service port of the switch core for the unit that it addresses. -/
  | toUnit (n : Nat) (p : Packet)
  /-- A packet that a unit of the QD1 hands to the service exchange. -/
  | unitSend (p : Packet)
  /-- A FEC block or a Ferry flit sent on a port. -/
  | wire (p : PortSel) (block : List Byte)
  /-- A training or link message of 16 bytes, sent by a control flit or by a lane (R395). -/
  | linkMsg (p : PortSel) (slot : List Byte)
  /-- A packet received by a Svapo port controller, ready for its responder or its source. -/
  | svArrive (plane : Fin 18) (p : Packet)
  /-- A packet that a Svapo block hands to its port controller of a plane. -/
  | svSend (plane : Nat) (p : Packet)
  /-- A packet on the loopback path of a Svapo block (R373). -/
  | svLoop (p : Packet)
  /-- An RQI unit: berth, operation, tag, address, source and queue, data and byte enables. -/
  | rqi (berth op tag addr : Nat) (len : Nat) (src que : Nat) (data : List Byte) (be : List Bool)
  /-- An RSO completion unit. -/
  | rsoDone (berth : Nat) (id : BitVec 16) (q : Nat) (status : BitVec 7) (woff : BitVec 50)
      (data : List Byte)
  /-- An RSO data unit of a tile read, at an offset counted in beats (R361). -/
  | rsoData (berth : Nat) (id : BitVec 16) (q : Nat) (boff : Nat) (data : List Byte)
  /-- The answer to a register access: source, status and value read. -/
  | regAnswer (src : RegSrc) (status : BitVec 7) (v : Word)
  /-- A mirroring message to the partner QD1 over the partner ports. -/
  | mirror (m : MirrorMsg)
  /-- The acknowledgement of a partner's mirroring message. -/
  | mirrorAck (id : Nat)
  /-- An update of a mirrored window's word W2 sent to the partner (R555). -/
  | mirrorWithdraw (id win : Nat) (w2 : Word)
  /-- A combine record sent to the partner, and its acknowledgement (R190). -/
  | combine (r : CombineRec)
  | combineAck (e : Nat)
  /-- What the Green sends to the neighbour rack of its plane over the Ferry's transport (R247, R248, R256):
  kind (0 digest to the next rack, 1 digest to the previous, 2 partial, 3 gathered output, 4 abort), context,
  collective, chunk and bytes. -/
  | ring (rack plane kind : Nat) (ctx : BitVec 16) (coll : BitVec 32) (c : Nat) (data : List Byte)
  /-- An upward frame on a rack service link: type, sequence number and payload (R412). -/
  | rslFrame (l : RslLink) (typ seq : Byte) (payload : List Byte)
  /-- A link state change asked of the lanes of a port. -/
  | lane (p : PortSel) (what : Nat) (v : Nat)
  /-- A Ferry segment received on a Ferry port, ready for the Ferry (R407). -/
  | ferryIn (port : Fin 160) (s : Segment)
  /-- A mesh packet of the grid: from stop, to stop, virtual queue, header and data (R273). -/
  | mesh (src dst vq : Nat) (hdr : Nat) (data : List Byte)
  /-- A pin driven: its name and level. -/
  | pin (name : String) (level : Bool)
  /-- A message between partners outside the packet ports: kind, words and bytes. -/
  | partner (kind : Nat) (words : List Word) (data : List Byte := [])
  /-- A voltage in mV commanded over AVSBus: bus 0 VDD_GRID, bus 1 VDD_CORE (R421, R543). -/
  | avs (bus mv : Nat)
  /-- A JTAG data register selected and its captured value (R551). -/
  | jtag (instr : String) (len : Nat) (v : Nat)
  deriving DecidableEq, Repr

/-- The three responders of the block: the QD1's own node, the partner's node that the QD1 serves
from its mirror copies while the partner is lost (R39), and the Svapo block. -/
inductive Bank where
  | own
  | mir
  | sv
  deriving DecidableEq, Repr, Inhabited

/-- What a mirrored update does at this QD1 once the partner has acknowledged it. -/
inductive MirrorThen where
  /-- Bytes to write in a responder's memory, by address, the replay entry to keep, and the first packet of
  the request that was admitted (R84, R117). -/
  | write (b : Bank) (p : Packet) (writes : List (Nat × List Byte)) (rep : Option ReplayEnt)
  /-- A window-table entry to write (R527). -/
  | window (win : Nat) (e : Entry)
  /-- A binding to write (R528). -/
  | binding (q : Nat) (e : Entry)
  /-- A COUNT to raise, of a queue's descriptor (R244). -/
  | count (k : Nat) (ridx : BitVec 32) (n : Nat)
  /-- Bytes that a service writes, the descriptor that is then over with its status and result, and the
  collective and chunk whose weights then go out (R340, R354). -/
  | svc (b : Bank) (writes : List (Nat × List Byte)) (ended : Option (Nat × BitVec 32 × BitVec 7 × Word))
      (commit : Option (Nat × Nat))
  /-- Nothing more than the answers. -/
  | nothing
  deriving DecidableEq, Repr

/-- A mirrored update that the partner has not acknowledged: what it then does, what is then sent,
and what is sent instead when the partner cannot take it. -/
structure MirrorPend where
  id : Nat
  then_ : MirrorThen
  answers : List Out
  lost : List Out := []
  /-- Messages not yet acknowledged. -/
  need : Nat := 1
  /-- The stream of the packet that made it: way, source, queue and class. -/
  strm : Option (Via × BitVec 14 × BitVec 10 × BitVec 2) := none
  deriving DecidableEq, Repr

/-! ### Ports and links (chapter 13) -/

/-- A sequenced flit kept for retry (R400, R401): its number, its HDRMASK and credit bits, its
240 slot bytes and how often it has been resent. -/
structure KeptFlit where
  seq : BitVec 12
  fields : Word
  slots : List Byte
  resent : Nat := 0
  /-- The packets whose slots it carries. -/
  pkts : List Packet := []
  deriving DecidableEq, Repr, Inhabited

/-- The link layer of one port (R391-R404). A QD1 port's state, step, failed lanes and far end stand
in its registers; `step` and `failed` serve a Svapo port controller. -/
structure Link where
  /-- SEQ of the last sequenced flit sent. -/
  txSeq : BitVec 12 := 4095
  /-- Sequenced flits sent and not acknowledged, oldest first. -/
  kept : List KeptFlit := []
  /-- Kept flits still to be resent after a NAK or a retrain. -/
  resend : List (BitVec 12) := []
  /-- SEQ of the last flit received in order. -/
  rxSeq : BitVec 12 := 4095
  /-- A NAK is to be sent with the next flit. -/
  nakDue : Bool := false
  /-- A NAK has been sent and the expected SEQ has not arrived. -/
  nakSent : Bool := false
  /-- Credits held for each class, and the grant they started from (R402). -/
  cred : Tbl Nat := []
  grant : Tbl Nat := []
  /-- Credits to be returned to the far end for each class. -/
  owed : Tbl Nat := []
  /-- Management credits: those in use at the far end, those freed here, and the count last seen. -/
  mused : Nat := 0
  mfreed : Byte := 0
  mseen : Byte := 0
  /-- Control messages waiting to be sent once. -/
  ctl : List (List Byte) := []
  /-- Slots of the packet being received. -/
  rxSlots : List Byte := []
  /-- Slots of the packet being sent that have not left, and the packet. -/
  txSlots : List Byte := []
  txPkt : Option Packet := none
  /-- Packets handed to the port by a Svapo block, oldest first. -/
  txq : List Packet := []
  /-- Ferry segments waiting for a Ferry port. -/
  segq : List Segment := []
  /-- Deficits of the egress drain for classes 1-3 (R176). -/
  drr : Tbl Nat := []
  /-- For the last 256 blocks, newest first, whether each was uncorrectable (R392). -/
  blocks : List Bool := []
  /-- Consecutive blocks with zero syndrome while block lock is sought. -/
  zeroBlocks : Nat := 0
  locked : Bool := false
  /-- Coefficient requested for each lane by TS, kept through a port down. -/
  coef : Tbl Nat := []
  /-- Lanes whose MARK has been received in this training. -/
  marks : Nat := 0
  /-- The power state asked of the far end, accepted from it, and accepted by it (0: none). -/
  pmAsked : Byte := 0
  pmIn : Byte := 0
  pmGot : Byte := 0
  /-- The pattern asked of the far end or run for it, whether its count is awaited, and the count. -/
  testPat : Byte := 0
  testAsk : Bool := false
  farErrs : BitVec 32 := 0
  /-- Training from T1 (0), a retrain in service (1), an exit from LQ or LD (2). -/
  mode : Nat := 0
  /-- The port trains and runs on two lanes (R398). -/
  narrow : Bool := false
  /-- Step and failed lanes of a Svapo port controller. -/
  step : Nat := 0
  failed : BitVec 4 := 0
  identSeen : Bool := false
  /-- CRINIT has been exchanged: the link carries packets. -/
  crSeen : Bool := false
  deriving DecidableEq, Repr, Inhabited

/-! ### The switch core (chapter 6) -/

/-- The credit that a cell used (R177, R178). -/
inductive CellTag where
  | guaranteed
  | shared
  | recovery
  deriving DecidableEq, Repr

/-- A cell in the shared buffer or in an egress stage: ingress and egress 0-175, class, its packet,
its place among the packet's cells, its route-table index (256 + rack for a remote entry) and, for
cells under random early drop, its colour. -/
structure Cell where
  ing : Nat
  egr : Nat
  cls : Nat
  pkt : Packet
  idx : Nat := 0
  last : Bool := true
  tag : CellTag := .guaranteed
  route : Nat := 0
  /-- It arrived while its route-table entry was held (R196). -/
  held : Bool := false
  deriving DecidableEq, Repr

/-- One line of an egress's hot-line tracker (R185): counts of the previous and the current
half-window. -/
structure HotLine where
  dst : BitVec 14
  line : Nat
  prev : Nat := 0
  cur : Nat := 0
  deriving DecidableEq, Repr, Inhabited

/-- An update of a hot line (R186, R187). -/
structure Update where
  isAdd : Bool
  /-- The first member, whose CTX, GEN, KSLOT and class the update carries. -/
  head : Packet
  tseq : Byte := 0
  /-- Written bytes of the line image, by byte of the line. -/
  image : Tbl (Option Byte) := []
  total : BitVec 128 := 0
  members : List (Packet × BitVec 128) := []
  closed : Bool := false
  /-- The combine record has been sent, and has been acknowledged. -/
  recSent : Bool := false
  recAcked : Bool := false
  /-- Packets of the update not yet answered, and the worst status answered. -/
  awaiting : Nat := 0
  status : BitVec 7 := 0
  /-- Resends of an add update after a reply timeout (R76). -/
  tries : Nat := 0
  deriving DecidableEq, Repr, Inhabited

/-- An entry of the line-merge buffer (R186). -/
structure MergeEnt where
  dst : BitVec 14
  line : Nat
  egr : Nat
  update : Option Update := none
  deriving DecidableEq, Repr, Inhabited

/-- The switch core. -/
structure Sw where
  /-- Cells of the shared buffer in arrival order. -/
  buf : List Cell := []
  /-- Cells of the egress stages in order of entry. -/
  stage : List Cell := []
  gptr : Tbl Nat := []
  aptr : Tbl Nat := []
  drr : Tbl Nat := []
  /-- Credits outstanding, tagged guaranteed and shared, by 4 × ingress + class (R178). -/
  cg : Tbl Nat := []
  cs : Tbl Nat := []
  /-- Class-0 policer buckets in 1/2176 of a credit, by port (R179), as spent credits. -/
  spent : Tbl Nat := []
  /-- Spent tokens of the colour meters by ingress, in 1/17 byte (R182). -/
  tcSpent : Tbl Nat := []
  tpSpent : Tbl Nat := []
  /-- Ingress ports whose current packet is being dropped (R182). -/
  dropping : List Nat := []
  hot : Tbl (List HotLine) := []
  merge : Tbl (Option MergeEnt) := []
  /-- Uses of each merge-buffer entry (R187). -/
  mergeUses : Tbl Byte := []
  /-- Requests held behind updates that have not been sent, in order of arrival: the updates (entry
  and use count), the egress and the packet (R132, R186, R188). -/
  heldQ : List (List (Nat × Byte) × Nat × Packet) := []
  /-- Updates sent and not answered, with entry, destination and egress. -/
  sentUpd : List (Nat × BitVec 14 × Nat × Update) := []
  /-- Combine records kept for the partner (R190). -/
  partnerRecs : List CombineRec := []
  /-- Packets that arrived on management credits and wait in the recovery pool. -/
  recovery : List Cell := []
  /-- Route-table entries found broken and not rewritten since (R194), by route index. -/
  rtBad : List Nat := []
  /-- The held route-table entry: route index, value before the hold, value to take, drained. -/
  rtHold : Option (Nat × Word × Option Word × Bool) := none
  deriving DecidableEq, Repr, Inhabited

/-! ### The responder of a node -/

/-- Window tables, translations, tiles, waiting requests and the replay cache of one node. -/
structure Node where
  wt : Tbl Entry := []
  trans : List Trans := []
  tiles : List TileReg := []
  streams : List Stream := []
  waits : List Waiting := []
  mirrors : List MirrorPend := []
  replay : List ReplayEnt := []
  /-- Withdrawals in progress: window and the in-use count found at the last timeout event. -/
  drains : List Nat := []
  /-- Next number for a page-table read or a mirroring message. -/
  nextId : Nat := 0
  deriving DecidableEq, Repr, Inhabited

/-- The sources of one node: outstanding requests, tag use counts by 512 × queue + tag. -/
structure Srcs where
  reqs : List OutReq := []
  tseq : Tbl Byte := []
  /-- Requests of the QD1's units that wait for a tag, oldest first. -/
  waits : List TagWait := []
  deriving DecidableEq, Repr, Inhabited

/-! ### The directory (chapter 5) -/

/-- A directory entry (R144). `age` orders the entries of a set by last use. An entry whose BUSY is 7
awaits the write-back of member OWN that a census has announced (R170). -/
structure DirEnt where
  line : BitVec 57 := 0
  valid : Bool := false
  hst : BitVec 3 := 0
  mode : Bool := false
  shr : BitVec 16 := 0
  own : BitVec 4 := 0
  busy : BitVec 4 := 0
  ham : BitVec 4 := 0
  nxt : BitVec 4 := 0
  nxv : Bool := false
  age : Nat := 0
  deriving DecidableEq, Repr, Inhabited

/-- A transaction of a slice (R146): its place, use count, line and busy kind (R158), the COH_WIN word
under which it runs, the request served or held, and what has come of it. -/
structure DirTxn where
  slice : Nat
  idx : Nat
  tseq : Byte
  line : BitVec 57
  kind : BitVec 4
  cw : Word
  req : Option (Via × Packet) := none
  /-- The request is served once the line is stable, not by this transaction (R145, R162). -/
  after : Bool := false
  /-- Snoop opcode and AUX, the members whose answers are awaited, and those whose WBD or EVICT was taken
  as the answer while the later ack is awaited (R159). -/
  snpOpc : Nat := 0
  snpAux : Nat := 0
  snoops : List Nat := []
  acks : List Nat := []
  /-- Members found to hold the line no more. -/
  gone : List Nat := []
  memRead : Bool := false
  data : Option (List Byte) := none
  /-- The data came with DIRTY = 1. -/
  dirty : Bool := false
  /-- State code of the grant; the answer is UPOK. -/
  grant : Nat := 0
  upok : Bool := false
  granted : Bool := false
  /-- The request has been answered with an error. -/
  failed : Bool := false
  /-- The write-back of a member: 0 none, 1 being written, 2 awaiting WBDONE. -/
  wb : Nat := 0
  giver : Nat := 0
  wbData : List Byte := []
  wbStatus : BitVec 7 := 0
  /-- The giver keeps the line in S (R148, KEEP). -/
  keep : Bool := false
  /-- The entry is freed at the end (R145, R163). -/
  free : Bool := false
  memTries : Nat := 0
  memE2e : Nat := 0
  resends : Nat := 0
  deriving DecidableEq, Repr, Inhabited

/-- A census in progress (R168-R170): the lost plane, the moved indices, the slots that have not sent LAST
and the reports. -/
structure Census where
  lost : Nat := 0
  mask : BitVec 144 := 0
  waiting : List Nat := []
  reports : List (Nat × Word) := []
  deriving DecidableEq, Repr, Inhabited

/-- The directory of one QD1. Entry `12 × (8192 × slice + set) + way`. -/
structure Dir where
  ents : Tbl DirEnt := []
  txns : List DirTxn := []
  /-- Use counts of the transaction entries, by 64 × slice + index. -/
  tseq : Tbl Byte := []
  clock : Nat := 0
  /-- HOME_MAP as this QD1 follows it (R37, R38, R477): by index, home plane. -/
  home : Tbl Nat := []
  lwb : Tbl EvRec := []
  census : Option Census := none
  censusCount : Byte := 0
  /-- Reported lines for which no way is free yet, each with its reports. -/
  late : List (BitVec 57 × List (Nat × Nat)) := []
  /-- The COH_CMD in progress: index, operation, mode. -/
  cmd : Option (Nat × Nat × Bool) := none
  /-- Lines whose reservation runs (R164). -/
  reserved : List (BitVec 57) := []
  /-- Slots from which a notice with this QD1's bit set has come, before its census as a spare (R478). -/
  noticed : List Nat := []
  deriving DecidableEq, Repr, Inhabited

/-! ### Service queues (chapter 3) -/

/-- A descriptor fetched from a ring: its index, its words (8 for each entry, as many as have come), and
where it stands: 0 waiting for extensions, 1 held by BARRIER, 2 started, 3 taken up by its service,
4 complete with no entry written, 5 its completion entry written and not acknowledged. -/
structure Desc where
  ridx : BitVec 32
  words : List Word
  /-- Its number in the order of fetches. -/
  no : Nat := 0
  stage : Nat := 2
  status : BitVec 7 := 0
  result : Word := 0
  /-- COUNT reached, COUNT last written to the signal word, and signal writes not acknowledged. -/
  count : Nat := 0
  stamp : Word := 0
  sigSent : Nat := 0
  sigOut : Nat := 0
  /-- Writes of the descriptor's work not yet acknowledged. -/
  writes : Nat := 0
  /-- Progress of the service's own work, and words that the service keeps. -/
  prog : Nat := 0
  aux : List Word := []
  /-- COUNT with which its work is over, and 0 where its service says so itself. -/
  goal : Nat := 0
  /-- It was started at the QD1 that has been lost (R114). -/
  inherited : Bool := false
  /-- It runs from the journal (R506). -/
  replay : Bool := false
  deriving DecidableEq, Repr, Inhabited

/-- A descriptor fetch: its first index, its entries, whether only the descriptor at the first is
wanted, whether that had been started at a lost QD1, and what has returned. -/
structure FetchRun where
  ridx : BitVec 32
  n : Nat
  single : Bool := false
  inherited : Bool := false
  back : Option (BitVec 7 × List Byte) := none
  deriving DecidableEq, Repr

/-- One service queue beside its binding entry: consumer index, index of the next fetch, accepted
producer index, failing status, descriptors and fetches. -/
structure SQ where
  ci : BitVec 32 := 0
  fp : BitVec 32 := 0
  pi : BitVec 32 := 0
  rerr : BitVec 7 := 0
  descs : List Desc := []
  fetching : List FetchRun := []
  statusDue : Bool := false
  /-- Of a queue taken over: descriptors fetched at the lost QD1 and not complete, and whether they had
  started (R114). -/
  redo : List (BitVec 32 × Bool) := []
  deriving DecidableEq, Repr, Inhabited

/-- The ring front end. Queue `q` has key `q`; the mirror copy of the partner's queue `q` has key
4096 + `q` (R114). -/
structure Rings where
  bind : Tbl Entry := []
  qs : Tbl SQ := []
  /-- The queue after the one last fetched for (R98). -/
  turn : Nat := 0
  /-- Number of the next descriptor fetched. -/
  fetchNo : Nat := 0
  deriving DecidableEq, Repr, Inhabited

/-! ### The Svapo block (chapter 12) -/

/-- States of a line in a coherence agent (R150). -/
inductive AgState where
  | i | s | e | m | o | is | im | sm | om | wi | ws | wim | ci
  deriving DecidableEq, Repr, Inhabited

/-- A line of a coherence agent (R150): its state, its data as it crosses the fabric, and the context,
generation and key slot of the request that brought it. -/
structure AgLine where
  st : AgState := .i
  data : List Byte := []
  ctx : BitVec 16 := 0
  gen : Byte := 0
  kslot : BitVec 6 := 0
  age : Nat := 0
  /-- A census has announced its write-back, and the WBD waits for a tag (R169). -/
  owes : Bool := false
  deriving DecidableEq, Repr, Inhabited

/-- A request accepted on RQO that has not been sent: the unit and whether the implicit FENCE
before it has run (R65, R125). -/
structure QWait where
  r : Rqo
  fenced : Bool := false
  deriving DecidableEq, Repr

/-- A FENCE that runs: the unit of an explicit FENCE, whether its packets have been sent, and the
first error among its answers with its WOFF (R73). -/
structure FenceRun where
  explicit : Option Rqo
  sent : Bool := false
  err : BitVec 7 := 0
  woff : BitVec 50 := 0
  deriving DecidableEq, Repr, Inhabited

/-- What a queue has done since its last completed FENCE, for R125. -/
inductive Since where
  | nothing
  /-- Posted writes to one node in one class only. -/
  | posted (dst : BitVec 14) (cls : BitVec 2)
  | mixed
  deriving DecidableEq, Repr, Inhabited

/-- One engine queue of a Svapo block. Its CTX and EN stand in SV_QCTL. -/
structure EngQ where
  /-- Sticky error, its WOFF and the later notices (R72). -/
  sticky : BitVec 7 := 0
  swoff : BitVec 50 := 0
  later : Nat := 0
  lastCls : Option (BitVec 2) := none
  waits : List QWait := []
  fence : Option FenceRun := none
  /-- Tags of acquires whose value has not returned (R126). -/
  acquires : List Nat := []
  /-- Since the last completed FENCE: nodes that received posted packets with the classes used (R372),
  whether a 33rd end point was written, remote racks with the plane and class used, classes used. -/
  dests : List (BitVec 14 × BitVec 2) := []
  ended : Bool := false
  racks : List (Nat × Nat × BitVec 2) := []
  clsUsed : List (BitVec 2) := []
  /-- Planes on which posted writes were sent since the last completed FENCE (R133). -/
  postPlanes : List Nat := []
  since : Since := .nothing
  deriving DecidableEq, Repr, Inhabited

/-- An inbound operation of a Svapo block that waits for RSI answers. -/
structure Inbound where
  /-- RQI tags outstanding with, for each, the address and length read. -/
  tags : List (BitVec 12 × Nat × Nat)
  /-- 0 page-table read, 1 load, 2 acknowledged write, 3 locked operation, 4 message, 5 tile read. -/
  kind : Nat
  via : Via
  pkts : List Packet
  win : Nat
  /-- Its number among the node's operations. -/
  no : Nat := 0
  ptId : Nat := 0
  /-- Data returned so far by address. -/
  got : List (Nat × List Byte) := []
  /-- Blocks locked in ascending order, and tags and blocks still to lock. -/
  locked : List (BitVec 12 × Nat × List Byte) := []
  toLock : List (Nat × Nat) := []
  /-- Addresses of the pieces read, in the order of the bytes returned. -/
  order : List Nat := []
  status : BitVec 7 := 0
  ent : Entry := {}
  deriving DecidableEq, Repr

/-- A key slot: state, generation, context, key and, at a QD1, its holders (R378, R441-R443). -/
structure KeySlot where
  st : BitVec 2 := 0
  sgen : Byte := 0
  ctx : BitVec 16 := 0
  key : List Byte := []
  done : Bool := false
  missed : Byte := 0
  deriving DecidableEq, Repr, Inhabited

/-- One pair of the injection limiter: tokens in bytes, rate, mark and whether a request waited during
the period (R386). -/
structure LimPair where
  tokens : Int := 16384
  rate : Nat := 256
  marked : Bool := false
  waited : Bool := false
  deriving DecidableEq, Repr, Inhabited

/-- The Svapo block. -/
structure Sv where
  nberth : Nat := 16
  ca : Bool := true
  /-- Registers held as words, by offset of R369. -/
  regs : Tbl Word := []
  /-- Window-table staging is held in regs; the table itself, its waits and replay in `node`. -/
  node : Node := {}
  srcs : Srcs := {}
  qs : Tbl EngQ := []
  links : Tbl Link := []
  inbound : List Inbound := []
  keys : Tbl KeySlot := []
  /-- The key-load area, by offset (R448). -/
  keyStage : Tbl Word := []
  lines : Tbl AgLine := []
  agClock : Nat := 0
  /-- Accesses that have reached the agent and wait there, by queue and tag, in order of arrival. -/
  accs : List (Nat × Nat) := []
  lim : Tbl LimPair := []
  ring : EvRing := {}
  /-- Packets held because their plane is not live or its port controller is down (R77, R556). -/
  held : List (Nat × Packet) := []
  /-- SV_EK and the seed of its decapsulation key (R448). -/
  ek : List Byte := []
  dk : BitVec 512 := 0
  /-- Planes that have been in LIVE since the block left reset, and bits of SV_LIVE whose maps are
  being restored (R477). -/
  wasLive : BitVec 18 := 0
  restoring : BitVec 18 := 0
  /-- A FLUSH of the agent is in progress (R384). -/
  flushing : Bool := false
  /-- IP_RESET_N is low (R388). -/
  inReset : Bool := false
  deriving DecidableEq, Repr, Inhabited

/-! ### The Green (chapter 8) -/

/-- A member of a collective that has posted its descriptor: slot, queue and ring index, the chunks whose
writes to it are not all acknowledged, and the chunks that are whole (R243). -/
structure CollMem where
  slot : Nat
  key : Nat
  ridx : BitVec 32
  out : List (Nat × Nat) := []
  whole : List Nat := []
  deriving DecidableEq, Repr

/-- A gradient chunk of an optimizer step that the Green has delivered (R354): its FP32 bytes, the check
values of the members' inputs, and whether its block is being committed. -/
structure StepSum where
  chunk : Nat
  data : List Byte
  icrcs : List (Nat × BitVec 32) := []
  busy : Bool := false
  deriving DecidableEq, Repr

/-- An entry of the collective table (R239): its number and place, the plane whose share it performs, its key,
the words of the descriptor that opened it and the seed in force, its members in order of arrival. -/
structure Coll where
  no : Nat
  idx : Nat
  plane : Nat
  ctx : BitVec 16
  coll : BitVec 32
  words : List Word
  seed : Word := 0
  opened : Word := 0
  mems : List CollMem := []
  /-- The digests of the ring neighbours have come and match (R247). -/
  dPrev : Bool := false
  dNext : Bool := false
  running : Bool := false
  /-- Chunks, once it has started. -/
  nch : Nat := 0
  /-- Aborted, or complete at every member. -/
  ended : Bool := false
  /-- Chunks taken by a lane group, and those that the sentinel has had computed again (R258). -/
  taken : List Nat := []
  again : List Nat := []
  /-- In-rack sums and partials that wait for each other, by chunk (R248), as LACC48 elements and as sent. -/
  sums : List (Nat × List Byte) := []
  parts : List (Nat × List Byte) := []
  /-- Gathered inputs by chunk and ring position. -/
  gath : List (Nat × Nat × List Byte) := []
  /-- Of an optimizer step: chunks delivered and not yet written. -/
  ready : List StepSum := []
  deriving DecidableEq, Repr

/-- The Green: the collective table, the seeds of contexts and those mirrored from the partner (R255), the
COUNTs mirrored from the partner by context, collective and slot (R244), and ring digests that came before
their entry opened. -/
structure Green where
  colls : List Coll := []
  no : Nat := 0
  seeds : List (BitVec 16 × Word) := []
  mseeds : List (BitVec 16 × Word) := []
  mcounts : List (BitVec 16 × BitVec 32 × Nat × Nat) := []
  /-- The COUNTs of the own plane with which this QD1 was loaded as a spare (R476). -/
  hcounts : List (BitVec 16 × BitVec 32 × Nat × Nat) := []
  early : List (BitVec 16 × BitVec 32 × Bool × BitVec 128) := []
  deriving DecidableEq, Repr, Inhabited

/-! ### The resident services (chapter 11) -/

/-- A KV pool (R335): its context, its words D5 to D7 and the key slot of its window. -/
structure Pool where
  ctx : BitVec 16
  w5 : Word
  w6 : Word
  w7 : Word
  kslot : BitVec 6 := 0
  deriving DecidableEq, Repr

/-- The pools of this QD1, and those of its partner as mirrored. -/
structure Svc where
  pools : List Pool := []
  mpools : List Pool := []
  deriving DecidableEq, Repr, Inhabited

/-! ### The mill grid (chapters 9 and 10) -/

/-- A message in a queue endpoint: from the fabric or the mesh, its source node or sending mill, its
source queue and its payload (R275, R277, R317). -/
structure MsgEnt where
  fabric : Bool
  src : Nat
  que : Nat
  data : List Byte
  deriving DecidableEq, Repr, Inhabited

/-- A queue endpoint of a mill (R275, R317): its configuration word, entries, credits, credits on
their way back, fabric completions held and outstanding, and how often it has been configured. -/
structure QEnd where
  cfg : Word := 0
  entries : List MsgEnt := []
  credits : Nat := 0
  back : Nat := 0
  comps : List (BitVec 7) := []
  outst : Nat := 0
  epoch : Nat := 0
  deriving DecidableEq, Repr, Inhabited

/-- What a VQ0 request does at its destination (R273). -/
inductive MeshOp where
  | load
  | store
  | add
  | swap
  | message (ep : Nat)
  deriving DecidableEq, Repr

/-- A VQ0 request of a mill: grid address, operation, length and data; `dst` numbers its destination
(R274): mills 0-255, common banks 256-319, lease words 320. -/
structure MeshReq where
  dst : Nat
  addr : Nat
  op : MeshOp
  len : Nat
  data : List Byte
  deriving DecidableEq, Repr

/-- A VQ1 response: the request's operation and address, whether it failed, and the bytes returned. -/
structure MeshRsp where
  op : MeshOp
  addr : Nat
  fail : Bool
  data : List Byte
  deriving DecidableEq, Repr

/-- What an instruction stream waits for. `load` to `atom` wait for a VQ1 response; the others stand at
PC and are attempted again (R301, R317, R318, R320, R321). -/
inductive MWait where
  | none
  /-- A scalar load of `n` bytes into s register `da`. -/
  | load (da n : Nat) (signed : Bool)
  /-- A vector load into v register `vd`. -/
  | vload (vd : Nat)
  /-- An atomic whose old value goes to s register `da`. -/
  | atom (da : Nat)
  | send (ep sa sb : Nat)
  | recv (ep sa da : Nat)
  | dwait (c sb da : Nat) (raise : Bool)
  | bar (da : Nat)
  | waitt (sa : Nat)
  | fence
  | tfence
  deriving DecidableEq, Repr, Inhabited

/-- How a mill stands: never started or freed, running, or stopped normally, by a fault, or halted
(R289). -/
inductive MRun where
  | idle
  | running
  | ended
  | faulted
  | halted
  deriving DecidableEq, Repr, Inhabited

/-- A TMMA issued and not complete (R316): its accumulator, format, transposition, zeroing and KB, and
the addresses and captured bytes of its operands. -/
structure Tmma where
  acc : Nat
  fmt : Nat
  trb : Bool
  zero : Bool
  kb : Nat
  aAddr : Nat
  bAddr : Nat
  a : List Byte
  b : List Byte
  deriving DecidableEq, Repr, Inhabited

/-- A DMA descriptor that has started (R279-R283): its number, its words, its requests not yet
answered, and the first error with its WOFF. -/
structure DmaRun where
  id : Nat
  words : List Word
  waits : Nat := 0
  st : BitVec 7 := 0
  woff : BitVec 50 := 0
  /-- The bytes that a WRITE has read from the grid. -/
  data : List Byte := []
  deriving DecidableEq, Repr, Inhabited

/-- One mill (R294, R295). -/
structure Mill where
  run : MRun := .idle
  pc : BitVec 21 := 0
  s : Tbl Word := []
  v : Tbl (BitVec 1024) := []
  p : Tbl (BitVec 32) := []
  /-- Element `1024 × n + 32 × row + column` of accumulator `n`. -/
  acc : Tbl (BitVec 32) := []
  tags : BitVec 4 := 0
  arg : Word := 0
  cause : BitVec 7 := 0
  inh : Bool := false
  epc : BitVec 21 := 0
  eaddr : Word := 0
  handler : BitVec 21 := 0
  estat : BitVec 7 := 0
  first : BitVec 7 := 0
  retired : Word := 0
  qs : Tbl QEnd := []
  /-- COUNT and STATUS of each completion counter (R283). -/
  cnt : Tbl (BitVec 32 × BitVec 7) := []
  errs : List (BitVec 7 × Word × BitVec 50) := []
  /-- Descriptors queued, and started, oldest first. -/
  dmaq : List (List Word) := []
  dmas : List DmaRun := []
  dmaNo : Nat := 0
  /-- Node of the last fabric request to complete (R495). -/
  lastNode : BitVec 14 := 0
  /-- The running TMMA and the waiting one. -/
  tmma : List Tmma := []
  vq0 : List MeshReq := []
  vq1 : List MeshRsp := []
  /-- A remote store failed and has not been observed; its address (R301). -/
  storeFail : Option Nat := none
  wait : MWait := .none
  /-- Stamp of the start of the wait (R495). -/
  since : Word := 0
  /-- Debug (R327): under debug halt, why, a halt asked for, a step in progress, the breakpoint at PC
  passed, BRK_EN and the two breakpoint registers. -/
  dhalt : Bool := false
  reason : BitVec 2 := 0
  haltReq : Bool := false
  stepping : Bool := false
  pass : Bool := false
  brkEn : Bool := false
  ibp0 : Word := 0
  ibp1 : Word := 0
  /-- Telemetry (R293). -/
  msgIn : BitVec 32 := 0
  msgRefused : BitVec 32 := 0
  dmaPeak : BitVec 16 := 0
  xfer : Word := 0
  deriving DecidableEq, Repr, Inhabited

/-- A lease word (R270). -/
structure Lease where
  value : Word := 0
  held : Bool := false
  holder : Byte := 0
  deriving DecidableEq, Repr, Inhabited

/-- An allotment beside its status entry (R285-R289): text section, the START, HALT and FREE
descriptors that await its mills, counts since START, the first fault status and the barrier. -/
structure Allot where
  textOff : Nat := 0
  textLen : Nat := 0
  meas : BitVec 512 := 0
  start : Option (Nat × BitVec 32) := none
  halt : Option (Nat × BitVec 32) := none
  free : Option (Nat × BitVec 32) := none
  load : Option (Nat × BitVec 32) := none
  firstSt : BitVec 7 := 0
  arrived : List Nat := []
  broken : Bool := false
  /-- The key slot of the allotment is being retired: it is freed (R452). -/
  keyLost : Bool := false
  deriving DecidableEq, Repr, Inhabited

/-- The grid: mills, scratch at 2 MiB × mill + offset, common scratch, lease words, allotments and the
CREATE descriptors that wait, in the order of their acceptance (R287). -/
structure Grid where
  mills : Tbl Mill := []
  scratch : Tbl Byte := []
  common : Tbl Byte := []
  lease : Tbl Lease := []
  allots : Tbl Allot := []
  creates : List (Nat × BitVec 32) := []
  deriving DecidableEq, Repr, Inhabited

/-! ### The other units of the QD1 -/

/-- The Ledger region and the open segment (R504, R505). -/
structure Ledger where
  /-- Closed segments by place in the region, 64 KiB each. -/
  segs : Tbl (List Byte) := []
  /-- Records of the open segment, header included in none of them. -/
  cur : List Byte := []
  /-- Record number of the open segment's first record, and of the next record. -/
  first : Nat := 0
  next : Nat := 0
  /-- The open segment began after lost records. -/
  gap : Bool := false
  /-- Granary atomics of the last microsecond: line, key, opcode and time (R505, ATOMORD). -/
  atoms : List (Nat × ReplayKey × Nat × Nat) := []
  /-- LG_CMD2.TO, DESC and MSG records still to be replayed, the INDIG and WATCH records still to be
  compared, and the PLACE records that force placements, each with its record number (R506). -/
  upTo : Nat := 0
  todo : List (Nat × List Byte) := []
  expect : List (Nat × List Byte) := []
  places : List (Nat × List Byte) := []
  deriving DecidableEq, Repr, Inhabited

/-- An image that is being fetched (R508): its kind, its identifier once a block has come, the blocks by
offset, and how often each offset has been requested. -/
structure ImgFetch where
  kind : Nat
  imgid : Option Word := none
  blocks : List (Nat × List Byte) := []
  asked : Tbl Nat := []
  deriving DecidableEq, Repr

/-- The boot state of the Harbourmaster and the power of the device (chapters 18 and 20). -/
structure Boot where
  bootId : Word := 0
  /-- M_FW and M_SETUP (R439). -/
  mfw : List Byte := []
  msetup : List Byte := []
  /-- FW_SVN of the boot image. -/
  svn : Nat := 0
  /-- The verified images and certificate bundle, and the partner's set-up image (R515). -/
  image : List Byte := []
  setup : List Byte := []
  cert : List Byte := []
  partnerSetup : List Byte := []
  /-- Images being fetched; from the partner (R515). -/
  fetch : List ImgFetch := []
  warm : Bool := false
  /-- CMD BOOT has come for the steps from 6 on. -/
  going : Bool := false
  /-- Records of the set-up image applied so far in the step that runs. -/
  applied : Nat := 0
  /-- RESET_N is low. -/
  resetLow : Bool := false
  /-- Every clock but the always-on one is stopped (R434, R547); THERMTRIP_N is asserted. -/
  stopped : Bool := false
  trip : Bool := false
  /-- The power-fail sequence: 0 not running, 1 steps 2 to 5 have run, 2 it has ended (R435). -/
  pwr : Nat := 0
  /-- The grid is parked (GP); the HBM is in self-refresh (HS), and entered it by R435; the device is
  in DS (R520). -/
  gp : Bool := false
  hs : Bool := false
  hsPwr : Bool := false
  ds : Bool := false
  /-- Ledger and trace records lost in HS (R520). -/
  lost : Nat := 0
  deriving DecidableEq, Repr, Inhabited

/-- One rack service link (R412): its last 16 answers, with the SEQ and the type of each, and the SEQ of the
next frame of its own. -/
structure Rsl where
  answers : List (Byte × Byte × List Byte) := []
  seq : Byte := 0
  deriving DecidableEq, Repr, Inhabited

/-- The sequencer and the adaptive loops (R421, R428-R433). -/
structure Clk where
  /-- Point of an upward move in progress with the value sensed that asked for it, and the time before which
  none is tried. -/
  up : Option (Nat × Nat) := none
  ban : Nat := 0
  /-- When TJMAX was last found outside TSET ± 1 °C (R436). -/
  offBand : Nat := 0
  /-- A sensor has reached 98 °C; THROTTLE_N is low; rates are halved. -/
  hot : Bool := false
  low : Bool := false
  halved : Bool := false
  /-- A measurement runs (R424). -/
  measuring : Bool := false
  /-- Receiver coefficients by lane, and the value and time of the last record of each. -/
  coefs : Tbl Nat := []
  coefLog : Tbl (Nat × Nat) := []
  /-- STALL by class as last read, periods without a backlog at MARK_LO, and by class the thresholds of the
  moment at which EN was last set (MARK_LO + 2^16 MARK_HI; 0: those of reset). -/
  stall : Tbl Nat := []
  quiet : Tbl Nat := []
  marks : Tbl Nat := []
  /-- A frame that moves, and the channels that it moves from and to. -/
  move : Option (Nat × Nat × Nat) := none
  deriving DecidableEq, Repr, Inhabited

/-- Health scores (R488, R489), by 65,536 × class + index: accumulators, totals since PO, weighted counts of
this second, and counter values as last read. -/
structure Health where
  acc : Tbl Nat := []
  total : Tbl Nat := []
  delta : Tbl Nat := []
  last : Tbl Nat := []
  evts : Nat := 0
  deriving DecidableEq, Repr, Inhabited

/-- The unit event rings and the regions of the trace (chapter 17). -/
structure Trace where
  rings : Tbl EvRing := []
  /-- POST_N as it stood at the recorded trigger (R499). -/
  postN : Nat := 0
  pre : Tbl EvRec := []
  post : List EvRec := []
  ledger : Ledger := {}
  deriving DecidableEq, Repr, Inhabited

/-- The Granary (R2, R482): bytes, and the 64-bit words that cannot be corrected. -/
structure Hbm where
  mem : Tbl Byte := []
  bad : List Nat := []
  deriving DecidableEq, Repr, Inhabited

/-- The always-on timebase (R425, R426). -/
structure Aon where
  /-- Timebase count in ns and its 32-bit fraction. -/
  ns : BitVec 60 := 0
  frac : BitVec 32 := 0
  sync : Bool := false
  /-- Time still to be given back, and how much of it at each tick, in 2^-32 ns (R425). -/
  ahead : Nat := 0
  rate : Nat := 0
  /-- Start of the current or last holdover. -/
  holdFrom : Nat := 0
  /-- The grid island and the core island have been stretched (R426, R429). -/
  coarseG : Bool := false
  coarseC : Bool := false
  deriving DecidableEq, Repr, Inhabited

/-- A transfer that the Ferry sends (R408): its number, rack, index and kind, the records that have not been
answered, its bytes, the segments acknowledged and how often each has been resent. -/
structure FerryTx where
  no : Nat
  rack : Nat
  xid : Nat
  kind : Nat := 0
  recs : List Packet := []
  data : List Byte := []
  acked : List Nat := []
  resent : Tbl Nat := []
  deriving DecidableEq, Repr

/-- A transfer that the Ferry receives (R408): the segments that have come, whether an ACK is due, whether
it is whole and its records issued, and the RESP transfers that are still to be sent. -/
structure FerryRx where
  rack : Nat
  xid : Nat
  kind : Nat := 0
  nseg : Nat := 1
  segs : List (Nat × List Byte) := []
  ackDue : Bool := false
  whole : Bool := false
  answered : Bool := false
  resp : List (List Byte) := []
  deriving DecidableEq, Repr

/-- Records of a received transfer that make one request, and the packets that answer it. -/
structure FerryJob where
  no : Nat
  rack : Nat
  xid : Nat
  pkts : List Packet
  answers : Option (List Packet) := none
  deriving DecidableEq, Repr

/-- The Ferry (R407-R409, R449): gathered records by rack, transfers, relayed records, FENCE answers that wait
for earlier transfers, the key in use and the previous one, and IVCTR. -/
structure Ferry where
  gather : List (Nat × Packet) := []
  tx : List FerryTx := []
  rx : List FerryRx := []
  jobs : List FerryJob := []
  fences : List (Nat × Packet) := []
  no : Nat := 0
  key : List Byte := []
  prev : List Byte := []
  iv : Word := 0
  deriving DecidableEq, Repr, Inhabited

/-- Work of Customs with the holders of a slot (R448, R451): whether it is a retirement, the descriptor that
waits for it, the holders that have not answered, and how many have and have not been reached. -/
structure CustJob where
  k : Nat
  retire : Bool
  desc : Option (Nat × BitVec 32) := none
  /-- The step of R451 that has been reached; 0 for a delivery. -/
  step : Nat := 0
  todo : List Nat := []
  got : Nat := 0
  missed : Nat := 0
  deriving DecidableEq, Repr

/-- Customs (chapter 15). -/
structure Cust where
  keys : Tbl KeySlot := []
  /-- Slots of the Svapo blocks that each key slot has been loaded at. -/
  holders : Tbl (List Nat) := []
  /-- SV_EK of each end point as read when its port came up (R448). -/
  eks : Tbl (List Byte) := []
  /-- Seeds of the DK and EK pair, of the AK pair and of the DevID pair (R438). -/
  dk : BitVec 512 := 0
  ak : BitVec 512 := 0
  devid : BitVec 512 := 0
  jobs : List CustJob := []
  /-- Slot being scrubbed (R454); SELFTEST runs (R461). -/
  scrub : Option Nat := none
  testing : Bool := false
  deriving DecidableEq, Repr, Inhabited

/-- Fault management (chapter 16). -/
structure FaultMgr where
  /-- The partner is declared lost and this QD1 serves its node (R472). -/
  takeover : Bool := false
  /-- 64 KiB frames of the resync set (R475): frames of the own node's pages, and 2^40 plus the
  frame for those of the partner's node. -/
  resync : List Nat := []
  /-- The frames of the resync set are being copied (R475). -/
  copying : Bool := false
  /-- Granary frames to be moved to spare frames (R485), and by frame the times in ns of the corrected words of
  the last 24 h. -/
  retire : List Nat := []
  corrected : Tbl (List Nat) := []
  /-- FT_CMD SPARE has been written here (R515); this QD1 is a spare, and it has passed its tests (R476). -/
  spareCmd : Bool := false
  spare : Bool := false
  tested : Bool := false
  /-- The last poll of the end points meets R470; the confirm time has not been broken since. -/
  polled : Bool := false
  /-- The partner's port-down vector (R481). -/
  farDown : BitVec 144 := 0
  /-- The slots whose FT_EPLOST bit an EPLOST command or a declaration has set stand in the register. The
  slots from which a notice has come since the first write of SV_LIVE for an admission. -/
  live : List Nat := []
  deriving DecidableEq, Repr, Inhabited

/-- One QD1. -/
structure Qd where
  variant : Variant := .qd19
  /-- The register file of window 63, by offset. -/
  regs : Tbl Word := []
  /-- Staging of WT_DATA and SQ_DATA: 64 × source + 8 × table + word (R538). -/
  stage : Tbl Word := []
  node : Node := {}
  /-- Mirror copies of the partner's window table, pages and replay entries. -/
  mnode : Node := {}
  srcs : Srcs := {}
  sw : Sw := {}
  links : Tbl Link := []
  dir : Dir := {}
  rings : Rings := {}
  green : Green := {}
  svc : Svc := {}
  grid : Grid := {}
  hbm : Hbm := {}
  mhbm : Hbm := {}
  cust : Cust := {}
  ferry : Ferry := {}
  fault : FaultMgr := {}
  trace : Trace := {}
  aon : Aon := {}
  boot : Boot := {}
  rslA : Rsl := {}
  rslB : Rsl := {}
  clk : Clk := {}
  health : Health := {}
  deriving DecidableEq, Repr, Inhabited

/-- The whole block. -/
structure State where
  qd : Qd := {}
  sv : Sv := {}
  out : List Out := []
  free : Nat := 0
  pending : List Instr := []
  deriving DecidableEq, Repr

/-- No command of the block stops the machine: the spec gives none (R499 freezes a trace, R434 and
R471 stop a device in a state of its own, and the machine goes on). -/
inductive Fault where
  /-- Never raised. Safe. -/
  | none
  deriving DecidableEq, Repr

/-- Why a command has no meaning. -/
inductive Refusal where
  /-- Raised by an arm of the dispatch whose command is not modelled yet. Safe. -/
  | notModelled (mnemonic : String)
  deriving DecidableEq, Repr

/-- The outcome of a command. -/
abbrev Res := Host.Outcome State Fault Refusal

/-- The block right after reset: every register at its reset value, every table empty, the QD1 before step 1
of its boot (R507). -/
def State.reset : State := {}

end Sys2Proof.Machine
end

