-- ==== Sys2Proof/Machine/Ops.lean ====
section
/-! DEFINITION. The named operations over tables, words, bytes, memory and the output. -/

namespace Sys2Proof.Machine

/-! ### Sparse tables -/

/-- The value of a key: the listed one, or the default of the key. -/
def Tbl.get {α : Type} (d : Nat → α) (t : Tbl α) (k : Nat) : α :=
  match t.find? (fun p => p.1 == k) with
  | some p => p.2
  | none => d k

/-- Insert a pair into a table with rising keys that does not list its key. -/
def Tbl.ins {α : Type} (k : Nat) (v : α) : Tbl α → Tbl α
  | [] => [(k, v)]
  | p :: t => if k < p.1 then (k, v) :: p :: t else p :: Tbl.ins k v t

/-- The table without a key. -/
def Tbl.del {α : Type} (t : Tbl α) (k : Nat) : Tbl α := t.filter (fun p => p.1 != k)

/-- Give a key a value; a value equal to the default of its key is not listed. -/
def Tbl.set {α : Type} [DecidableEq α] (d : Nat → α) (t : Tbl α) (k : Nat) (v : α) : Tbl α :=
  if v = d k then Tbl.del t k else Tbl.ins k v (Tbl.del t k)

/-- Change the value of a key. -/
def Tbl.upd {α : Type} [DecidableEq α] (d : Nat → α) (t : Tbl α) (k : Nat) (f : α → α) : Tbl α :=
  Tbl.set d t k (f (Tbl.get d t k))

/-- Keys strictly rising from a bound. -/
def Tbl.rising {α : Type} : Nat → Tbl α → Bool
  | _, [] => true
  | b, p :: t => decide (b ≤ p.1) && Tbl.rising (p.1 + 1) t

/-- The canonical form: keys strictly rising, and no value equal to the default of its key. -/
def Tbl.wf {α : Type} [DecidableEq α] (d : Nat → α) (t : Tbl α) : Bool :=
  Tbl.rising 0 t && t.all (fun p => decide (p.2 ≠ d p.1))

/-- Table reads and writes with the type's own default value. -/
def Tbl.at {α : Type} [Inhabited α] (t : Tbl α) (k : Nat) : α := Tbl.get (fun _ => default) t k

/-- Write with the type's own default value. -/
def Tbl.put {α : Type} [DecidableEq α] [Inhabited α] (t : Tbl α) (k : Nat) (v : α) : Tbl α :=
  Tbl.set (fun _ => default) t k v

/-- Change with the type's own default value. -/
def Tbl.mod {α : Type} [DecidableEq α] [Inhabited α] (t : Tbl α) (k : Nat) (f : α → α) : Tbl α :=
  Tbl.put t k (f (Tbl.at t k))

/-! ### Words, fields and bytes -/

/-- A field of a word as a number: `wd` bits from bit `lo`. -/
def fget (w : Word) (lo wd : Nat) : Nat := (w >>> lo).toNat % 2 ^ wd

/-- A word with a field replaced, taken modulo the field's width. -/
def fset (w : Word) (lo wd : Nat) (v : Nat) : Word :=
  let m : Word := BitVec.ofNat 64 (2 ^ wd - 1) <<< lo
  (w &&& ~~~m) ||| ((BitVec.ofNat 64 v <<< lo) &&& m)

/-- Bit `i` of a word. -/
def bitAt (w : Word) (i : Nat) : Bool := w.getLsbD i

/-- A word from a number. -/
def wd (n : Nat) : Word := BitVec.ofNat 64 n

/-- One or zero. -/
def b2n (b : Bool) : Nat := if b then 1 else 0

/-- The little-endian bytes of a number, `n` of them. -/
def bytesOf : Nat → Nat → List Byte
  | 0, _ => []
  | n + 1, v => BitVec.ofNat 8 v :: bytesOf n (v / 256)

/-- The number that little-endian bytes spell. -/
def natOf : List Byte → Nat
  | [] => 0
  | b :: bs => b.toNat + 256 * natOf bs

/-- The 8 bytes of a word. -/
def wordBytes (w : Word) : List Byte := bytesOf 8 w.toNat

/-- Bytes `off` to `off + n - 1`, zeros where the list ends. -/
def slice (l : List Byte) (off n : Nat) : List Byte :=
  let t := (l.drop off).take n
  t ++ List.replicate (n - t.length) 0

/-- The 64-bit word at byte `off`. -/
def wordAt (l : List Byte) (off : Nat) : Word := wd (natOf (slice l off 8))

/-- The words of a byte list, zero-filled at its end: `n` of them. -/
def wordsOf : Nat → List Byte → List Word
  | 0, _ => []
  | n + 1, l => wd (natOf (l.take 8)) :: wordsOf n (l.drop 8)

/-- A list with bytes written from an offset on, its length kept. -/
def patch (l : List Byte) (off : Nat) (bs : List Byte) : List Byte :=
  l.take off ++ (bs.take (l.length - off)) ++ l.drop (off + bs.length)

/-- The least multiple of `m` at or above `n`. -/
def roundUp (n m : Nat) : Nat := (n + m - 1) / m * m

/-- Sign-extension of the low `n` bits of a number, as an integer. -/
def sext (n v : Nat) : Int :=
  let u := v % 2 ^ n
  if u < 2 ^ (n - 1) then Int.ofNat u else Int.ofNat u - Int.ofNat (2 ^ n)

/-- The first index from `i` on, `n` places, that meets a test. -/
def findFrom (p : Nat → Bool) : Nat → Nat → Option Nat
  | _, 0 => none
  | i, n + 1 => if p i then some i else findFrom p (i + 1) n

/-- The first index at or after `start` in cyclic order among `n` that meets a test. -/
def findCyclic (p : Nat → Bool) (start n : Nat) : Option Nat :=
  ((List.range n).map (fun k => (start + k) % n)).find? p

/-! ### Outputs and free values -/

/-- Append to what the block has sent. -/
def emit (s : State) (o : Out) : State := { s with out := s.out ++ [o] }

/-- Append several outputs. -/
def emits (s : State) (os : List Out) : State := { s with out := s.out ++ os }

/-- A rack service link with the answer of a request that had to wait filled in (R412). -/
def Rsl.fill (r : Rsl) (t q : Byte) (d : List Byte) : Rsl :=
  { r with answers := r.answers.map (fun a =>
      if decide (a.1 = q) && decide (a.2.1 = t) && a.2.2.isEmpty then (q, t, d) else a) }

/-- Keep an answer that goes out on a rack service link, where its place is kept (R412). -/
def keepAnswer (s : State) (o : Out) : State :=
  match o with
  | .rslFrame .a t q d => { s with qd := { s.qd with rslA := s.qd.rslA.fill t q d } }
  | .rslFrame .b t q d => { s with qd := { s.qd with rslB := s.qd.rslB.fill t q d } }
  | _ => s

/-- Send an answer that had to wait. -/
def answer (s : State) (o : Out) : State := keepAnswer (emit s o) o

/-- Send several answers. -/
def answers (s : State) (os : List Out) : State := os.foldl answer s

/-- Draw the next free value of a width (log entry 6). -/
def draw (w : Nat) (s : State) : BitVec w × State :=
  (Config.freeBits w s.free, { s with free := s.free + 1 })

/-! ### Updates of parts of the state -/

/-- Change the QD1. -/
def State.mapQd (s : State) (f : Qd → Qd) : State := { s with qd := f s.qd }

/-- Change the Svapo block. -/
def State.mapSv (s : State) (f : Sv → Sv) : State := { s with sv := f s.sv }

/-- The responder that a side's commands name. -/
def bankOf : Side → Bank
  | .qd => .own
  | .sv => .sv

/-- A responder. -/
def State.node (s : State) : Bank → Node
  | .own => s.qd.node
  | .mir => s.qd.mnode
  | .sv => s.sv.node

/-- Change a responder. -/
def State.mapNode (s : State) (b : Bank) (f : Node → Node) : State :=
  match b with
  | .own => s.mapQd (fun q => { q with node := f q.node })
  | .mir => s.mapQd (fun q => { q with mnode := f q.mnode })
  | .sv => s.mapSv (fun v => { v with node := f v.node })

/-- The sources of one side. -/
def State.srcs (s : State) : Side → Srcs
  | .qd => s.qd.srcs
  | .sv => s.sv.srcs

/-- Change the sources of one side. -/
def State.mapSrcs (s : State) (d : Side) (f : Srcs → Srcs) : State :=
  match d with
  | .qd => s.mapQd (fun q => { q with srcs := f q.srcs })
  | .sv => s.mapSv (fun v => { v with srcs := f v.srcs })

/-- The link of a port. -/
def State.link (s : State) : PortSel → Link
  | .qd n => Tbl.at s.qd.links n.val
  | .sv p => Tbl.at s.sv.links p.val

/-- Change the link of a port. -/
def State.mapLink (s : State) (p : PortSel) (f : Link → Link) : State :=
  match p with
  | .qd n => s.mapQd (fun q => { q with links := Tbl.mod q.links n.val f })
  | .sv n => s.mapSv (fun v => { v with links := Tbl.mod v.links n.val f })

/-- Change the switch core. -/
def State.mapSw (s : State) (f : Sw → Sw) : State := s.mapQd (fun q => { q with sw := f q.sw })

/-- Change the directory. -/
def State.mapDir (s : State) (f : Dir → Dir) : State := s.mapQd (fun q => { q with dir := f q.dir })

/-- Change the ring front end. -/
def State.mapRings (s : State) (f : Rings → Rings) : State :=
  s.mapQd (fun q => { q with rings := f q.rings })

/-! ### The Granary -/

/-- Bytes of the Granary by variant: 512 GiB, or 256 GiB on the QD1-5 (R2). -/
def granarySize (v : Variant) : Nat :=
  match v with
  | .qd15 => 2 ^ 38
  | _ => 2 ^ 39

/-- A byte of the Granary; one that nothing has written reads as zero (log entry 5). -/
def Hbm.byte (h : Hbm) (a : Nat) : Byte := Tbl.at h.mem a

/-- `n` bytes of the Granary from an address. -/
def Hbm.read (h : Hbm) (a n : Nat) : List Byte := (List.range n).map (fun i => h.byte (a + i))

/-- Whether every 64-bit word that `n` bytes touch can be read (R482). -/
def Hbm.good (h : Hbm) (a n : Nat) : Bool :=
  h.bad.all (fun w => decide (w + 8 ≤ a) || decide (a + n ≤ w))

/-- Write bytes from an address on. -/
def Hbm.write (h : Hbm) (a : Nat) : List Byte → Hbm
  | [] => h
  | b :: bs => Hbm.write { h with mem := Tbl.put h.mem a b } (a + 1) bs

/-- A word that is written whole can be read again. -/
def Hbm.heal (h : Hbm) (a n : Nat) : Hbm :=
  { h with bad := h.bad.filter (fun w => !(decide (a ≤ w) && decide (w + 8 ≤ a + n))) }

/-- The canonical form of the Granary's memory. -/
def Hbm.wf (h : Hbm) : Bool := Tbl.wf (fun _ => (0 : Byte)) h.mem

/-- The memory that a QD1 responder serves: the Granary, or the mirror copy of the partner's. -/
def State.hbm (s : State) : Bank → Hbm
  | .mir => s.qd.mhbm
  | _ => s.qd.hbm

/-- Change the memory that a QD1 responder serves. -/
def State.mapHbm (s : State) (b : Bank) (f : Hbm → Hbm) : State :=
  match b with
  | .mir => s.mapQd (fun q => { q with mhbm := f q.mhbm })
  | _ => s.mapQd (fun q => { q with hbm := f q.hbm })

/-- Write bytes of the memory that a QD1 responder serves; words written whole can be read again. -/
def State.poke (s : State) (b : Bank) (a : Nat) (bs : List Byte) : State :=
  s.mapHbm b (fun h => (h.write a bs).heal a bs.length)

end Sys2Proof.Machine
end

