-- ==== Sys2Proof/Machine/Clocks.lean ====
section
/-! DEFINITION. The tick of the always-on clock (R425). -/

namespace Sys2Proof.Machine

/-- One tick of the always-on clock: the timebase advances by 6.2745 ns, counted with a 32-bit fraction, less
what it gives back of a count that runs ahead (R425). -/
def aonTick (s : State) : State :=
  s.mapQd (fun q =>
    let g := min q.aon.ahead (min q.aon.rate (6 * 2 ^ 32 + 1178968523))
    let f := q.aon.frac.toNat + (6 * 2 ^ 32 + 1178968523 - g)
    { q with aon := { q.aon with ns := q.aon.ns + BitVec.ofNat 60 (f / 2 ^ 32), frac := BitVec.ofNat 32 f
                                 ahead := q.aon.ahead - g } })

end Sys2Proof.Machine
end

