-- ==== Sys2Proof/Machine/Operands.lean ====
section
/-! DEFINITION. Every operand form: fields of packets, tiles, fabric addresses and the three CRCs
that cover them (R13, R15, R51, R54, R58, R59, R79). -/

namespace Sys2Proof

open Sys2Proof.Machine

/-! ### Header fields (R54) -/

def Packet.dst (p : Packet) : BitVec 14 := BitVec.ofNat 14 (fget p.w0 0 14)
def Packet.ctx (p : Packet) : BitVec 16 := BitVec.ofNat 16 (fget p.w0 14 16)
def Packet.opc (p : Packet) : Nat := fget p.w0 30 8
def Packet.kslot (p : Packet) : BitVec 6 := BitVec.ofNat 6 (fget p.w0 38 6)
def Packet.src (p : Packet) : BitVec 14 := BitVec.ofNat 14 (fget p.w0 44 14)
def Packet.cls (p : Packet) : BitVec 2 := BitVec.ofNat 2 (fget p.w0 58 2)
def Packet.ce (p : Packet) : Bool := bitAt p.w0 60
def Packet.rty (p : Packet) : Bool := bitAt p.w0 61
def Packet.geo (p : Packet) : Bool := bitAt p.w0 62
def Packet.rsp (p : Packet) : Bool := bitAt p.w0 63
def Packet.ncrit (p : Packet) : Nat := fget p.w1 0 44
def Packet.gen (p : Packet) : Byte := BitVec.ofNat 8 (fget p.w1 44 8)
def Packet.que (p : Packet) : BitVec 10 := BitVec.ofNat 10 (fget p.w1 52 10)
def Packet.ord (p : Packet) : Nat := fget p.w1 62 2
def Packet.woff (p : Packet) : BitVec 50 := BitVec.ofNat 50 (fget p.w2 0 50)
def Packet.off (p : Packet) : Nat := fget p.w2 0 44
def Packet.win (p : Packet) : Nat := fget p.w2 44 6
def Packet.tag (p : Packet) : BitVec 9 := BitVec.ofNat 9 (fget p.w2 50 9)
def Packet.ece (p : Packet) : Bool := bitAt p.w2 59
def Packet.e2e (p : Packet) : Nat := fget p.w3 0 32
def Packet.len (p : Packet) : Nat := fget p.w3 32 9
def Packet.tseq (p : Packet) : Byte := BitVec.ofNat 8 (fget p.w3 41 8)
def Packet.aux (p : Packet) : Nat := fget p.w3 49 8
def Packet.status (p : Packet) : BitVec 7 := BitVec.ofNat 7 (fget p.w3 57 7)

/-- The replay key of a request (R81). -/
def Packet.key (p : Packet) : ReplayKey := ⟨p.src, p.que, p.tag, p.tseq⟩

/-- The 64-bit fabric address that a request names (R15). -/
def Packet.fabric (p : Packet) : Word := wd (p.dst.toNat * 2 ^ 50 + p.woff.toNat)

/-! ### Nodes and fabric addresses (R13, R15) -/

def nodeRack (n : BitVec 14) : Nat := n.toNat / 256
def nodeSlot (n : BitVec 14) : Nat := n.toNat % 256
def mkNode (rack slot : Nat) : BitVec 14 := BitVec.ofNat 14 (rack % 64 * 256 + slot % 256)
def slotIsEp (s : Nat) : Bool := decide (s < 144)
def slotIsQd (s : Nat) : Bool := decide (160 ≤ s) && decide (s < 178)
/-- A reserved slot (R13). -/
def slotReserved (s : Nat) : Bool := !(slotIsEp s) && !(slotIsQd s)

def faNode (a : Word) : BitVec 14 := BitVec.ofNat 14 (fget a 50 14)
def faWin (a : Word) : Nat := fget a 44 6
def faOff (a : Word) : Nat := fget a 0 44
def faWoff (a : Word) : BitVec 50 := BitVec.ofNat 50 (fget a 0 50)
def mkFa (node win off : Nat) : Word := wd (node * 2 ^ 50 + win * 2 ^ 44 + off)

/-! ### Geometry (R58) -/

def Geom.rowLen (g : Geom) : Nat := fget g.g0 0 17
def Geom.rows (g : Geom) : Nat := fget g.g0 17 17
def Geom.stride (g : Geom) : Nat := fget g.g1 0 44
def Geom.baseWin (g : Geom) : Nat := fget g.g2 44 6
def Geom.base (g : Geom) : Nat := fget g.g2 0 44
def Geom.total (g : Geom) : Nat := fget g.g3 0 17
def Geom.part (g : Geom) : Nat := fget g.g3 17 4
def Geom.nparts (g : Geom) : Nat := fget g.g3 21 4 + 1

/-- The limits of R58 on a tile's geometry. -/
def Geom.ok (g : Geom) : Bool :=
  decide (1 ≤ g.rowLen) && decide (g.rowLen ≤ 65536) && decide (1 ≤ g.rows) &&
  decide (g.rows ≤ 65536) && decide (g.total = g.rowLen * g.rows) && decide (g.total ≤ 65536) &&
  (decide (g.rows = 1) || decide (g.rowLen ≤ g.stride)) && decide (g.part < g.nparts) &&
  decide (g.nparts = (g.total + 4095) / 4096)

/-- Offset of byte `b` of a tile (R58). -/
def Geom.byteOff (g : Geom) (b : Nat) : Nat :=
  g.base + b / g.rowLen * g.stride + b % g.rowLen

/-- First offset beyond the whole extent of a tile. -/
def Geom.extent (g : Geom) : Nat := g.base + (g.rows - 1) * g.stride + g.rowLen

/-- Bytes of part `j` of a tile: 4,096, and the rest in the last (R67). -/
def Geom.partLen (g : Geom) : Nat := min 4096 (g.total - 4096 * g.part)

/-- Runs of consecutive offsets of bytes `b` to `b + n - 1` of a tile: offset, first byte of the
tile and length, in row-major order. `fuel` bounds the rows. -/
def Geom.runs (g : Geom) : Nat → Nat → Nat → List (Nat × Nat × Nat)
  | 0, _, _ => []
  | fuel + 1, b, n =>
    if n = 0 then [] else
      let c := min n (g.rowLen - b % g.rowLen)
      (g.byteOff b, b, c) :: Geom.runs g fuel (b + c) (n - c)

/-- The runs of a part. -/
def Geom.partRuns (g : Geom) : List (Nat × Nat × Nat) :=
  g.runs (g.partLen + 1) (4096 * g.part) g.partLen

/-- The runs of the whole tile. -/
def Geom.allRuns (g : Geom) : List (Nat × Nat × Nat) := g.runs (g.total + 1) 0 g.total

/-! ### CRCs -/

/-- One bit step of a reflected CRC. -/
def crcBit {w : Nat} (poly : BitVec w) (c : BitVec w) : BitVec w :=
  if c.getLsbD 0 then (c >>> 1) ^^^ poly else c >>> 1

/-- Eight bit steps. -/
def crc8 {w : Nat} (poly : BitVec w) (c : BitVec w) : BitVec w :=
  crcBit poly (crcBit poly (crcBit poly (crcBit poly
    (crcBit poly (crcBit poly (crcBit poly (crcBit poly c)))))))

/-- A reflected CRC of bytes from a start value, without the final exclusive-or. -/
def crcRun {w : Nat} (poly : BitVec w) (c : BitVec w) (bs : List Byte) : BitVec w :=
  bs.foldl (fun c b => crc8 poly (c ^^^ b.setWidth w)) c

/-- CRC-32C: polynomial 0x1EDC_6F41 reflected (R79). -/
def crc32c (bs : List Byte) : BitVec 32 :=
  ~~~ (crcRun (0x82F63B78 : BitVec 32) (~~~ 0) bs)

/-- The CRC-64 of the flit's CHECK: polynomial 0x42F0_E1EB_A9EA_3693 reflected (R51). -/
def crc64 (bs : List Byte) : Word :=
  ~~~ (crcRun (0xC96C5795D7870F42 : Word) (~~~ 0) bs)

/-- The 16 bytes of a mask slot (R59). -/
def maskBytes (m : Word × Word) : List Byte := wordBytes m.1 ++ wordBytes m.2

/-- The E2E that a packet should carry: zero when it has neither mask nor payload (R54, R79). -/
def Packet.e2eOf (p : Packet) : Nat :=
  match p.mask, p.data with
  | none, [] => 0
  | none, d => (crc32c d).toNat
  | some m, d => (crc32c (maskBytes m ++ d)).toNat

/-! ### Building packets -/

/-- The header fields of a packet that is built by the block. -/
structure Hdr where
  dst : BitVec 14
  ctx : BitVec 16
  opc : Nat
  kslot : BitVec 6 := 0
  src : BitVec 14
  cls : BitVec 2
  rty : Bool := false
  geo : Bool := false
  rsp : Bool := false
  gen : Byte := 0
  que : Nat
  ord : Nat := 0
  woff : Nat := 0
  tag : Nat := 0
  ece : Bool := false
  len : Nat := 0
  tseq : Byte := 0
  aux : Nat := 0
  status : BitVec 7 := 0
  deriving DecidableEq, Repr

/-- W0 of a header. -/
def Hdr.w0 (h : Hdr) : Word :=
  wd (h.dst.toNat + h.ctx.toNat * 2 ^ 14 + h.opc % 256 * 2 ^ 30 + h.kslot.toNat * 2 ^ 38 +
    h.src.toNat * 2 ^ 44 + h.cls.toNat * 2 ^ 58 + b2n h.rty * 2 ^ 61 + b2n h.geo * 2 ^ 62 +
    b2n h.rsp * 2 ^ 63)

/-- W1 of a header, with NCRIT (R55). -/
def Hdr.w1 (h : Hdr) : Word :=
  wd ((2 ^ 44 - 1 - fget h.w0 0 44) + h.gen.toNat * 2 ^ 44 + h.que % 1024 * 2 ^ 52 +
    h.ord % 4 * 2 ^ 62)

/-- W2 of a header. -/
def Hdr.w2 (h : Hdr) : Word :=
  wd (h.woff % 2 ^ 50 + h.tag % 512 * 2 ^ 50 + b2n h.ece * 2 ^ 59)

/-- W3 of a header with its E2E. -/
def Hdr.w3 (h : Hdr) (e2e : Nat) : Word :=
  wd (e2e % 2 ^ 32 + h.len % 512 * 2 ^ 32 + h.tseq.toNat * 2 ^ 41 + h.aux % 256 * 2 ^ 49 +
    h.status.toNat * 2 ^ 57)

/-- The packet of a header with geometry, mask and payload. -/
def Hdr.packet (h : Hdr) (geom : Option Geom := none) (mask : Option (Word × Word) := none)
    (data : List Byte := []) : Packet :=
  let p : Packet := { w0 := h.w0, w1 := h.w1, w2 := h.w2, w3 := 0, geom := geom, mask := mask,
                      data := data }
  { p with w3 := h.w3 p.e2eOf }

/-- The header fields of a packet. -/
def Packet.hdr (p : Packet) : Hdr :=
  { dst := p.dst, ctx := p.ctx, opc := p.opc, kslot := p.kslot, src := p.src, cls := p.cls,
    rty := p.rty, geo := p.geo, rsp := p.rsp, gen := p.gen, que := p.que.toNat, ord := p.ord,
    woff := p.woff.toNat, tag := p.tag.toNat, ece := p.ece, len := p.len, tseq := p.tseq,
    aux := p.aux, status := p.status }

/-- The same packet sent again: RTY = 1 (R76). -/
def Packet.resent (p : Packet) : Packet := { p with w0 := p.w0 ||| (1#64 <<< 61) }

/-- The header of the response to a request: DST and SRC exchanged, RSP set, ECE a copy of CE
(R57). -/
def Packet.answerHdr (p : Packet) (status : BitVec 7) : Hdr :=
  { p.hdr with
    dst := p.src, src := p.dst, rsp := true, rty := false, geo := false, ord := 0, ece := p.ce,
    len := 0, aux := 0, status := status }

/-- The response to a request with a status and data. -/
def Packet.answer (p : Packet) (status : BitVec 7) (data : List Byte := []) : Packet :=
  Hdr.packet { p.answerHdr status with len := data.length } none none data

/-- The response that carries another WOFF (R57, R47). -/
def Packet.answerAt (p : Packet) (status : BitVec 7) (off : Nat) : Packet :=
  Hdr.packet { p.answerHdr status with woff := p.win * 2 ^ 44 + off % 2 ^ 44 } none none []

/-! ### Opcodes (R60) -/

namespace Opc
abbrev LD := 0x01
abbrev ST := 0x10
abbrev STA := 0x11
abbrev STM := 0x12
abbrev STMA := 0x13
abbrev ADD := 0x20
abbrev FADD := 0x21
abbrev MIN := 0x22
abbrev MAX := 0x23
abbrev SWAP := 0x24
abbrev CAS := 0x25
abbrev AND := 0x26
abbrev OR := 0x27
abbrev XOR := 0x28
abbrev FPADD := 0x29
abbrev RED := 0x30
abbrev REDA := 0x31
abbrev MSG := 0x40
abbrev TRD := 0x50
abbrev TWR := 0x51
abbrev FENCE := 0x60
abbrev RDSH := 0x70
abbrev RDOWN := 0x71
abbrev RDNA := 0x72
abbrev UPGR := 0x73
abbrev WBD := 0x74
abbrev EVICT := 0x75
abbrev SNPSH := 0x78
abbrev SNPINV := 0x79
abbrev SNPNA := 0x7A
abbrev SNPCEN := 0x7B
abbrev CDATA := 0x7C
abbrev CACK := 0x7D
abbrev CNACK := 0x7E
abbrev BELL := 0x80
end Opc

/-- Atomics ADD to XOR (R61). -/
def opcIsIntAtomic (o : Nat) : Bool := decide (0x20 ≤ o) && decide (o ≤ 0x28)
/-- Atomics and FPADD. -/
def opcIsAtomic (o : Nat) : Bool := decide (0x20 ≤ o) && decide (o ≤ 0x29)
/-- Requests that the replay cache covers: atomics, FPADD and REDA (R81). -/
def opcIsReplayed (o : Nat) : Bool := opcIsAtomic o || o == Opc.REDA
/-- Coherence opcodes. -/
def opcIsCoh (o : Nat) : Bool := decide (0x70 ≤ o) && decide (o ≤ 0x7E) && o != 0x76 && o != 0x77
/-- Posted opcodes (R66). -/
def opcIsPosted (o : Nat) : Bool := o == Opc.ST || o == Opc.STM || o == Opc.RED || o == Opc.BELL
/-- Codes of R60. -/
def opcListed (o : Nat) : Bool :=
  o == Opc.LD || (decide (0x10 ≤ o) && decide (o ≤ 0x13)) || opcIsAtomic o || o == Opc.RED ||
  o == Opc.REDA || o == Opc.MSG || o == Opc.TRD || o == Opc.TWR || o == Opc.FENCE || opcIsCoh o ||
  o == Opc.BELL

/-- Operand size of an atomic in bytes; 0 for the reserved code (R61). -/
def atomSize (aux : Nat) : Nat :=
  match aux % 4 with
  | 0 => 4
  | 1 => 8
  | 2 => 16
  | _ => 0

/-- Whether an atomic returns its old value (R61). -/
def atomReturns (opc aux : Nat) : Bool :=
  opc == Opc.FADD || opc == Opc.SWAP || opc == Opc.CAS || opc == Opc.FPADD ||
  ((opc == Opc.MIN || opc == Opc.MAX || opc == Opc.AND || opc == Opc.OR || opc == Opc.XOR) &&
    bitAt (wd aux) 3)

/-- Element size of a RED format in bytes; 0 for a reserved format (R62). -/
def redSize (fmt : Nat) : Nat :=
  match fmt with
  | 0 => 4
  | 1 => 8
  | 2 => 4
  | 3 => 2
  | 4 => 2
  | 5 => 8
  | _ => 0

/-- ORD permitted on an opcode (R124). -/
def ordOk (opc aux ord : Nat) : Bool :=
  match ord with
  | 0 => true
  | 1 => opc == Opc.LD || (opcIsAtomic opc && opc != Opc.ADD && atomReturns opc aux)
  | 2 => (decide (0x10 ≤ opc) && decide (opc ≤ 0x13)) || opcIsAtomic opc || opc == Opc.RED ||
         opc == Opc.REDA || opc == Opc.MSG || opc == Opc.BELL
  | _ => false

/-- Classes permitted on an opcode (R64). A FENCE goes in every class that its queue has used, class 3
among them (R73). -/
def clsOk (opc : Nat) (cls : BitVec 2) : Bool :=
  if opc == Opc.BELL then decide (cls = 0)
  else if opcIsCoh opc then decide (cls = 1)
  else if cls = 3 then
    opc == Opc.LD || opc == Opc.ST || opc == Opc.STA || opc == Opc.TRD || opc == Opc.TWR ||
    opc == Opc.FENCE
  else true

/-- LEN, alignment and AUX of a request (R61, R148). -/
def sizeOk (opc aux len off win : Nat) : Bool :=
  if opc == Opc.LD then decide (1 ≤ len) && decide (len ≤ 256) && decide (off % 256 + len ≤ 256) &&
    aux == 0
  else if opc == Opc.ST || opc == Opc.STA then
    decide (1 ≤ len) && decide (len ≤ 256) && decide (off % 256 + len ≤ 256) && aux == 0
  else if opc == Opc.STM || opc == Opc.STMA then len == 64 && off % 64 == 0 && aux == 0
  else if opcIsIntAtomic opc then
    let n := atomSize aux
    let bits := if opc == Opc.MIN || opc == Opc.MAX then 16
      else if opc == Opc.AND || opc == Opc.OR || opc == Opc.XOR then 16 else 4
    decide (n ≠ 0) && decide (aux < bits) &&
      ((opc == Opc.MIN || opc == Opc.MAX) || aux / 4 % 2 == 0) &&
      len == (if opc == Opc.CAS then 2 * n else n) && off % n == 0
  else if opc == Opc.FPADD then
    let n := atomSize aux
    decide (n ≠ 0) && aux / 4 % 4 == 0 && decide (aux < 32) &&
      (decide (aux / 16 = 0) || n == 4) && len == n && off % n == 0
  else if opc == Opc.RED || opc == Opc.REDA then
    let n := redSize (aux % 16)
    decide (n ≠ 0) && decide (aux < 16) && decide (4 ≤ len) && decide (len ≤ 256) &&
      len % n == 0 && off % n == 0 && decide (off % 256 + len ≤ 256)
  else if opc == Opc.MSG then decide (1 ≤ len) && decide (len ≤ 256)
  else if opc == Opc.TRD then len == 0
  else if opc == Opc.TWR then decide (1 ≤ len) && decide (len ≤ 256)
  else if opc == Opc.FENCE then len == 0 && aux == 0
  else if opc == Opc.BELL then len == 8 && win == 48 && off % 8 == 0 && aux == 0
  else if opc == Opc.WBD then len == 128 && decide (aux < 2)
  else if opc == Opc.RDNA then len == 0 && decide (aux < 2)
  else if opc == Opc.SNPSH then len == 0 && decide (aux < 4)
  else if opc == Opc.SNPCEN then len == 18 && decide (aux < 32)
  else if opcIsCoh opc then
    if opc == Opc.CDATA || opc == Opc.CACK || opc == Opc.CNACK then true else len == 0 && aux == 0
  else false

/-- Check 3 of R69 on one packet, the tile rules of R67 apart. -/
def Packet.formOk (p : Packet) : Bool :=
  opcListed p.opc && sizeOk p.opc p.aux p.len p.off p.win &&
  ordOk p.opc p.aux p.ord && clsOk p.opc p.cls &&
  (if p.opc == Opc.TRD then p.geo else if p.opc == Opc.TWR then true else !p.geo)

/-- Header complement and mask-slot complement (check 1 of R69). -/
def Packet.complOk (p : Packet) : Bool :=
  decide (p.ncrit = 2 ^ 44 - 1 - fget p.w0 0 44) &&
  (match p.mask with
   | some m => decide (m.2 = ~~~ m.1)
   | none => true)

/-- E2E (check 2 of R69). -/
def Packet.e2eOk (p : Packet) : Bool := decide (p.e2e = p.e2eOf)

/-- Slots of a packet: header, geometry, mask and payload (R53). -/
def Packet.slots (p : Packet) : Nat :=
  2 + (if p.geom.isSome then 2 else 0) + (if p.mask.isSome then 1 else 0) + (p.data.length + 15) / 16

/-- The bytes of a packet on a link, zero-filled to whole slots (R53). -/
def Packet.bytes (p : Packet) : List Byte :=
  wordBytes p.w0 ++ wordBytes p.w1 ++ wordBytes p.w2 ++ wordBytes p.w3 ++
  (match p.geom with
   | some g => wordBytes g.g0 ++ wordBytes g.g1 ++ wordBytes g.g2 ++ wordBytes g.g3
   | none => []) ++
  (match p.mask with
   | some m => maskBytes m
   | none => []) ++
  slice p.data 0 (roundUp p.data.length 16)

/-- Slots that a packet takes, told from its header: geometry by GEO, a mask slot for the masked
stores, payload by LEN unless the packet is a load or tile-read request (R53, R54). -/
def hdrSlots (w0 w3 : Word) : Nat :=
  let opc := fget w0 30 8
  let rsp := bitAt w0 63
  let pay := if !rsp && (opc == Opc.LD || opc == Opc.TRD) then 0 else fget w3 32 9
  2 + (if bitAt w0 62 then 2 else 0) +
    (if !rsp && (opc == Opc.STM || opc == Opc.STMA) then 1 else 0) + (pay + 15) / 16

/-- The packet that whole slots spell. -/
def packetOf (bs : List Byte) : Packet :=
  let w0 := wordAt bs 0
  let w3 := wordAt bs 24
  let opc := fget w0 30 8
  let rsp := bitAt w0 63
  let g := bitAt w0 62
  let o1 := if g then 64 else 32
  let m := !rsp && (opc == Opc.STM || opc == Opc.STMA)
  let o2 := if m then o1 + 16 else o1
  let pay := if !rsp && (opc == Opc.LD || opc == Opc.TRD) then 0 else fget w3 32 9
  { w0 := w0, w1 := wordAt bs 8, w2 := wordAt bs 16, w3 := w3,
    geom := if g then some ⟨wordAt bs 32, wordAt bs 40, wordAt bs 48, wordAt bs 56⟩ else none,
    mask := if m then some (wordAt bs o1, wordAt bs (o1 + 8)) else none,
    data := slice bs o2 pay }

/-- Bytes that a request touches: SIZE for an atomic, LEN otherwise (R61). -/
def Packet.touch (p : Packet) : Nat := if p.opc == Opc.CAS then p.len / 2 else p.len

/-- Offset runs of a request: its own bytes, or the whole extent of its tile (R46). -/
def Packet.runs (p : Packet) : List (Nat × Nat) :=
  match p.geom with
  | some g => g.allRuns.map (fun r => (r.1, r.2.2))
  | none => [(p.off, p.touch)]

/-- First offset beyond a request's extent. -/
def Packet.endOff (p : Packet) : Nat :=
  match p.geom with
  | some g => g.extent
  | none => p.off + p.touch

end Sys2Proof

namespace Sys2Proof.Machine

/-! ### Window-table entries (R26) -/

/-- An entry with the complement of its words. -/
def mkEntry (w0 w1 w2 w3 : Word) : Entry := ⟨w0, w1, w2, w3, ~~~ w0, ~~~ w1, ~~~ w2, ~~~ w3⟩

/-- Whether an entry matches its complement. -/
def Entry.complOk (e : Entry) : Bool :=
  decide (e.n0 = ~~~ e.w0) && decide (e.n1 = ~~~ e.w1) && decide (e.n2 = ~~~ e.w2) &&
  decide (e.n3 = ~~~ e.w3)

/-- An entry with W2 replaced, complement and all. -/
def Entry.withW2 (e : Entry) (w2 : Word) : Entry := mkEntry e.w0 e.w1 w2 e.w3

def Entry.baseAddr (e : Entry) : Nat := fget e.w0 16 48 * 65536
def Entry.limit (e : Entry) : Nat := fget e.w1 0 45
def Entry.ctx (e : Entry) : BitVec 16 := BitVec.ofNat 16 (fget e.w2 0 16)
def Entry.gen (e : Entry) : Byte := BitVec.ofNat 8 (fget e.w2 16 8)
def Entry.kslot (e : Entry) : BitVec 6 := BitVec.ofNat 6 (fget e.w2 24 6)
def Entry.state (e : Entry) : Nat := fget e.w2 30 2
def Entry.rd (e : Entry) : Bool := bitAt e.w2 32
def Entry.wr (e : Entry) : Bool := bitAt e.w2 33
def Entry.atm (e : Entry) : Bool := bitAt e.w2 34
def Entry.coh (e : Entry) : Bool := bitAt e.w2 35
def Entry.moesi (e : Entry) : Bool := bitAt e.w2 36
def Entry.prot (e : Entry) : Bool := bitAt e.w2 37
def Entry.mir (e : Entry) : Bool := bitAt e.w2 38
def Entry.pgsz (e : Entry) : Nat := fget e.w2 39 2
def Entry.pin (e : Entry) : Bool := bitAt e.w2 41

/-- Page size of an entry in bytes (R26). -/
def Entry.pageSize (e : Entry) : Nat :=
  match e.pgsz with
  | 0 => 2 ^ 16
  | 1 => 2 ^ 21
  | 2 => 2 ^ 30
  | _ => 2 ^ 16

/-- The entry with another STATE. -/
def Entry.withState (e : Entry) (n : Nat) : Entry := e.withW2 (fset e.w2 30 2 n)

/-- The entry drained by a withdrawal: STATE 2 and GEN incremented modulo 256 (step 2 of R41). -/
def Entry.drained (e : Entry) : Entry :=
  e.withW2 (fset (fset e.w2 30 2 2) 16 8 (e.gen.toNat + 1))

end Sys2Proof.Machine
end

