-- ==== Sys2Proof/Machine/Fec.lean ====
section
/-! DEFINITION. The flit and its FEC block: GF(2^8), the RS(136,128) codewords, the interleave of R391
and the fields of the link prefix (R50, R51, R391). -/

namespace Sys2Proof.Machine

/-! ### GF(2^8) with x^8 + x^4 + x^3 + x^2 + 1 -/

/-- Twice an element. -/
def gdbl (a : Nat) : Nat := if 128 ≤ a then (2 * a) ^^^ 0x11D else 2 * a

/-- Product of two elements. -/
def gmul (a b : Nat) : Nat :=
  (List.range 8).foldr (fun i acc => if b.testBit i then gdbl acc ^^^ a else gdbl acc) 0

/-- Square of an element. -/
def gsq (a : Nat) : Nat := gmul a a

/-- Inverse of an element: its 254th power. -/
def ginv (a : Nat) : Nat :=
  let p1 := gsq a
  let p2 := gsq p1
  let p3 := gsq p2
  let p4 := gsq p3
  let p5 := gsq p4
  let p6 := gsq p5
  gmul (gmul (gmul p1 p2) (gmul p3 p4)) (gmul (gmul p5 p6) (gsq p6))

/-- A power of α = 2. -/
def gpow : Nat → Nat
  | 0 => 1
  | n + 1 => gdbl (gpow n)

/-- The value of a polynomial, lowest coefficient first. -/
def geval (p : List Nat) (x : Nat) : Nat := p.foldr (fun c acc => gmul acc x ^^^ c) 0

/-! ### RS(136,128) (R391) -/

/-- The generator polynomial without its leading coefficient, lowest coefficient first: the product
of x - α^i for i from 0 to 7. -/
def rsGen : List Nat :=
  ((List.range 8).foldl (fun g i =>
    List.zipWith (fun a b => gmul a (gpow i) ^^^ b) (g ++ [0]) (0 :: g)) [1]).take 8

/-- One step of the division by the generator: the remainder, highest coefficient first, takes the
next data symbol. -/
def rsStep (r : List Nat) (d : Nat) : List Nat :=
  let f := d ^^^ r.headD 0
  List.zipWith (fun a g => a ^^^ gmul f g) (r.drop 1 ++ [0]) rsGen.reverse

/-- The 136 symbols of a codeword: the data, symbol 0 at the highest degree, and the parity (log
entry 20). -/
def rsEncode (d : List Nat) : List Nat := d ++ d.foldl rsStep (List.replicate 8 0)

/-- The eight syndromes of a word. -/
def rsSyndromes (w : List Nat) : List Nat :=
  (List.range 8).map (fun j => w.foldl (fun acc c => gmul acc (gpow j) ^^^ c) 0)

/-- The error locator by the Berlekamp-Massey procedure: locator, earlier locator, its length, the
shift and the earlier discrepancy. -/
def bmStep (syn : List Nat) (s : List Nat × List Nat × Nat × Nat × Nat) (n : Nat) :
    List Nat × List Nat × Nat × Nat × Nat :=
  let c := s.1
  let b := s.2.1
  let l := s.2.2.1
  let m := s.2.2.2.1
  let db := s.2.2.2.2
  let delta := (List.range (l + 1)).foldl (fun acc i => acc ^^^ gmul (c.getD i 0) (syn.getD (n - i) 0)) 0
  if delta = 0 then (c, b, l, m + 1, db)
  else
    let f := gmul delta (ginv db)
    let shifted := List.replicate m 0 ++ b.map (gmul f)
    let k := max c.length shifted.length
    let c' := (List.range k).map (fun i => c.getD i 0 ^^^ shifted.getD i 0)
    if 2 * l ≤ n then (c', c, n + 1 - l, 1, delta) else (c', b, l, m + 1, db)

/-- The corrections of a word: symbols and values to exclusive-or; none when more than four symbols
are wrong. -/
def rsCorrections (w : List Nat) : Option (List (Nat × Nat)) :=
  let syn := rsSyndromes w
  if syn.all (· == 0) then some []
  else
    let r := (List.range 8).foldl (bmStep syn) ([1], [1], 0, 1, 1)
    let loc := r.1
    let l := r.2.2.1
    let roots := (List.range 136).filter (fun i => geval loc (ginv (gpow (135 - i))) == 0)
    if 4 < l ∨ roots.length ≠ l then none
    else
      let om := (List.range 8).map (fun k =>
        (List.range (k + 1)).foldl (fun acc i => acc ^^^ gmul (loc.getD i 0) (syn.getD (k - i) 0)) 0)
      let der := (List.range loc.length).map (fun i => if i % 2 = 0 then loc.getD (i + 1) 0 else 0)
      some (roots.map (fun i =>
        let x := gpow (135 - i)
        (i, gmul x (gmul (geval om (ginv x)) (ginv (geval der (ginv x)))))))

/-! ### The block (R391) -/

/-- Whether block byte `k` belongs to codeword A. -/
def inA (k : Nat) : Bool := (k + k / 4) % 2 == 0

/-- The 272-byte block of a flit. -/
def blockOf (flit : List Byte) : List Byte :=
  let sym := fun (o : Nat) => (List.range 128).map (fun j => (flit.getD (2 * j + o) 0).toNat)
  let a := rsEncode (sym 0)
  let b := rsEncode (sym 1)
  (List.range 272).map (fun k => BitVec.ofNat 8 ((if inA k then a else b).getD (k / 2) 0))

/-- The symbols of a codeword of a block. -/
def blockSyms (block : List Byte) (a : Bool) : List Nat :=
  (List.range 136).map (fun j =>
    let k := if inA (2 * j) == a then 2 * j else 2 * j + 1
    (block.getD k 0).toNat)

/-- The block byte that carries a symbol of a codeword. -/
def blockPos (a : Bool) (j : Nat) : Nat := if inA (2 * j) == a then 2 * j else 2 * j + 1

/-- Decode a block: the flit and the block bytes corrected; none when it is uncorrectable. -/
def blockDecode (block : List Byte) : Option (List Byte × List Nat) :=
  let wa := blockSyms block true
  let wb := blockSyms block false
  match rsCorrections wa, rsCorrections wb with
  | some ca, some cb =>
    let fix := fun (w : List Nat) (c : List (Nat × Nat)) (j : Nat) =>
      w.getD j 0 ^^^ (match c.find? (fun x => x.1 == j) with
        | some x => x.2
        | none => 0)
    some ((List.range 256).map (fun i =>
        BitVec.ofNat 8 (if i % 2 = 0 then fix wa ca (i / 2) else fix wb cb (i / 2))),
      ca.map (fun x => blockPos true x.1) ++ cb.map (fun x => blockPos false x.1))
  | _, _ => none

/-! ### The flit (R50, R51) -/

/-- The link prefix of a flit, and its 15 slots. -/
def flitPrefix (f : List Byte) : Word := wordAt f 0
def flitSlots (f : List Byte) : List Byte := slice f 8 240
def pfSeq (w : Word) : BitVec 12 := BitVec.ofNat 12 (fget w 0 12)
def pfAck (w : Word) : BitVec 12 := BitVec.ofNat 12 (fget w 12 12)
def pfNak (w : Word) : Bool := bitAt w 24
def pfCtrl (w : Word) : Bool := bitAt w 25
def pfHdr (w : Word) (i : Nat) : Bool := bitAt w (48 + i)
/-- The two credit returns: class and number. -/
def pfCred (w : Word) : List (Nat × Nat) := [(fget w 26 2, fget w 28 6), (fget w 34 2, fget w 36 6)]

/-- CHECK of R51. -/
def flitCheckOk (f : List Byte) : Bool := decide (f.length = 256) && decide (wordAt f 248 = crc64 (f.take 248))

/-- A flit from its prefix and slots. -/
def flitOf (p : Word) (slots : List Byte) : List Byte :=
  let b := wordBytes p ++ slice slots 0 240
  b ++ wordBytes (crc64 b)

/-- A link prefix: SEQ, ACK, NAK, CTRL and the credit and HDRMASK bits as they stand in the word. -/
def mkPrefix (seq ack : BitVec 12) (nak ctrl : Bool) (fields : Word) : Word :=
  wd (seq.toNat + ack.toNat * 2 ^ 12 + b2n nak * 2 ^ 24 + b2n ctrl * 2 ^ 25) |||
    (fields &&& 0x7FFF03FFFC000000)

end Sys2Proof.Machine
end

