-- ==== Sys2Proof/Machine/Num.lean ====
section
/-! DEFINITION. Number formats and exact arithmetic: floating-point values as exact dyadic numbers,
rounding (R214-R219), the long accumulator (R202-R211), MX blocks (R208, R220) and partials (R221,
R222). -/

namespace Sys2Proof.Machine

/-! ### Floating-point formats (R206, R207) -/

/-- A floating-point format: widths of its exponent and fraction, bias, whether it has Inf, and
whether it is E4M3, whose codes S.1111.111 are NaN. -/
structure FpFmt where
  ew : Nat
  fw : Nat
  bias : Int
  inf : Bool
  e4m3 : Bool := false
  deriving DecidableEq, Repr

namespace Fp
def f64 : FpFmt := ⟨11, 52, 1023, true, false⟩
def f32 : FpFmt := ⟨8, 23, 127, true, false⟩
def bf16 : FpFmt := ⟨8, 7, 127, true, false⟩
def f16 : FpFmt := ⟨5, 10, 15, true, false⟩
def e4m3 : FpFmt := ⟨4, 3, 7, false, true⟩
def e5m2 : FpFmt := ⟨5, 2, 15, true, false⟩
def e3m2 : FpFmt := ⟨3, 2, 3, false, false⟩
def e2m3 : FpFmt := ⟨2, 3, 1, false, false⟩
def e2m1 : FpFmt := ⟨2, 1, 1, false, false⟩
end Fp

/-- Precision with the hidden bit. -/
def FpFmt.p (f : FpFmt) : Nat := f.fw + 1
/-- Bits of a code. -/
def FpFmt.width (f : FpFmt) : Nat := 1 + f.ew + f.fw
/-- Exponent of the smallest normal number. -/
def FpFmt.emin (f : FpFmt) : Int := 1 - f.bias
/-- Code of the largest finite magnitude. -/
def FpFmt.maxCode (f : FpFmt) : Nat :=
  if f.e4m3 then 0x7E
  else if f.inf then (2 ^ f.ew - 1) * 2 ^ f.fw - 1
  else 2 ^ (f.ew + f.fw) - 1
/-- Exponent of the largest binade. -/
def FpFmt.emax (f : FpFmt) : Int := Int.ofNat (f.maxCode / 2 ^ f.fw) - f.bias
/-- Code of +Inf. -/
def FpFmt.infCode (f : FpFmt) : Nat := (2 ^ f.ew - 1) * 2 ^ f.fw
/-- The NaN written (R206). -/
def FpFmt.nanCode (f : FpFmt) : Nat :=
  if f.e4m3 then 0x7F else f.infCode + 2 ^ (f.fw - 1)
/-- The sign bit. -/
def FpFmt.signBit (f : FpFmt) (neg : Bool) : Nat := b2n neg * 2 ^ (f.ew + f.fw)

/-- A decoded value: NaN, an infinity, or a magnitude m · 2^e with a sign. -/
inductive Num where
  | nan
  | inf (neg : Bool)
  | fin (neg : Bool) (m : Nat) (e : Int)
  deriving DecidableEq, Repr

/-- Decode a code of a format (R207). -/
def FpFmt.dec (f : FpFmt) (c : Nat) : Num :=
  let s := c / 2 ^ (f.ew + f.fw) % 2 == 1
  let ef := c / 2 ^ f.fw % 2 ^ f.ew
  let fr := c % 2 ^ f.fw
  if f.e4m3 && c % 128 == 127 then .nan
  else if f.inf && ef == 2 ^ f.ew - 1 then (if fr = 0 then .inf s else .nan)
  else if ef = 0 then .fin s fr (f.emin - f.fw)
  else .fin s (2 ^ f.fw + fr) (Int.ofNat ef - f.bias - f.fw)

/-- Rounding modes (R215); SR carries its 32-bit number. -/
inductive RMode where
  | rne
  | rtz
  | rup
  | rdn
  | sr (r : Nat)
  deriving DecidableEq, Repr

/-- Round m · 2^e to a multiple of 2^q: the multiple (R215). A value on the grid is kept. -/
def roundAt (mode : RMode) (neg : Bool) (m : Nat) (e q : Int) : Nat :=
  if q ≤ e then m * 2 ^ (e - q).toNat
  else
    let k := (q - e).toNat
    let hi := m / 2 ^ k
    let lo := m % 2 ^ k
    let half := 2 ^ (k - 1)
    let up := match mode with
      | .rne => decide (half < lo) || (lo == half && hi % 2 == 1)
      | .rtz => false
      | .rup => decide (0 < lo) && !neg
      | .rdn => decide (0 < lo) && neg
      | .sr r => decide (2 ^ 32 ≤ lo * 2 ^ 32 / 2 ^ k + r)
    if up then hi + 1 else hi

/-- The code of a magnitude hi · 2^q on the grid of R215, its exponent field unbounded. -/
def FpFmt.magCode (f : FpFmt) (hi : Nat) (q : Int) : Nat :=
  if hi < 2 ^ f.fw then hi
  else if hi < 2 ^ f.p then
    (q + f.fw + f.bias).toNat * 2 ^ f.fw + (hi - 2 ^ f.fw)
  else (q + 1 + f.fw + f.bias).toNat * 2 ^ f.fw

/-- The code of a non-zero magnitude after rounding, before the overflow rule (R215). -/
def FpFmt.roundCode (f : FpFmt) (mode : RMode) (neg : Bool) (m : Nat) (e : Int) : Nat :=
  let top := Int.ofNat (Nat.log2 m) + e
  let q := max top f.emin - f.fw
  f.magCode (roundAt mode neg m e q) q

/-- The code of an overflow (R216). -/
def FpFmt.overflow (f : FpFmt) (mode : RMode) (sat neg : Bool) : Nat :=
  let away := match mode with
    | .rne => true
    | .rtz => false
    | .rup => !neg
    | .rdn => neg
    | .sr _ => true
  if !f.inf && (sat || !f.e4m3) then f.maxCode
  else if away then (if f.inf then f.infCode else f.nanCode)
  else f.maxCode

/-- Encode a value in a format (R214-R217). -/
def FpFmt.enc (f : FpFmt) (mode : RMode) (sat : Bool) : Num → Nat
  | .nan => f.nanCode
  | .inf neg =>
    if f.inf then f.signBit neg + f.infCode
    else if sat || !f.e4m3 then f.signBit neg + f.maxCode else f.nanCode
  | .fin neg m e =>
    if m = 0 then f.signBit neg
    else
      let c := f.roundCode mode neg m e
      if c ≤ f.maxCode then f.signBit neg + c
      else
        let o := f.overflow mode sat neg
        if o = f.nanCode then o else f.signBit neg + o

/-- Encode with saturation to the largest finite value (step 5 of R220). -/
def FpFmt.encSat (f : FpFmt) (mode : RMode) (neg : Bool) (m : Nat) (e : Int) : Nat :=
  if m = 0 then f.signBit neg
  else f.signBit neg + min (f.roundCode mode neg m e) f.maxCode

/-! ### Exact arithmetic -/

/-- A signed integer times 2^e as a value; zero takes the given sign. -/
def numOf (v : Int) (e : Int) (zneg : Bool) : Num :=
  if v = 0 then .fin zneg 0 e else .fin (decide (v < 0)) v.natAbs e

/-- The signed significand of a finite value at exponent `e`, which is not above its own. -/
def sig (neg : Bool) (m : Nat) (e e' : Int) : Int :=
  let v := Int.ofNat (m * 2 ^ (e - e').toNat)
  if neg then -v else v

/-- Exact sum; an exact cancellation is +0 and −0 is kept only by two of them. -/
def Num.add : Num → Num → Num
  | .nan, _ => .nan
  | _, .nan => .nan
  | .inf a, .inf b => if a = b then .inf a else .nan
  | .inf a, _ => .inf a
  | _, .inf b => .inf b
  | .fin a m e, .fin b n g =>
    let q := min e g
    numOf (sig a m e q + sig b n g q) q (a && b && m == 0 && n == 0)

/-- Negation. -/
def Num.neg : Num → Num
  | .nan => .nan
  | .inf a => .inf (!a)
  | .fin a m e => .fin (!a) m e

/-- Exact product. -/
def Num.mul : Num → Num → Num
  | .nan, _ => .nan
  | _, .nan => .nan
  | .inf a, .inf b => .inf (a != b)
  | .inf a, .fin b n _ => if n = 0 then .nan else .inf (a != b)
  | .fin a m _, .inf b => if m = 0 then .nan else .inf (a != b)
  | .fin a m e, .fin b n g => .fin (a != b) (m * n) (e + g)

/-- Whether the first finite or infinite value is below the second; false with a NaN. -/
def Num.lt : Num → Num → Bool
  | .nan, _ => false
  | _, .nan => false
  | .inf a, .inf b => a && !b
  | .inf a, _ => a
  | _, .inf b => !b
  | .fin a m e, .fin b n g =>
    let q := min e g
    decide (sig a m e q < sig b n g q)

/-- IEEE addition of two codes under round-to-nearest-even. -/
def FpFmt.addCodes (f : FpFmt) (a b : Nat) : Nat := f.enc .rne false ((f.dec a).add (f.dec b))

/-! ### The long accumulator (R202-R204) -/

/-- A long accumulator: its value and its tag. -/
structure Acc where
  v : BitVec 320 := 0
  nan : Bool := false
  pinf : Bool := false
  ninf : Bool := false
  nz : Bool := true
  deriving DecidableEq, Repr, Inhabited

/-- Merge two accumulators (R204). -/
def Acc.merge (a b : Acc) : Acc :=
  ⟨a.v + b.v, a.nan || b.nan, a.pinf || b.pinf, a.ninf || b.ninf, a.nz && b.nz⟩

/-- The accumulator of one addend on the grid of 2^−149 (R204, R207). -/
def Acc.ofNum : Num → Acc
  | .nan => { nan := true, nz := false }
  | .inf neg => { pinf := !neg, ninf := neg, nz := false }
  | .fin neg m e =>
    if m = 0 then { nz := neg }
    else { v := BitVec.ofInt 320 (sig neg m e (-149)), nz := false }

/-- Add an addend. -/
def Acc.addNum (a : Acc) (n : Num) : Acc := a.merge (Acc.ofNum n)

/-- An integer addend, placed at bit 149 (R210). -/
def Acc.ofInt (i : Int) : Acc := { v := BitVec.ofInt 320 (i * 2 ^ 149), nz := false }

/-- The tag as a number (R202). -/
def Acc.tag (a : Acc) : Nat := b2n a.nan + 2 * b2n a.pinf + 4 * b2n a.ninf + 8 * b2n a.nz

/-- An accumulator of a value and a tag. -/
def Acc.of (v : BitVec 320) (tag : Nat) : Acc :=
  ⟨v, tag % 2 == 1, tag / 2 % 2 == 1, tag / 4 % 2 == 1, tag / 8 % 2 == 1⟩

/-- The exact value of an accumulator, its tag considered first (R214). -/
def Acc.num (a : Acc) : Num :=
  if a.nan || (a.pinf && a.ninf) then .nan
  else if a.pinf then .inf false
  else if a.ninf then .inf true
  else numOf a.v.toInt (-149) a.nz

/-- A weighted product as an addend (R211). -/
def weighted (x w : Num) : Num :=
  match x.mul w with
  | .fin neg m e =>
    let r := roundAt .rne neg m e (-149)
    if 2 ^ (150 + 149) ≤ r then .inf neg else .fin neg r (-149)
  | n => n

/-! ### Formats of the Green (R205, R209, R210) -/

/-- AFMT codes that are floating-point. -/
def afmtFloat (f : Nat) : Bool := decide (f ≤ 9)
/-- AFMT codes that are integers. -/
def afmtInt (f : Nat) : Bool := decide (10 ≤ f) && decide (f ≤ 12)
/-- AFMT codes of MX formats. -/
def afmtMx (f : Nat) : Bool := decide (5 ≤ f) && decide (f ≤ 9)

/-- The floating-point format of an AFMT code, its element format for MX. -/
def afmtFp : Nat → FpFmt
  | 0 => Fp.f32
  | 1 => Fp.bf16
  | 2 => Fp.f16
  | 3 => Fp.e4m3
  | 4 => Fp.e5m2
  | 5 => Fp.e4m3
  | 6 => Fp.e5m2
  | 7 => Fp.e3m2
  | 8 => Fp.e2m3
  | _ => Fp.e2m1

/-- Bits of an element of an AFMT code in its element array; a GWIN stream has no element size. -/
def afmtBits : Nat → Nat
  | 0 => 32
  | 1 => 16
  | 2 => 16
  | 3 => 8
  | 4 => 8
  | 5 => 8
  | 6 => 8
  | 7 => 6
  | 8 => 6
  | 9 => 4
  | 10 => 8
  | 11 => 32
  | 12 => 64
  | 13 => 384
  | _ => 0

/-- Bits `lo` to `lo + n - 1` of a byte list read as one little-endian bit string. -/
def bitsAt (d : List Byte) (lo n : Nat) : Nat :=
  natOf (slice d (lo / 8) ((lo % 8 + n + 7) / 8)) / 2 ^ (lo % 8) % 2 ^ n

/-- The little-endian bytes of codes of `n` bits each. -/
def packBits (n : Nat) (cs : List Nat) : List Byte :=
  let v := cs.foldr (fun c acc => c % 2 ^ n + acc * 2 ^ n) 0
  bytesOf ((cs.length * n + 7) / 8) v

/-- An LACC48 element; none when its reserved bits are not zero (R221). -/
def laccDec (d : List Byte) : Option Acc :=
  let v := natOf (slice d 0 40)
  let t := natOf (slice d 40 8)
  if t < 16 then some (Acc.of (BitVec.ofNat 320 v) t) else none

/-- The bytes of an accumulator as LACC48. -/
def Acc.lacc (a : Acc) : List Byte := bytesOf 40 a.v.toNat ++ bytesOf 8 a.tag

/-- Element `i` of an input array as an addend, its scales beside it (R207-R210). -/
def afmtElem (f : Nat) (d scales : List Byte) (i : Nat) : Acc :=
  let c := bitsAt d (i * afmtBits f) (afmtBits f)
  if afmtMx f then
    let x := natOf (slice scales (i / 32) 1)
    if x = 0xFF then Acc.ofNum .nan
    else match (afmtFp f).dec c with
      | .fin s m e => Acc.ofNum (.fin s m (e + Int.ofNat x - 127))
      | n => Acc.ofNum n
  else if afmtFloat f then Acc.ofNum ((afmtFp f).dec c)
  else if afmtInt f then Acc.ofInt (sext (afmtBits f) c)
  else (laccDec (slice d (48 * i) 48)).getD {}

/-- The value of element `i` of a floating-point input array. -/
def afmtNum (f : Nat) (d scales : List Byte) (i : Nat) : Num :=
  let c := bitsAt d (i * afmtBits f) (afmtBits f)
  if afmtMx f then
    let x := natOf (slice scales (i / 32) 1)
    if x = 0xFF then .nan
    else match (afmtFp f).dec c with
      | .fin s m e => .fin s m (e + Int.ofNat x - 127)
      | n => n
  else (afmtFp f).dec c

/-! ### Encoding (R214-R220) -/

/-- The 32-bit number of an output element (R219). -/
def srNumber (seed : Word) (step : BitVec 32) (idx : Nat) : Nat :=
  let x : Word := seed ^^^ (step.setWidth 64 * 0x9E3779B97F4A7C15) ^^^ (wd idx * 0xD1B54A32D192ED03)
  let x : Word := (x ^^^ (x >>> 30)) * 0xBF58476D1CE4E5B9
  let x : Word := (x ^^^ (x >>> 27)) * 0x94D049BB133111EB
  let x : Word := x ^^^ (x >>> 31)
  x.toNat / 2 ^ 32

/-- The rounding mode of a code for output element `idx` (R215). -/
def rmodeOf (code : Nat) (seed : Word) (step : BitVec 32) (idx : Nat) : RMode :=
  match code with
  | 0 => .rne
  | 1 => .rtz
  | 2 => .rup
  | 3 => .rdn
  | _ => .sr (srNumber seed step idx)

/-- An integer output (R218). -/
def intOut (bits : Nat) (sat : Bool) (a : Acc) : Nat :=
  let v := a.v.toInt / 2 ^ 149
  let lo : Int := -(2 ^ (bits - 1))
  let hi : Int := 2 ^ (bits - 1) - 1
  let w := if sat then max lo (min hi v) else v
  (w % 2 ^ bits).toNat

/-- The scale exponent of an MX block (step 2 of R220). -/
def mxScale (f : FpFmt) (as : List Acc) : Int :=
  let a := as.foldl (fun m x => max m x.v.toInt.natAbs) 0
  if a = 0 then -127
  else max (-127) (min 127 (Int.ofNat (Nat.log2 a) - 149 - f.emax))

/-- One MX block: its scale byte and its element codes, the rounding mode given by index (R220). -/
def mxBlock (f : FpFmt) (mode : Nat → RMode) (as : List Acc) : Byte × List Nat :=
  if as.any (fun a => a.nan || a.pinf || a.ninf) then (0xFF, as.map (fun _ => 0))
  else
    let s := mxScale f as
    (BitVec.ofInt 8 (s + 127),
     as.mapIdx (fun i a =>
       match numOf a.v.toInt (-149) a.nz with
       | .fin neg m e => f.encSat (mode i) neg m (e - s)
       | _ => 0))

/-- A list cut into pieces of `n`; `fuel` bounds their number. -/
def chunksOf {α : Type} (n : Nat) : Nat → List α → List (List α)
  | 0, _ => []
  | fuel + 1, l => match l with
    | [] => []
    | _ => l.take n :: chunksOf n fuel (l.drop n)

/-- The ACTL fields (R212). -/
structure Actl where
  ifmt : Nat
  ofmt : Nat
  rmode : Nat
  sat : Bool
  wfmt : Bool
  rsv : Nat
  deriving DecidableEq, Repr

def actlOf (v : Nat) : Actl :=
  ⟨v % 16, v / 16 % 16, v / 256 % 8, v / 2048 % 2 == 1, v / 4096 % 2 == 1, v / 8192 % 8⟩

/-- The rules of R213 that do not depend on the operation's list of partials. -/
def Actl.ok (a : Actl) (seedSet weightedOp partialOk : Bool) : Bool :=
  a.rsv == 0 && a.ifmt != 15 && a.ofmt != 15 &&
  (!(afmtInt a.ifmt) || !(afmtFloat a.ofmt)) && (!(afmtFloat a.ifmt) || !(afmtInt a.ofmt)) &&
  (partialOk || decide (a.ifmt < 13)) &&
  (decide (13 ≤ a.ofmt) || decide (a.rmode ≤ 4)) &&
  (decide (13 ≤ a.ofmt) || a.rmode != 4 || seedSet) &&
  (!weightedOp || afmtFloat a.ifmt)

/-! ### Group-window streams (R222) -/

/-- Trailing zeros of a non-zero number, at most `n`. -/
def ctz : Nat → Nat → Nat
  | 0, _ => 0
  | n + 1, v => if v % 2 = 1 then 0 else 1 + ctz n (v / 2)

/-- BASE and FULL that the encoder chooses for a group. -/
def gwinBase (as : List Acc) : Nat × Bool :=
  let b := as.foldl (fun b a => if a.v = 0 then b else min b (ctz 320 a.v.toNat)) 320
  let b := if b = 320 then 0 else b
  let b := min b 224
  let full := as.any (fun a =>
    decide (a.v.toInt ≠ sext 96 (a.v.toNat / 2 ^ b) * 2 ^ b))
  if full then (0, true) else (b, false)

/-- One coded group of 16 accumulators. -/
def gwinGroup (as : List Acc) : List Byte :=
  let bf := gwinBase as
  let spec := as.any (fun a => a.tag != 0)
  bytesOf 2 (bf.1 + b2n bf.2 * 512 + b2n spec * 1024) ++
  (if spec then packBits 4 (as.map Acc.tag) else []) ++
  as.flatMap (fun a =>
    if bf.2 then bytesOf 40 a.v.toNat else bytesOf 12 (a.v.toNat / 2 ^ bf.1))

/-- A stream of accumulators, the last group filled with +0 sums. -/
def gwinEnc (as : List Acc) : List Byte :=
  (chunksOf 16 (as.length + 1) as).flatMap (fun g =>
    gwinGroup (g ++ List.replicate (16 - g.length) { nz := false }))

/-- Decode the group at the head of a stream: its 16 accumulators and the rest; none when it is
malformed. -/
def gwinGroupDec (d : List Byte) : Option (List Acc × List Byte) :=
  let h := natOf (slice d 0 2)
  let base := h % 512
  let full := h / 512 % 2 == 1
  let spec := h / 1024 % 2 == 1
  let o := if spec then 10 else 2
  let w := if full then 40 else 12
  if 2048 ≤ h ∨ (full ∧ base ≠ 0) ∨ (¬full ∧ 224 < base) ∨ d.length < o + 16 * w then none
  else
    let tags := if spec then natOf (slice d 2 8) else 0
    some ((List.range 16).map (fun i =>
      let v := natOf (slice d (o + i * w) w)
      let x : Int := if full then Int.ofNat v else sext 96 v * 2 ^ base
      Acc.of (BitVec.ofInt 320 x) (tags / 16 ^ i % 16)), d.drop (o + 16 * w))

/-- Decode a stream of `n` groups. -/
def gwinDec : Nat → List Byte → Option (List Acc)
  | 0, _ => some []
  | n + 1, d =>
    match gwinGroupDec d with
    | none => none
    | some (g, rest) =>
      match gwinDec n rest with
      | none => none
      | some r => some (g ++ r)

/-! ### Output arrays -/

/-- The element array and the scale array of a run of output elements that starts at index
`base` of the operation's output. -/
def encodeOut (a : Actl) (seed : Word) (step : BitVec 32) (base : Nat) (as : List Acc) :
    List Byte × List Byte :=
  let mode := fun i => rmodeOf a.rmode seed step (base + i)
  if a.ofmt = 14 then (gwinEnc as, [])
  else if a.ofmt = 13 then (as.flatMap Acc.lacc, [])
  else if afmtInt a.ofmt then (packBits (afmtBits a.ofmt) (as.map (intOut (afmtBits a.ofmt) a.sat)), [])
  else if afmtMx a.ofmt then
    let f := afmtFp a.ofmt
    let bs := (chunksOf 32 (as.length + 1) as).mapIdx (fun j g => mxBlock f (fun i => mode (32 * j + i)) g)
    (packBits (afmtBits a.ofmt) (bs.flatMap (·.2)), bs.map (·.1))
  else
    let f := afmtFp a.ofmt
    (packBits f.width (as.mapIdx (fun i x => f.enc (mode i) a.sat x.num)), [])

end Sys2Proof.Machine
end

