-- ==== Sys2Proof/Machine/Atomics.lean ====
section
/-! DEFINITION. What the atomics, FPADD and RED compute (R62). -/

namespace Sys2Proof.Machine

/-- The minimum or maximum of two operands of `n` bytes; a tie keeps the old value. -/
def minMax (isMax sgn : Bool) (n old new : Nat) : Nat :=
  let lt := if sgn then decide (sext (8 * n) new < sext (8 * n) old) else decide (new < old)
  let gt := if sgn then decide (sext (8 * n) old < sext (8 * n) new) else decide (old < new)
  if isMax then (if gt then new else old) else (if lt then new else old)

/-- FPADD on an operand of the size and BF2 of its AUX. -/
def fpAdd (aux old new : Nat) : Nat :=
  match aux % 4, aux / 16 % 2 with
  | 0, 1 => Fp.bf16.addCodes (old % 65536) (new % 65536) +
      65536 * Fp.bf16.addCodes (old / 65536 % 65536) (new / 65536 % 65536)
  | 0, _ => Fp.f32.addCodes old new
  | 1, _ => Fp.f64.addCodes old new
  | _, _ => Fp.f64.addCodes (old % 2 ^ 64) (new % 2 ^ 64) +
      2 ^ 64 * Fp.f64.addCodes (old / 2 ^ 64) (new / 2 ^ 64)

/-- The new value of the `n` bytes of an atomic, from the old value and the operand bytes. -/
def atomNew (opc aux : Nat) (old : Nat) (data : List Byte) : Nat :=
  let n := atomSize aux
  let x := natOf (data.take n)
  let sgn := aux / 4 % 2 == 1
  if opc == Opc.ADD || opc == Opc.FADD then (old + x) % 2 ^ (8 * n)
  else if opc == Opc.MIN then minMax false sgn n old x
  else if opc == Opc.MAX then minMax true sgn n old x
  else if opc == Opc.SWAP then x
  else if opc == Opc.CAS then (if old = x then natOf ((data.drop n).take n) else old)
  else if opc == Opc.AND then old &&& x
  else if opc == Opc.OR then old ||| x
  else if opc == Opc.XOR then old ^^^ x
  else fpAdd aux old x

/-- One element of RED. -/
def redElem (fmt old new : Nat) : Nat :=
  match fmt with
  | 0 => (old + new) % 2 ^ 32
  | 1 => (old + new) % 2 ^ 64
  | 2 => Fp.f32.addCodes old new
  | 3 => Fp.bf16.addCodes old new
  | 4 => Fp.f16.addCodes old new
  | _ => Fp.f64.addCodes old new

/-- RED on memory bytes: element by element, `k` elements of `n` bytes. -/
def redBytes (fmt n : Nat) : Nat → List Byte → List Byte → List Byte
  | 0, _, _ => []
  | k + 1, old, new =>
    bytesOf n (redElem fmt (natOf (old.take n)) (natOf (new.take n))) ++
      redBytes fmt n k (old.drop n) (new.drop n)

/-- The new bytes of an atomic, FPADD, RED or REDA from the old bytes that it touches. -/
def opBytes (opc aux : Nat) (old data : List Byte) : List Byte :=
  if opc == Opc.RED || opc == Opc.REDA then
    let n := redSize (aux % 16)
    redBytes (aux % 16) n (data.length / n) old data
  else bytesOf (atomSize aux) (atomNew opc aux (natOf old) data)

end Sys2Proof.Machine
end

