-- ==== Sys2Proof/Machine/RegMap.lean ====
section
/-! DEFINITION. The register map of window 63 (R523-R532) and of the Svapo register channel
(R369): where each register lies, which of its bits a write may change, what it resets to and
through which resets its bits are kept. `R` holds the offsets and `F` the fields. -/

namespace Sys2Proof.Machine

/-- One register or one array of like registers: offset of the first, distance and number, reset
value, the bits that a write changes (`rw` always, `rwl` in set-up state, `w1s` by writing one),
the write-only bits, and for each set of kept bits the resets and states that keep it: the sum of
FR 1, WR 2, GR 4, PR 8, LQ 16, LD 32, GP 64, HS 128, DS 256 (R9). No register of the map has an
access code W1C. -/
structure RegRow where
  base : Nat
  stride : Nat
  count : Nat
  reset : Word
  rw : Word
  rwl : Word
  w1s : Word
  wo : Word
  keep : List (Nat × Word)
  deriving DecidableEq, Repr

/-- A field of a register: offset of the register, lowest bit and width. -/
structure Fld where
  off : Nat
  lo : Nat
  wd : Nat
  deriving DecidableEq, Repr

namespace R

/-- DEV_ID (R525). -/
abbrev DEV_ID : Nat := 0x0
/-- UNIT_PRESENT (R525). -/
abbrev UNIT_PRESENT : Nat := 0x8
/-- DEV_NODE (R525). -/
abbrev DEV_NODE : Nat := 0x10
/-- JOB_RACKS (R525). -/
abbrev JOB_RACKS : Nat := 0x18
/-- ACC_CTL (R525). -/
abbrev ACC_CTL : Nat := 0x20
/-- QD_TXN_TMO (R74). -/
abbrev QD_TXN_TMO : Nat := 0x28
/-- CTU_CTL (R525). -/
abbrev CTU_CTL : Nat := 0x30
/-- CTU_STS (R525). -/
abbrev CTU_STS : Nat := 0x38
/-- WIN_WITHDRAW (R525). -/
abbrev WIN_WITHDRAW : Nat := 0x40
/-- WIN_WD_TMO (R525). -/
abbrev WIN_WD_TMO : Nat := 0x48
/-- WIN_WD_STS (R525). -/
abbrev WIN_WD_STS : Nat := 0x50
/-- WT_DATA (R525). -/
abbrev WT_DATA (i : Nat) : Nat := 0x100 + 8 * i
/-- WT_CMD (R525). -/
abbrev WT_CMD : Nat := 0x120
/-- WT_STS (R525). -/
abbrev WT_STS : Nat := 0x128
/-- SQ_DATA (R525). -/
abbrev SQ_DATA (i : Nat) : Nat := 0x200 + 8 * i
/-- SQ_CMD (R525). -/
abbrev SQ_CMD : Nat := 0x220
/-- SQ_UNBIND (R525). -/
abbrev SQ_UNBIND : Nat := 0x228
/-- SQ_STS (R525). -/
abbrev SQ_STS : Nat := 0x230
/-- BOOT_STS (R522). -/
abbrev BOOT_STS : Nat := 0x1000000
/-- BOOT_TIME (R522). -/
abbrev BOOT_TIME : Nat := 0x1000008
/-- CLK_CTL (R422). -/
abbrev CLK_CTL : Nat := 0x2000000
/-- CLK_STS (R422). -/
abbrev CLK_STS : Nat := 0x2000008
/-- CLK_ENABLE (R422). -/
abbrev CLK_ENABLE : Nat := 0x2000010
/-- DVFS_CTL (R422). -/
abbrev DVFS_CTL : Nat := 0x2000018
/-- DVFS_STS (R422). -/
abbrev DVFS_STS : Nat := 0x2000020
/-- FMEAS_CTL (R424). -/
abbrev FMEAS_CTL : Nat := 0x2000040
/-- FMEAS_STS (R424). -/
abbrev FMEAS_STS : Nat := 0x2000048
/-- CLKMON_CTL (R424). -/
abbrev CLKMON_CTL : Nat := 0x2000050
abbrev LOOP_CTL : Nat := 0x2000060
/-- PIN_STS (R550). -/
abbrev PIN_STS : Nat := 0x2000080
/-- RSL_ALIGN (R413). -/
abbrev RSL_ALIGN : Nat := 0x3000000
/-- RSL_DLY (R530). -/
abbrev RSL_DLY : Nat := 0x3000008
/-- RSL_STS (R530). -/
abbrev RSL_STS : Nat := 0x3000010
/-- LN_PORT_CTL (R405). -/
abbrev LN_PORT_CTL (i : Nat) : Nat := 0x4000000 + 16 * i
/-- LN_PORT_STS (R405). -/
abbrev LN_PORT_STS (i : Nat) : Nat := 0x4000008 + 16 * i
/-- LN_ERR00 (R405). -/
abbrev LN_ERR00 (i : Nat) : Nat := 0x4001000 + 32 * i
/-- LN_ERR08 (R405). -/
abbrev LN_ERR08 (i : Nat) : Nat := 0x4001008 + 32 * i
/-- LN_ERR10 (R405). -/
abbrev LN_ERR10 (i : Nat) : Nat := 0x4001010 + 32 * i
/-- LN_ERR18 (R405). -/
abbrev LN_ERR18 (i : Nat) : Nat := 0x4001018 + 32 * i
/-- LN_PAT_W0 (R406). -/
abbrev LN_PAT_W0 (i : Nat) : Nat := 0x4008000 + 16 * i
/-- LN_PAT_W1 (R406). -/
abbrev LN_PAT_W1 (i : Nat) : Nat := 0x4008008 + 16 * i
/-- SW_CLS_CTL (R180). -/
abbrev SW_CLS_CTL (i : Nat) : Nat := 0x5000100 + 8 * i
/-- SW_CPROF_W0 (R183). -/
abbrev SW_CPROF_W0 (i : Nat) : Nat := 0x5000200 + 32 * i
/-- SW_CPROF_W1 (R183). -/
abbrev SW_CPROF_W1 (i : Nat) : Nat := 0x5000208 + 32 * i
/-- SW_CPROF_W2 (R183). -/
abbrev SW_CPROF_W2 (i : Nat) : Nat := 0x5000210 + 32 * i
/-- SW_CPROF_W3 (R183). -/
abbrev SW_CPROF_W3 (i : Nat) : Nat := 0x5000218 + 32 * i
/-- RT_CMD (R195). -/
abbrev RT_CMD : Nat := 0x5000400
/-- RT_STS (R195). -/
abbrev RT_STS : Nat := 0x5000408
/-- RT_DRAIN_TMO (R195). -/
abbrev RT_DRAIN_TMO : Nat := 0x5000410
/-- RT_LOAD (R529). -/
abbrev RT_LOAD : Nat := 0x5000418
/-- SW_PORT_CTL (R184). -/
abbrev SW_PORT_CTL (i : Nat) : Nat := 0x5001000 + 8 * i
/-- RT_LOCAL (R193). -/
abbrev RT_LOCAL (i : Nat) : Nat := 0x5002000 + 8 * i
/-- RT_REMOTE (R193). -/
abbrev RT_REMOTE (i : Nat) : Nat := 0x5002800 + 8 * i
/-- TEL_00 (R197). -/
abbrev TEL_00 (i : Nat) : Nat := 0x5010000 + 128 * i
/-- TEL_08 (R197). -/
abbrev TEL_08 (i : Nat) : Nat := 0x5010008 + 128 * i
/-- TEL_10 (R197). -/
abbrev TEL_10 (i : Nat) : Nat := 0x5010010 + 128 * i
/-- TEL_18 (R197). -/
abbrev TEL_18 (i : Nat) : Nat := 0x5010018 + 128 * i
/-- TEL_20 (R197). -/
abbrev TEL_20 (i : Nat) : Nat := 0x5010020 + 128 * i
/-- TEL_28 (R197). -/
abbrev TEL_28 (i : Nat) : Nat := 0x5010028 + 128 * i
/-- TEL_30 (R197). -/
abbrev TEL_30 (i : Nat) : Nat := 0x5010030 + 128 * i
/-- TEL_38 (R197). -/
abbrev TEL_38 (i : Nat) : Nat := 0x5010038 + 128 * i
/-- TEL_40 (R197). -/
abbrev TEL_40 (i : Nat) : Nat := 0x5010040 + 128 * i
/-- TEL_48 (R197). -/
abbrev TEL_48 (i : Nat) : Nat := 0x5010048 + 128 * i
/-- TEL_50 (R197). -/
abbrev TEL_50 (i : Nat) : Nat := 0x5010050 + 128 * i
/-- TEL_58 (R197). -/
abbrev TEL_58 (i : Nat) : Nat := 0x5010058 + 128 * i
/-- TEL_60 (R197). -/
abbrev TEL_60 (i : Nat) : Nat := 0x5010060 + 128 * i
/-- TEL_68 (R197). -/
abbrev TEL_68 (i : Nat) : Nat := 0x5010068 + 128 * i
/-- TEL_70 (R197). -/
abbrev TEL_70 (i : Nat) : Nat := 0x5010070 + 128 * i
/-- TEL_78 (R197). -/
abbrev TEL_78 (i : Nat) : Nat := 0x5010078 + 128 * i
/-- HAM_CFG_W0 (R136). -/
abbrev HAM_CFG_W0 (i : Nat) : Nat := 0x6000000 + 32 * i
/-- HAM_CFG_W1 (R136). -/
abbrev HAM_CFG_W1 (i : Nat) : Nat := 0x6000008 + 32 * i
/-- HAM_CFG_W2 (R136). -/
abbrev HAM_CFG_W2 (i : Nat) : Nat := 0x6000010 + 32 * i
/-- HAM_CFG_W3 (R136). -/
abbrev HAM_CFG_W3 (i : Nat) : Nat := 0x6000018 + 32 * i
/-- DIR_CTL (R163). -/
abbrev DIR_CTL : Nat := 0x6000200
/-- COH_CMD (R163). -/
abbrev COH_CMD : Nat := 0x6000208
/-- COH_CMD_STS (R163). -/
abbrev COH_CMD_STS : Nat := 0x6000210
abbrev LWB_WR : Nat := 0x6000218
abbrev LWB_RD : Nat := 0x6000220
/-- COH_WIN (R138). -/
abbrev COH_WIN (i : Nat) : Nat := 0x6001000 + 8 * i
/-- GR_CTL (R259). -/
abbrev GR_CTL : Nat := 0x7000000
/-- GR_STS (R259). -/
abbrev GR_STS : Nat := 0x7000008
/-- GR_SENT_CNT (R259). -/
abbrev GR_SENT_CNT : Nat := 0x7000010
/-- GR_SENT_LAST (R259). -/
abbrev GR_SENT_LAST : Nat := 0x7000018
/-- GRID_CTL (R286). -/
abbrev GRID_CTL : Nat := 0x8000000
/-- GRID_STS (R286). -/
abbrev GRID_STS : Nat := 0x8000008
/-- ALLOT_STS_W0 (R285). -/
abbrev ALLOT_STS_W0 (i : Nat) : Nat := 0x8000100 + 16 * i
/-- ALLOT_STS_W1 (R285). -/
abbrev ALLOT_STS_W1 (i : Nat) : Nat := 0x8000108 + 16 * i
/-- MT_00 (R293). -/
abbrev MT_00 (i : Nat) : Nat := 0x8010000 + 64 * i
/-- MT_08 (R293). -/
abbrev MT_08 (i : Nat) : Nat := 0x8010008 + 64 * i
/-- MT_10 (R293). -/
abbrev MT_10 (i : Nat) : Nat := 0x8010010 + 64 * i
/-- MT_18 (R293). -/
abbrev MT_18 (i : Nat) : Nat := 0x8010018 + 64 * i
/-- MT_20 (R293). -/
abbrev MT_20 (i : Nat) : Nat := 0x8010020 + 64 * i
/-- MT_28 (R293). -/
abbrev MT_28 (i : Nat) : Nat := 0x8010028 + 64 * i
/-- MT_30 (R293). -/
abbrev MT_30 (i : Nat) : Nat := 0x8010030 + 64 * i
/-- MT_38 (R293). -/
abbrev MT_38 (i : Nat) : Nat := 0x8010038 + 64 * i
/-- SVC_PLACE (R331). -/
abbrev SVC_PLACE (i : Nat) : Nat := 0x9000000 + 8 * i
abbrev SVC_STS : Nat := 0x9000040
/-- CUST_STS (R464). -/
abbrev CUST_STS : Nat := 0xA000000
/-- CUST_CTL (R464). -/
abbrev CUST_CTL : Nat := 0xA000008
/-- KEY_RETIRE (R464). -/
abbrev KEY_RETIRE : Nat := 0xA000010
/-- CUST_SCRUB (R464). -/
abbrev CUST_SCRUB : Nat := 0xA000018
/-- KS_STS (R464). -/
abbrev KS_STS (i : Nat) : Nat := 0xA000100 + 8 * i
/-- FT_CTL (R490). -/
abbrev FT_CTL : Nat := 0xB000000
/-- FT_LIVE (R490). -/
abbrev FT_LIVE : Nat := 0xB000008
/-- FT_LIVE_NOTE (R490). -/
abbrev FT_LIVE_NOTE : Nat := 0xB000010
/-- FT_STS (R490). -/
abbrev FT_STS : Nat := 0xB000018
/-- FT_CMD (R490). -/
abbrev FT_CMD : Nat := 0xB000020
/-- FT_CMD_STS (R490). -/
abbrev FT_CMD_STS : Nat := 0xB000028
abbrev FT_ADMIT (i : Nat) : Nat := 0xB000030 + 8 * i
/-- FT_ADMIT_SEEN (R490). -/
abbrev FT_ADMIT_SEEN : Nat := 0xB000040
abbrev FT_EPLOST (i : Nat) : Nat := 0xB000048 + 8 * i
/-- FT_SPARE_FR (R490). -/
abbrev FT_SPARE_FR : Nat := 0xB000060
/-- TR_CTL (R491). -/
abbrev TR_CTL : Nat := 0xC000000
/-- TR_REGION (R491). -/
abbrev TR_REGION : Nat := 0xC000008
/-- TR_CMD (R491). -/
abbrev TR_CMD : Nat := 0xC000010
/-- TR_STS (R491). -/
abbrev TR_STS : Nat := 0xC000018
/-- TR_TSTAMP (R491). -/
abbrev TR_TSTAMP : Nat := 0xC000020
/-- TR_PRE_WR (R491). -/
abbrev TR_PRE_WR : Nat := 0xC000028
/-- TW_ENTRY_W0 (R491). -/
abbrev TW_ENTRY_W0 (i : Nat) : Nat := 0xC000100 + 16 * i
/-- TW_ENTRY_W1 (R491). -/
abbrev TW_ENTRY_W1 (i : Nat) : Nat := 0xC000108 + 16 * i
abbrev TW_LAST (i : Nat) : Nat := 0xC000200 + 8 * i
/-- TW_SKIP (R491). -/
abbrev TW_SKIP : Nat := 0xC000600
/-- LG_CTL (R491). -/
abbrev LG_CTL : Nat := 0xC000700
abbrev LG_CTX : Nat := 0xC000708
/-- LG_STS (R491). -/
abbrev LG_STS : Nat := 0xC000710
/-- LG_CMD (R491). -/
abbrev LG_CMD : Nat := 0xC000718
/-- LG_CMD2 (R491). -/
abbrev LG_CMD2 : Nat := 0xC000720
/-- LG_RSTS (R491). -/
abbrev LG_RSTS : Nat := 0xC000728
/-- LG_RFIRST (R491). -/
abbrev LG_RFIRST : Nat := 0xC000730
/-- RING_CTL (R491). -/
abbrev RING_CTL (i : Nat) : Nat := 0xC001000 + 8 * i
/-- HBM_CTL (R531). -/
abbrev HBM_CTL : Nat := 0xD000000
/-- HBM_STS (R531). -/
abbrev HBM_STS (i : Nat) : Nat := 0xD000100 + 8 * i

end R

namespace F

abbrev DEV_ID_PART : Fld := ⟨R.DEV_ID, 0, 16⟩
abbrev DEV_ID_REV : Fld := ⟨R.DEV_ID, 16, 8⟩
abbrev DEV_ID_VARIANT : Fld := ⟨R.DEV_ID, 24, 4⟩
abbrev DEV_NODE_NODE : Fld := ⟨R.DEV_NODE, 0, 14⟩
abbrev DEV_NODE_PLANE : Fld := ⟨R.DEV_NODE, 14, 5⟩
abbrev DEV_NODE_PARTNER : Fld := ⟨R.DEV_NODE, 19, 5⟩
abbrev ACC_CTL_OPCTX : Fld := ⟨R.ACC_CTL, 0, 16⟩
abbrev ACC_CTL_FAB_EN : Fld := ⟨R.ACC_CTL, 16, 1⟩
abbrev QD_TXN_TMO_RSP_TMO : Fld := ⟨R.QD_TXN_TMO, 0, 16⟩
abbrev QD_TXN_TMO_RTY_MAX : Fld := ⟨R.QD_TXN_TMO, 16, 3⟩
abbrev QD_TXN_TMO_E2E_MAX : Fld := ⟨R.QD_TXN_TMO, 19, 3⟩
abbrev QD_TXN_TMO_HOLD : Fld := ⟨R.QD_TXN_TMO, 32, 16⟩
abbrev CTU_CTL_LOOKAHEAD : Fld := ⟨R.CTU_CTL, 0, 5⟩
abbrev CTU_STS_PINNED : Fld := ⟨R.CTU_STS, 0, 15⟩
abbrev CTU_STS_STREAMS : Fld := ⟨R.CTU_STS, 15, 11⟩
abbrev CTU_STS_MISSES : Fld := ⟨R.CTU_STS, 32, 32⟩
abbrev WIN_WITHDRAW_WIN : Fld := ⟨R.WIN_WITHDRAW, 0, 6⟩
abbrev WIN_WD_TMO_TMO : Fld := ⟨R.WIN_WD_TMO, 0, 14⟩
abbrev WIN_WD_STS_DRAIN : Fld := ⟨R.WIN_WD_STS, 0, 48⟩
abbrev WT_CMD_INDEX : Fld := ⟨R.WT_CMD, 0, 6⟩
abbrev WT_STS_STATUS : Fld := ⟨R.WT_STS, 0, 7⟩
abbrev WT_STS_INDEX : Fld := ⟨R.WT_STS, 7, 6⟩
abbrev SQ_CMD_QUEUE : Fld := ⟨R.SQ_CMD, 0, 12⟩
abbrev SQ_UNBIND_QUEUE : Fld := ⟨R.SQ_UNBIND, 0, 12⟩
abbrev SQ_STS_STATUS : Fld := ⟨R.SQ_STS, 0, 7⟩
abbrev SQ_STS_QUEUE : Fld := ⟨R.SQ_STS, 7, 12⟩
abbrev SQ_STS_DRAINING : Fld := ⟨R.SQ_STS, 19, 13⟩
abbrev BOOT_STS_STEP : Fld := ⟨R.BOOT_STS, 0, 4⟩
abbrev BOOT_STS_FAIL : Fld := ⟨R.BOOT_STS, 4, 1⟩
abbrev BOOT_STS_STATUS : Fld := ⟨R.BOOT_STS, 5, 7⟩
abbrev BOOT_STS_SRC : Fld := ⟨R.BOOT_STS, 12, 1⟩
abbrev BOOT_STS_CAUSE : Fld := ⟨R.BOOT_STS, 13, 2⟩
abbrev BOOT_STS_SETUP : Fld := ⟨R.BOOT_STS, 15, 1⟩
abbrev BOOT_STS_BOOTS : Fld := ⟨R.BOOT_STS, 32, 32⟩
abbrev CLK_CTL_REFSEL : Fld := ⟨R.CLK_CTL, 0, 2⟩
abbrev CLK_CTL_MODE : Fld := ⟨R.CLK_CTL, 2, 1⟩
abbrev CLK_STS_LOCK : Fld := ⟨R.CLK_STS, 0, 1⟩
abbrev CLK_STS_REF : Fld := ⟨R.CLK_STS, 1, 1⟩
abbrev CLK_STS_HOLD : Fld := ⟨R.CLK_STS, 2, 1⟩
abbrev CLK_STS_PRES_A : Fld := ⟨R.CLK_STS, 3, 1⟩
abbrev CLK_STS_PRES_B : Fld := ⟨R.CLK_STS, 4, 1⟩
abbrev CLK_STS_HOLD_MS : Fld := ⟨R.CLK_STS, 32, 32⟩
abbrev CLK_ENABLE_GRID : Fld := ⟨R.CLK_ENABLE, 0, 1⟩
abbrev CLK_ENABLE_GREEN : Fld := ⟨R.CLK_ENABLE, 1, 1⟩
abbrev CLK_ENABLE_FERRY : Fld := ⟨R.CLK_ENABLE, 2, 1⟩
abbrev CLK_ENABLE_TWATCH : Fld := ⟨R.CLK_ENABLE, 3, 1⟩
abbrev DVFS_CTL_PMIN : Fld := ⟨R.DVFS_CTL, 0, 3⟩
abbrev DVFS_CTL_PMAX : Fld := ⟨R.DVFS_CTL, 3, 3⟩
abbrev DVFS_CTL_FORCE : Fld := ⟨R.DVFS_CTL, 6, 1⟩
abbrev DVFS_CTL_FPT : Fld := ⟨R.DVFS_CTL, 7, 3⟩
abbrev DVFS_CTL_FDIV : Fld := ⟨R.DVFS_CTL, 10, 4⟩
abbrev DVFS_CTL_PWR_LIM : Fld := ⟨R.DVFS_CTL, 14, 12⟩
abbrev DVFS_CTL_TSET : Fld := ⟨R.DVFS_CTL, 26, 8⟩
abbrev DVFS_STS_POINT : Fld := ⟨R.DVFS_STS, 0, 3⟩
abbrev DVFS_STS_DIV : Fld := ⟨R.DVFS_STS, 3, 4⟩
abbrev DVFS_STS_TRIM_G : Fld := ⟨R.DVFS_STS, 7, 8⟩
abbrev DVFS_STS_TRIM_C : Fld := ⟨R.DVFS_STS, 15, 8⟩
abbrev DVFS_STS_TJMAX : Fld := ⟨R.DVFS_STS, 23, 8⟩
abbrev DVFS_STS_PWR : Fld := ⟨R.DVFS_STS, 31, 12⟩
abbrev DVFS_STS_THR : Fld := ⟨R.DVFS_STS, 43, 1⟩
abbrev FMEAS_CTL_TGT : Fld := ⟨R.FMEAS_CTL, 0, 4⟩
abbrev FMEAS_CTL_BASE : Fld := ⟨R.FMEAS_CTL, 4, 4⟩
abbrev FMEAS_CTL_GLOG2 : Fld := ⟨R.FMEAS_CTL, 8, 5⟩
abbrev FMEAS_CTL_INDEX : Fld := ⟨R.FMEAS_CTL, 13, 6⟩
abbrev FMEAS_CTL_START : Fld := ⟨R.FMEAS_CTL, 19, 1⟩
abbrev FMEAS_STS_DONE : Fld := ⟨R.FMEAS_STS, 0, 1⟩
abbrev FMEAS_STS_INVALID : Fld := ⟨R.FMEAS_STS, 1, 1⟩
abbrev FMEAS_STS_COUNT : Fld := ⟨R.FMEAS_STS, 32, 32⟩
abbrev CLKMON_CTL_SRC : Fld := ⟨R.CLKMON_CTL, 0, 4⟩
abbrev CLKMON_CTL_K : Fld := ⟨R.CLKMON_CTL, 4, 4⟩
abbrev CLKMON_CTL_EN : Fld := ⟨R.CLKMON_CTL, 8, 1⟩
abbrev CLKMON_CTL_INDEX : Fld := ⟨R.CLKMON_CTL, 9, 6⟩
abbrev LOOP_CTL_ALL : Fld := ⟨R.LOOP_CTL, 0, 8⟩
abbrev PIN_STS_TRAY_ID : Fld := ⟨R.PIN_STS, 0, 6⟩
abbrev PIN_STS_PWRFAIL : Fld := ⟨R.PIN_STS, 6, 1⟩
abbrev PIN_STS_THROTTLE : Fld := ⟨R.PIN_STS, 7, 1⟩
abbrev PIN_STS_BOD : Fld := ⟨R.PIN_STS, 8, 3⟩
abbrev RSL_ALIGN_SLIP_A : Fld := ⟨R.RSL_ALIGN, 0, 1⟩
abbrev RSL_ALIGN_SLIP_B : Fld := ⟨R.RSL_ALIGN, 1, 1⟩
abbrev RSL_ALIGN_LOCK_A : Fld := ⟨R.RSL_ALIGN, 2, 1⟩
abbrev RSL_ALIGN_LOCK_B : Fld := ⟨R.RSL_ALIGN, 3, 1⟩
abbrev RSL_ALIGN_POS_A : Fld := ⟨R.RSL_ALIGN, 4, 4⟩
abbrev RSL_ALIGN_POS_B : Fld := ⟨R.RSL_ALIGN, 8, 4⟩
abbrev RSL_ALIGN_VIOL_A : Fld := ⟨R.RSL_ALIGN, 32, 16⟩
abbrev RSL_ALIGN_VIOL_B : Fld := ⟨R.RSL_ALIGN, 48, 16⟩
abbrev RSL_DLY_DLY_A : Fld := ⟨R.RSL_DLY, 0, 16⟩
abbrev RSL_DLY_DLY_B : Fld := ⟨R.RSL_DLY, 16, 16⟩
abbrev RSL_STS_CRC_A : Fld := ⟨R.RSL_STS, 0, 16⟩
abbrev RSL_STS_CRC_B : Fld := ⟨R.RSL_STS, 16, 16⟩
abbrev RSL_STS_REPEAT : Fld := ⟨R.RSL_STS, 32, 16⟩
abbrev RSL_STS_SEL : Fld := ⟨R.RSL_STS, 48, 1⟩
abbrev LN_PORT_CTL_PRST (i : Nat) : Fld := ⟨R.LN_PORT_CTL i, 0, 1⟩
abbrev LN_PORT_CTL_LQREQ (i : Nat) : Fld := ⟨R.LN_PORT_CTL i, 1, 1⟩
abbrev LN_PORT_CTL_LDREQ (i : Nat) : Fld := ⟨R.LN_PORT_CTL i, 2, 1⟩
abbrev LN_PORT_CTL_LQ_AUTO (i : Nat) : Fld := ⟨R.LN_PORT_CTL i, 3, 12⟩
abbrev LN_PORT_CTL_TEST (i : Nat) : Fld := ⟨R.LN_PORT_CTL i, 15, 1⟩
abbrev LN_PORT_CTL_LANE_THR (i : Nat) : Fld := ⟨R.LN_PORT_CTL i, 16, 16⟩
abbrev LN_PORT_CTL_FREEZE (i : Nat) : Fld := ⟨R.LN_PORT_CTL i, 32, 1⟩
abbrev LN_PORT_STS_STATE (i : Nat) : Fld := ⟨R.LN_PORT_STS i, 0, 3⟩
abbrev LN_PORT_STS_STEP (i : Nat) : Fld := ⟨R.LN_PORT_STS i, 3, 3⟩
abbrev LN_PORT_STS_FAILED (i : Nat) : Fld := ⟨R.LN_PORT_STS i, 6, 4⟩
abbrev LN_PORT_STS_FAR_NODE (i : Nat) : Fld := ⟨R.LN_PORT_STS i, 10, 14⟩
abbrev LN_PORT_STS_FAR_PORT (i : Nat) : Fld := ⟨R.LN_PORT_STS i, 24, 8⟩
abbrev LN_ERR00_FEC_CORR (i : Nat) : Fld := ⟨R.LN_ERR00 i, 0, 32⟩
abbrev LN_ERR00_FEC_UNC (i : Nat) : Fld := ⟨R.LN_ERR00 i, 32, 32⟩
abbrev LN_ERR10_RETRAIN (i : Nat) : Fld := ⟨R.LN_ERR10 i, 0, 16⟩
abbrev LN_ERR10_DEGRADE (i : Nat) : Fld := ⟨R.LN_ERR10 i, 16, 16⟩
abbrev LN_ERR10_DOWN (i : Nat) : Fld := ⟨R.LN_ERR10 i, 32, 16⟩
abbrev LN_PAT_W0_PAT (i : Nat) : Fld := ⟨R.LN_PAT_W0 i, 0, 3⟩
abbrev LN_PAT_W0_GEN (i : Nat) : Fld := ⟨R.LN_PAT_W0 i, 3, 1⟩
abbrev LN_PAT_W0_CHK (i : Nat) : Fld := ⟨R.LN_PAT_W0 i, 4, 1⟩
abbrev LN_PAT_W0_MX (i : Nat) : Fld := ⟨R.LN_PAT_W0 i, 5, 7⟩
abbrev LN_PAT_W0_MY (i : Nat) : Fld := ⟨R.LN_PAT_W0 i, 12, 6⟩
abbrev LN_PAT_W1_ERRS (i : Nat) : Fld := ⟨R.LN_PAT_W1 i, 0, 32⟩
abbrev LN_PAT_W1_MERRS (i : Nat) : Fld := ⟨R.LN_PAT_W1 i, 32, 32⟩
abbrev SW_CLS_CTL_ALPHA (i : Nat) : Fld := ⟨R.SW_CLS_CTL i, 0, 8⟩
abbrev SW_CLS_CTL_ALPHA_LO (i : Nat) : Fld := ⟨R.SW_CLS_CTL i, 8, 8⟩
abbrev SW_CLS_CTL_ALPHA_HI (i : Nat) : Fld := ⟨R.SW_CLS_CTL i, 16, 8⟩
abbrev SW_CLS_CTL_MARK_LO (i : Nat) : Fld := ⟨R.SW_CLS_CTL i, 24, 16⟩
abbrev SW_CLS_CTL_MARK_HI (i : Nat) : Fld := ⟨R.SW_CLS_CTL i, 40, 16⟩
abbrev SW_CLS_CTL_WEIGHT (i : Nat) : Fld := ⟨R.SW_CLS_CTL i, 56, 4⟩
abbrev SW_CPROF_W0_CIR (i : Nat) : Fld := ⟨R.SW_CPROF_W0 i, 0, 16⟩
abbrev SW_CPROF_W0_PIR (i : Nat) : Fld := ⟨R.SW_CPROF_W0 i, 16, 16⟩
abbrev SW_CPROF_W0_CBS (i : Nat) : Fld := ⟨R.SW_CPROF_W0 i, 32, 16⟩
abbrev SW_CPROF_W0_PBS (i : Nat) : Fld := ⟨R.SW_CPROF_W0 i, 48, 16⟩
abbrev SW_CPROF_W1_G_MIN (i : Nat) : Fld := ⟨R.SW_CPROF_W1 i, 0, 16⟩
abbrev SW_CPROF_W1_G_MAX (i : Nat) : Fld := ⟨R.SW_CPROF_W1 i, 16, 16⟩
abbrev SW_CPROF_W1_G_PMAX (i : Nat) : Fld := ⟨R.SW_CPROF_W1 i, 32, 8⟩
abbrev SW_CPROF_W2_Y_MIN (i : Nat) : Fld := ⟨R.SW_CPROF_W2 i, 0, 16⟩
abbrev SW_CPROF_W2_Y_MAX (i : Nat) : Fld := ⟨R.SW_CPROF_W2 i, 16, 16⟩
abbrev SW_CPROF_W2_Y_PMAX (i : Nat) : Fld := ⟨R.SW_CPROF_W2 i, 32, 8⟩
abbrev SW_CPROF_W3_R_MIN (i : Nat) : Fld := ⟨R.SW_CPROF_W3 i, 0, 16⟩
abbrev SW_CPROF_W3_R_MAX (i : Nat) : Fld := ⟨R.SW_CPROF_W3 i, 16, 16⟩
abbrev SW_CPROF_W3_R_PMAX (i : Nat) : Fld := ⟨R.SW_CPROF_W3 i, 32, 8⟩
abbrev RT_CMD_OP : Fld := ⟨R.RT_CMD, 0, 2⟩
abbrev RT_CMD_REMOTE : Fld := ⟨R.RT_CMD, 2, 1⟩
abbrev RT_CMD_INDEX : Fld := ⟨R.RT_CMD, 3, 8⟩
abbrev RT_CMD_VALUE : Fld := ⟨R.RT_CMD, 11, 32⟩
abbrev RT_STS_BUSY : Fld := ⟨R.RT_STS, 0, 1⟩
abbrev RT_STS_STATUS : Fld := ⟨R.RT_STS, 1, 7⟩
abbrev RT_STS_HELD : Fld := ⟨R.RT_STS, 8, 1⟩
abbrev RT_DRAIN_TMO_TMO : Fld := ⟨R.RT_DRAIN_TMO, 0, 16⟩
abbrev RT_LOAD_INDEX : Fld := ⟨R.RT_LOAD, 0, 8⟩
abbrev RT_LOAD_REMOTE : Fld := ⟨R.RT_LOAD, 8, 1⟩
abbrev RT_LOAD_VALUE : Fld := ⟨R.RT_LOAD, 9, 32⟩
abbrev SW_PORT_CTL_CPROF (i : Nat) : Fld := ⟨R.SW_PORT_CTL i, 0, 2⟩
abbrev SW_PORT_CTL_MARK_EN (i : Nat) : Fld := ⟨R.SW_PORT_CTL i, 2, 1⟩
abbrev SW_PORT_CTL_C0POL (i : Nat) : Fld := ⟨R.SW_PORT_CTL i, 3, 1⟩
abbrev RT_LOCAL_TGT (i : Nat) : Fld := ⟨R.RT_LOCAL i, 0, 8⟩
abbrev RT_LOCAL_STATE (i : Nat) : Fld := ⟨R.RT_LOCAL i, 8, 2⟩
abbrev RT_LOCAL_FSET (i : Nat) : Fld := ⟨R.RT_LOCAL i, 10, 14⟩
abbrev RT_LOCAL_NRT (i : Nat) : Fld := ⟨R.RT_LOCAL i, 32, 32⟩
abbrev RT_REMOTE_TGT (i : Nat) : Fld := ⟨R.RT_REMOTE i, 0, 8⟩
abbrev RT_REMOTE_STATE (i : Nat) : Fld := ⟨R.RT_REMOTE i, 8, 2⟩
abbrev RT_REMOTE_FSET (i : Nat) : Fld := ⟨R.RT_REMOTE i, 10, 14⟩
abbrev RT_REMOTE_NRT (i : Nat) : Fld := ⟨R.RT_REMOTE i, 32, 32⟩
abbrev TEL_20_MARKS (i : Nat) : Fld := ⟨R.TEL_20 i, 0, 32⟩
abbrev TEL_20_FLUSHED (i : Nat) : Fld := ⟨R.TEL_20 i, 32, 32⟩
abbrev TEL_28_DROP_G (i : Nat) : Fld := ⟨R.TEL_28 i, 0, 32⟩
abbrev TEL_28_DROP_Y (i : Nat) : Fld := ⟨R.TEL_28 i, 32, 32⟩
abbrev TEL_30_DROP_R (i : Nat) : Fld := ⟨R.TEL_30 i, 0, 32⟩
abbrev TEL_38_RTY_RX (i : Nat) : Fld := ⟨R.TEL_38 i, 0, 32⟩
abbrev TEL_38_RTY_TX (i : Nat) : Fld := ⟨R.TEL_38 i, 32, 32⟩
abbrev TEL_78_HOT (i : Nat) : Fld := ⟨R.TEL_78 i, 0, 32⟩
abbrev TEL_78_HOT_MISS (i : Nat) : Fld := ⟨R.TEL_78 i, 32, 32⟩
abbrev HAM_CFG_W2_NMEM (i : Nat) : Fld := ⟨R.HAM_CFG_W2 i, 0, 5⟩
abbrev HAM_CFG_W2_VALID (i : Nat) : Fld := ⟨R.HAM_CFG_W2 i, 5, 1⟩
abbrev DIR_CTL_CEN_TMO : Fld := ⟨R.DIR_CTL, 0, 12⟩
abbrev DIR_CTL_AUTO_MO : Fld := ⟨R.DIR_CTL, 12, 1⟩
abbrev DIR_CTL_RWMIG : Fld := ⟨R.DIR_CTL, 13, 1⟩
abbrev COH_CMD_INDEX : Fld := ⟨R.COH_CMD, 0, 8⟩
abbrev COH_CMD_OP : Fld := ⟨R.COH_CMD, 8, 2⟩
abbrev COH_CMD_MODE : Fld := ⟨R.COH_CMD, 10, 1⟩
abbrev COH_CMD_STS_BUSY : Fld := ⟨R.COH_CMD_STS, 0, 1⟩
abbrev COH_CMD_STS_STATUS : Fld := ⟨R.COH_CMD_STS, 1, 7⟩
abbrev COH_CMD_STS_COUNT : Fld := ⟨R.COH_CMD_STS, 8, 32⟩
abbrev LWB_WR_IDX : Fld := ⟨R.LWB_WR, 0, 12⟩
abbrev LWB_WR_OVF : Fld := ⟨R.LWB_WR, 32, 32⟩
abbrev LWB_RD_IDX : Fld := ⟨R.LWB_RD, 0, 12⟩
abbrev COH_WIN_SLOT (i : Nat) : Fld := ⟨R.COH_WIN i, 0, 8⟩
abbrev COH_WIN_WIN (i : Nat) : Fld := ⟨R.COH_WIN i, 8, 6⟩
abbrev COH_WIN_HAM (i : Nat) : Fld := ⟨R.COH_WIN i, 14, 4⟩
abbrev COH_WIN_MOESI (i : Nat) : Fld := ⟨R.COH_WIN i, 18, 1⟩
abbrev COH_WIN_VALID (i : Nat) : Fld := ⟨R.COH_WIN i, 19, 1⟩
abbrev COH_WIN_GEN (i : Nat) : Fld := ⟨R.COH_WIN i, 20, 8⟩
abbrev COH_WIN_CTX (i : Nat) : Fld := ⟨R.COH_WIN i, 28, 16⟩
abbrev COH_WIN_KSLOT (i : Nat) : Fld := ⟨R.COH_WIN i, 44, 6⟩
abbrev COH_WIN_PROT (i : Nat) : Fld := ⟨R.COH_WIN i, 50, 1⟩
abbrev GR_CTL_SENT_LOG2 : Fld := ⟨R.GR_CTL, 0, 5⟩
abbrev GR_CTL_SENT_EN : Fld := ⟨R.GR_CTL, 5, 1⟩
abbrev GR_CTL_ARR_TMO : Fld := ⟨R.GR_CTL, 16, 16⟩
abbrev GR_STS_OPEN : Fld := ⟨R.GR_STS, 0, 11⟩
abbrev GR_STS_RUN : Fld := ⟨R.GR_STS, 11, 7⟩
abbrev GR_SENT_CNT_SAMPLED : Fld := ⟨R.GR_SENT_CNT, 0, 32⟩
abbrev GR_SENT_CNT_MISMATCH : Fld := ⟨R.GR_SENT_CNT, 32, 16⟩
abbrev GR_SENT_CNT_NOMAJ : Fld := ⟨R.GR_SENT_CNT, 48, 16⟩
abbrev GR_SENT_LAST_COLL : Fld := ⟨R.GR_SENT_LAST, 0, 32⟩
abbrev GR_SENT_LAST_CTX : Fld := ⟨R.GR_SENT_LAST, 32, 16⟩
abbrev GR_SENT_LAST_GRPA : Fld := ⟨R.GR_SENT_LAST, 48, 6⟩
abbrev GR_SENT_LAST_GRPB : Fld := ⟨R.GR_SENT_LAST, 54, 6⟩
abbrev GRID_CTL_RES_ROWS : Fld := ⟨R.GRID_CTL, 0, 4⟩
abbrev GRID_CTL_LEASE_TMO : Fld := ⟨R.GRID_CTL, 4, 12⟩
abbrev GRID_STS_FREE : Fld := ⟨R.GRID_STS, 0, 9⟩
abbrev GRID_STS_PEND : Fld := ⟨R.GRID_STS, 9, 7⟩
abbrev GRID_STS_LEASE_EXP : Fld := ⟨R.GRID_STS, 16, 32⟩
abbrev ALLOT_STS_W0_X0 (i : Nat) : Fld := ⟨R.ALLOT_STS_W0 i, 0, 4⟩
abbrev ALLOT_STS_W0_Y0 (i : Nat) : Fld := ⟨R.ALLOT_STS_W0 i, 4, 4⟩
abbrev ALLOT_STS_W0_WM1 (i : Nat) : Fld := ⟨R.ALLOT_STS_W0 i, 8, 4⟩
abbrev ALLOT_STS_W0_HM1 (i : Nat) : Fld := ⟨R.ALLOT_STS_W0 i, 12, 4⟩
abbrev ALLOT_STS_W0_CTX (i : Nat) : Fld := ⟨R.ALLOT_STS_W0 i, 16, 16⟩
abbrev ALLOT_STS_W0_KSLOT (i : Nat) : Fld := ⟨R.ALLOT_STS_W0 i, 32, 6⟩
abbrev ALLOT_STS_W0_PROT (i : Nat) : Fld := ⟨R.ALLOT_STS_W0 i, 38, 1⟩
abbrev ALLOT_STS_W0_STATE (i : Nat) : Fld := ⟨R.ALLOT_STS_W0 i, 39, 3⟩
abbrev ALLOT_STS_W0_RES (i : Nat) : Fld := ⟨R.ALLOT_STS_W0 i, 42, 1⟩
abbrev ALLOT_STS_W1_CBASE (i : Nat) : Fld := ⟨R.ALLOT_STS_W1 i, 0, 11⟩
abbrev ALLOT_STS_W1_CSIZE (i : Nat) : Fld := ⟨R.ALLOT_STS_W1 i, 11, 11⟩
abbrev ALLOT_STS_W1_FAULTS (i : Nat) : Fld := ⟨R.ALLOT_STS_W1 i, 22, 16⟩
abbrev MT_00_CONF_SC (i : Nat) : Fld := ⟨R.MT_00 i, 0, 32⟩
abbrev MT_00_CONF_VE (i : Nat) : Fld := ⟨R.MT_00 i, 32, 32⟩
abbrev MT_08_CONF_DMA (i : Nat) : Fld := ⟨R.MT_08 i, 0, 32⟩
abbrev MT_08_CONF_MESH (i : Nat) : Fld := ⟨R.MT_08 i, 32, 32⟩
abbrev MT_18_MSG_IN (i : Nat) : Fld := ⟨R.MT_18 i, 0, 32⟩
abbrev MT_18_MSG_REFUSED (i : Nat) : Fld := ⟨R.MT_18 i, 32, 32⟩
abbrev MT_20_DMA_PEAK (i : Nat) : Fld := ⟨R.MT_20 i, 0, 16⟩
abbrev SVC_PLACE_TYPE (i : Nat) : Fld := ⟨R.SVC_PLACE i, 0, 8⟩
abbrev SVC_PLACE_WM1 (i : Nat) : Fld := ⟨R.SVC_PLACE i, 8, 4⟩
abbrev SVC_PLACE_HM1 (i : Nat) : Fld := ⟨R.SVC_PLACE i, 12, 4⟩
abbrev SVC_PLACE_CSIZE (i : Nat) : Fld := ⟨R.SVC_PLACE i, 16, 11⟩
abbrev CUST_STS_APPROVED : Fld := ⟨R.CUST_STS, 0, 1⟩
abbrev CUST_STS_ERROR : Fld := ⟨R.CUST_STS, 1, 1⟩
abbrev CUST_STS_SCRUB : Fld := ⟨R.CUST_STS, 2, 1⟩
abbrev CUST_STS_FAIL : Fld := ⟨R.CUST_STS, 8, 8⟩
abbrev CUST_CTL_SELFTEST : Fld := ⟨R.CUST_CTL, 0, 1⟩
abbrev CUST_CTL_ZEROIZE : Fld := ⟨R.CUST_CTL, 1, 1⟩
abbrev CUST_CTL_RHOLD : Fld := ⟨R.CUST_CTL, 8, 8⟩
abbrev CUST_CTL_FERRY_CTX : Fld := ⟨R.CUST_CTL, 16, 16⟩
abbrev KEY_RETIRE_SLOT : Fld := ⟨R.KEY_RETIRE, 0, 6⟩
abbrev CUST_SCRUB_SLOT : Fld := ⟨R.CUST_SCRUB, 0, 6⟩
abbrev KS_STS_STATE (i : Nat) : Fld := ⟨R.KS_STS i, 0, 2⟩
abbrev KS_STS_SGEN (i : Nat) : Fld := ⟨R.KS_STS i, 2, 8⟩
abbrev KS_STS_CTX (i : Nat) : Fld := ⟨R.KS_STS i, 10, 16⟩
abbrev KS_STS_DONE (i : Nat) : Fld := ⟨R.KS_STS i, 26, 1⟩
abbrev KS_STS_MISSED (i : Nat) : Fld := ⟨R.KS_STS i, 27, 8⟩
abbrev FT_CTL_CONFIRM : Fld := ⟨R.FT_CTL, 0, 10⟩
abbrev FT_CTL_MIRR_TMO : Fld := ⟨R.FT_CTL, 10, 10⟩
abbrev FT_CTL_SCRUB_H : Fld := ⟨R.FT_CTL, 20, 8⟩
abbrev FT_CTL_CE_RETIRE : Fld := ⟨R.FT_CTL, 28, 8⟩
abbrev FT_CTL_LOADBW : Fld := ⟨R.FT_CTL, 36, 8⟩
abbrev FT_CTL_HEALTH_EN : Fld := ⟨R.FT_CTL, 44, 1⟩
abbrev FT_LIVE_LIVE : Fld := ⟨R.FT_LIVE, 0, 18⟩
abbrev FT_LIVE_NOTE_MASK : Fld := ⟨R.FT_LIVE_NOTE, 0, 18⟩
abbrev FT_STS_PAIR : Fld := ⟨R.FT_STS, 0, 3⟩
abbrev FT_STS_PLINK : Fld := ⟨R.FT_STS, 3, 1⟩
abbrev FT_STS_LOADED : Fld := ⟨R.FT_STS, 8, 24⟩
abbrev FT_STS_RESYNC : Fld := ⟨R.FT_STS, 32, 32⟩
abbrev FT_CMD_OP : Fld := ⟨R.FT_CMD, 0, 4⟩
abbrev FT_CMD_INDEX : Fld := ⟨R.FT_CMD, 4, 8⟩
abbrev FT_CMD_STS_BUSY : Fld := ⟨R.FT_CMD_STS, 0, 1⟩
abbrev FT_CMD_STS_STATUS : Fld := ⟨R.FT_CMD_STS, 1, 7⟩
abbrev FT_ADMIT_SEEN_SEEN : Fld := ⟨R.FT_ADMIT_SEEN, 0, 8⟩
abbrev FT_SPARE_FR_FREE : Fld := ⟨R.FT_SPARE_FR, 0, 14⟩
abbrev TR_CTL_POST_N : Fld := ⟨R.TR_CTL, 0, 8⟩
abbrev TR_CTL_POST_TMO : Fld := ⟨R.TR_CTL, 8, 8⟩
abbrev TR_CTL_HANG_TMO : Fld := ⟨R.TR_CTL, 16, 16⟩
abbrev TR_CTL_SYNC_MIN : Fld := ⟨R.TR_CTL, 32, 12⟩
abbrev TR_CTL_TRIG_MASK : Fld := ⟨R.TR_CTL, 44, 16⟩
abbrev TR_CTL_HANG_EN : Fld := ⟨R.TR_CTL, 60, 1⟩
abbrev TR_CTL_GT_EN : Fld := ⟨R.TR_CTL, 61, 1⟩
abbrev TR_REGION_MIB : Fld := ⟨R.TR_REGION, 0, 12⟩
abbrev TR_REGION_PRE16 : Fld := ⟨R.TR_REGION, 12, 4⟩
abbrev TR_CMD_ARM : Fld := ⟨R.TR_CMD, 0, 1⟩
abbrev TR_CMD_TRIG : Fld := ⟨R.TR_CMD, 1, 1⟩
abbrev TR_STS_STATE : Fld := ⟨R.TR_STS, 0, 2⟩
abbrev TR_STS_SRC : Fld := ⟨R.TR_STS, 2, 2⟩
abbrev TR_STS_TRIG2 : Fld := ⟨R.TR_STS, 4, 16⟩
abbrev TR_STS_POST_DROP : Fld := ⟨R.TR_STS, 20, 32⟩
abbrev TR_PRE_WR_PRE : Fld := ⟨R.TR_PRE_WR, 0, 32⟩
abbrev TR_PRE_WR_POST : Fld := ⟨R.TR_PRE_WR, 32, 32⟩
abbrev TW_ENTRY_W0_CTX (i : Nat) : Fld := ⟨R.TW_ENTRY_W0 i, 0, 16⟩
abbrev TW_ENTRY_W0_KIND (i : Nat) : Fld := ⟨R.TW_ENTRY_W0 i, 16, 2⟩
abbrev TW_ENTRY_W0_EN (i : Nat) : Fld := ⟨R.TW_ENTRY_W0 i, 18, 1⟩
abbrev TW_ENTRY_W0_ALLOT (i : Nat) : Fld := ⟨R.TW_ENTRY_W0 i, 19, 6⟩
abbrev TW_ENTRY_W0_CNT (i : Nat) : Fld := ⟨R.TW_ENTRY_W0 i, 25, 4⟩
abbrev TW_ENTRY_W0_FMT (i : Nat) : Fld := ⟨R.TW_ENTRY_W0 i, 29, 4⟩
abbrev TW_ENTRY_W1_KEY (i : Nat) : Fld := ⟨R.TW_ENTRY_W1 i, 0, 32⟩
abbrev TW_ENTRY_W1_SLOG2 (i : Nat) : Fld := ⟨R.TW_ENTRY_W1 i, 32, 4⟩
abbrev TW_SKIP_SKIP : Fld := ⟨R.TW_SKIP, 0, 32⟩
abbrev LG_CTL_EN : Fld := ⟨R.LG_CTL, 0, 1⟩
abbrev LG_CTL_CTXF : Fld := ⟨R.LG_CTL, 1, 1⟩
abbrev LG_CTL_WRAP : Fld := ⟨R.LG_CTL, 2, 1⟩
abbrev LG_CTL_RP_WRITE : Fld := ⟨R.LG_CTL, 3, 1⟩
abbrev LG_CTL_RP_STOP : Fld := ⟨R.LG_CTL, 4, 1⟩
abbrev LG_CTL_GIB : Fld := ⟨R.LG_CTL, 8, 8⟩
abbrev LG_STS_SEGNO : Fld := ⟨R.LG_STS, 0, 32⟩
abbrev LG_STS_GAPS : Fld := ⟨R.LG_STS, 32, 16⟩
abbrev LG_STS_FULL : Fld := ⟨R.LG_STS, 48, 1⟩
abbrev LG_CMD_OP : Fld := ⟨R.LG_CMD, 0, 2⟩
abbrev LG_CMD_FROM : Fld := ⟨R.LG_CMD, 2, 32⟩
abbrev LG_CMD2_TO : Fld := ⟨R.LG_CMD2, 0, 32⟩
abbrev LG_RSTS_STATE : Fld := ⟨R.LG_RSTS, 0, 2⟩
abbrev LG_RSTS_MATCH : Fld := ⟨R.LG_RSTS, 2, 1⟩
abbrev LG_RSTS_MISMATCH : Fld := ⟨R.LG_RSTS, 3, 32⟩
abbrev RING_CTL_WR (i : Nat) : Fld := ⟨R.RING_CTL i, 0, 8⟩
abbrev RING_CTL_FROZEN (i : Nat) : Fld := ⟨R.RING_CTL i, 8, 1⟩
abbrev RING_CTL_TOTAL (i : Nat) : Fld := ⟨R.RING_CTL i, 16, 32⟩
abbrev HBM_CTL_BIN : Fld := ⟨R.HBM_CTL, 0, 2⟩
abbrev HBM_STS_TRAINED (i : Nat) : Fld := ⟨R.HBM_STS i, 0, 1⟩
abbrev HBM_STS_FAILED (i : Nat) : Fld := ⟨R.HBM_STS i, 1, 1⟩
abbrev HBM_STS_SREF (i : Nat) : Fld := ⟨R.HBM_STS i, 2, 1⟩
abbrev HBM_STS_TEMP (i : Nat) : Fld := ⟨R.HBM_STS i, 3, 8⟩
abbrev HBM_STS_SPARE (i : Nat) : Fld := ⟨R.HBM_STS i, 11, 11⟩

end F

/-- Rows of the block at base 0x0. -/
def regRows00 : List RegRow := [
  ⟨0x0, 0, 1, 0xD01, 0x0, 0x0, 0x0, 0x0, [(510, 0xFFFFFFF)]⟩,
  ⟨0x8, 0, 1, 0x0, 0x0, 0x0, 0x0, 0x0, [(510, 0xFFFFFFFFFFFFFFFF)]⟩,
  ⟨0x10, 0, 1, 0x0, 0x0, 0x0, 0x0, 0x0, [(252, 0xFFFFFF)]⟩,
  ⟨0x18, 0, 1, 0x0, 0x0, 0xFFFFFFFFFFFFFFFF, 0x0, 0x0, [(252, 0xFFFFFFFFFFFFFFFF)]⟩,
  ⟨0x20, 0, 1, 0x0, 0x1FFFF, 0x0, 0x0, 0x0, [(252, 0x1FFFF)]⟩,
  ⟨0x28, 0, 1, 0x20000130040, 0x0, 0x3FFFFF, 0x0, 0x0, [(252, 0x3FFFFF)]⟩,
  ⟨0x30, 0, 1, 0x4, 0x0, 0x1F, 0x0, 0x0, [(252, 0x1F)]⟩,
  ⟨0x38, 0, 1, 0x0, 0x0, 0x0, 0x0, 0x0, [(252, 0xFFFFFFFF03FFFFFF)]⟩,
  ⟨0x40, 0, 1, 0x0, 0x0, 0x0, 0x0, 0x3F, []⟩,
  ⟨0x48, 0, 1, 0x64, 0x3FFF, 0x0, 0x0, 0x0, [(252, 0x3FFF)]⟩,
  ⟨0x50, 0, 1, 0x0, 0x0, 0x0, 0x0, 0x0, []⟩,
  ⟨0x100, 8, 4, 0x0, 0xFFFFFFFFFFFFFFFF, 0x0, 0x0, 0x0, []⟩,
  ⟨0x120, 0, 1, 0x0, 0x0, 0x0, 0x0, 0x3F, []⟩,
  ⟨0x128, 0, 1, 0x0, 0x0, 0x0, 0x0, 0x0, []⟩]

/-- Rows of the block at base 0x0. -/
def regRows00a : List RegRow := [
  ⟨0x200, 8, 4, 0x0, 0xFFFFFFFFFFFFFFFF, 0x0, 0x0, 0x0, []⟩,
  ⟨0x220, 0, 1, 0x0, 0x0, 0x0, 0x0, 0xFFF, []⟩,
  ⟨0x228, 0, 1, 0x0, 0x0, 0x0, 0x0, 0xFFF, []⟩,
  ⟨0x230, 0, 1, 0x0, 0x0, 0x0, 0x0, 0x0, []⟩]

/-- Rows of the block at base 0x1000000. -/
def regRows01 : List RegRow := [
  ⟨0x1000000, 0, 1, 0x0, 0x0, 0x0, 0x0, 0x0, [(258, 0xFFFFFFFF00000000)]⟩,
  ⟨0x1000008, 0, 1, 0x0, 0x0, 0x0, 0x0, 0x0, []⟩]

/-- Rows of the block at base 0x2000000. -/
def regRows02 : List RegRow := [
  ⟨0x2000000, 0, 1, 0x0, 0x0, 0x7, 0x0, 0x0, [(252, 0x7)]⟩,
  ⟨0x2000008, 0, 1, 0x0, 0x0, 0x0, 0x0, 0x0, []⟩,
  ⟨0x2000010, 0, 1, 0xF, 0xF, 0x0, 0x0, 0x0, [(252, 0xF)]⟩,
  ⟨0x2000018, 0, 1, 0x1F43110, 0x0, 0x3FFFFFFFF, 0x0, 0x0, [(252, 0x3FFFFFFFF)]⟩,
  ⟨0x2000020, 0, 1, 0x62, 0x0, 0x0, 0x0, 0x0, []⟩,
  ⟨0x2000040, 0, 1, 0x1000, 0x7FFFF, 0x0, 0x80000, 0x0, []⟩,
  ⟨0x2000048, 0, 1, 0x0, 0x0, 0x0, 0x0, 0x0, []⟩,
  ⟨0x2000050, 0, 1, 0x40, 0x7FFF, 0x0, 0x0, 0x0, []⟩,
  ⟨0x2000060, 0, 1, 0x55, 0xFF, 0x0, 0x0, 0x0, [(252, 0xFF)]⟩,
  ⟨0x2000080, 0, 1, 0x0, 0x0, 0x0, 0x0, 0x0, [(511, 0x3F), (1, 0x700)]⟩]

/-- Rows of the block at base 0x3000000. -/
def regRows03 : List RegRow := [
  ⟨0x3000000, 0, 1, 0x0, 0x0, 0x0, 0x3, 0x0, [(510, 0xFFFFFFFF00000FFC)]⟩,
  ⟨0x3000008, 0, 1, 0x0, 0x0, 0x0, 0x0, 0x0, [(252, 0xFFFFFFFF)]⟩,
  ⟨0x3000010, 0, 1, 0x0, 0x0, 0x0, 0x0, 0x0, [(510, 0xFFFFFFFFFFFF)]⟩]

/-- Rows of the block at base 0x4000000. -/
def regRows04 : List RegRow := [
  ⟨0x4000000, 16, 160, 0x10000000, 0x100007FFE, 0xFFFF8000, 0x1, 0x0, [(252, 0x1FFFFFFFE)]⟩,
  ⟨0x4000008, 16, 160, 0x0, 0x0, 0x0, 0x0, 0x0, []⟩,
  ⟨0x4001000, 32, 160, 0x0, 0x0, 0x0, 0x0, 0x0, [(252, 0xFFFFFFFFFFFFFFFF)]⟩,
  ⟨0x4001008, 32, 160, 0x0, 0x0, 0x0, 0x0, 0x0, [(252, 0xFFFFFFFFFFFFFFFF)]⟩,
  ⟨0x4001010, 32, 160, 0x0, 0x0, 0x0, 0x0, 0x0, [(252, 0xFFFFFFFFFFFF)]⟩,
  ⟨0x4001018, 32, 160, 0x0, 0x0, 0x0, 0x0, 0x0, []⟩,
  ⟨0x4008000, 16, 640, 0x0, 0x3FFFF, 0x0, 0x0, 0x0, [(252, 0x3FFFF)]⟩,
  ⟨0x4008008, 16, 640, 0x0, 0x0, 0x0, 0x0, 0x0, [(252, 0xFFFFFFFFFFFFFFFF)]⟩]

/-- Rows of the block at base 0x5000000. -/
def regRows05 : List RegRow := [
  ⟨0x5000100, 8, 4, 0x800100, 0xFFFFFFFF0000FF, 0xF00000000FFFF00, 0x0, 0x0, [(252, 0xFFFFFFFFFFFFFFF)]⟩,
  ⟨0x5000200, 32, 4, 0x200010003E801F4, 0xFFFFFFFFFFFFFFFF, 0x0, 0x0, 0x0, [(252, 0xFFFFFFFFFFFFFFFF)]⟩,
  ⟨0x5000208, 32, 4, 0x2040002000, 0xFFFFFFFFFF, 0x0, 0x0, 0x0, [(252, 0xFFFFFFFFFF)]⟩,
  ⟨0x5000210, 32, 4, 0x8020000800, 0xFFFFFFFFFF, 0x0, 0x0, 0x0, [(252, 0xFFFFFFFFFF)]⟩,
  ⟨0x5000218, 32, 4, 0xFF08000100, 0xFFFFFFFFFF, 0x0, 0x0, 0x0, [(252, 0xFFFFFFFFFF)]⟩,
  ⟨0x5000400, 0, 1, 0x0, 0x0, 0x0, 0x0, 0xFFFFFFFFFFFFFFFF, []⟩,
  ⟨0x5000408, 0, 1, 0x0, 0x0, 0x0, 0x0, 0x0, []⟩,
  ⟨0x5000410, 0, 1, 0x14, 0x0, 0xFFFF, 0x0, 0x0, [(252, 0xFFFF)]⟩,
  ⟨0x5000418, 0, 1, 0x0, 0x0, 0x0, 0x0, 0xFFFFFFFFFFFFFFFF, []⟩,
  ⟨0x5001000, 8, 160, 0x4, 0x7, 0x8, 0x0, 0x0, [(252, 0xF)]⟩,
  ⟨0x5002000, 8, 256, 0xFFFFFFFF00000000, 0x0, 0x0, 0x0, 0x0, [(252, 0xFFFFFFFFFFFFFFFF)]⟩,
  ⟨0x5002800, 8, 64, 0xFFFFFFFF00000000, 0x0, 0x0, 0x0, 0x0, [(252, 0xFFFFFFFFFFFFFFFF)]⟩,
  ⟨0x5010000, 128, 176, 0x0, 0x0, 0x0, 0x0, 0x0, [(252, 0xFFFFFFFFFFFFFFFF)]⟩,
  ⟨0x5010008, 128, 176, 0x0, 0x0, 0x0, 0x0, 0x0, [(252, 0xFFFFFFFFFFFFFFFF)]⟩]

/-- Rows of the block at base 0x5000000. -/
def regRows05a : List RegRow := [
  ⟨0x5010010, 128, 176, 0x0, 0x0, 0x0, 0x0, 0x0, [(252, 0xFFFFFFFFFFFFFFFF)]⟩,
  ⟨0x5010018, 128, 176, 0x0, 0x0, 0x0, 0x0, 0x0, [(252, 0xFFFFFFFFFFFFFFFF)]⟩,
  ⟨0x5010020, 128, 176, 0x0, 0x0, 0x0, 0x0, 0x0, [(252, 0xFFFFFFFFFFFFFFFF)]⟩,
  ⟨0x5010028, 128, 176, 0x0, 0x0, 0x0, 0x0, 0x0, [(252, 0xFFFFFFFFFFFFFFFF)]⟩,
  ⟨0x5010030, 128, 176, 0x0, 0x0, 0x0, 0x0, 0x0, [(252, 0xFFFFFFFF)]⟩,
  ⟨0x5010038, 128, 176, 0x0, 0x0, 0x0, 0x0, 0x0, [(252, 0xFFFFFFFFFFFFFFFF)]⟩,
  ⟨0x5010040, 128, 176, 0x0, 0x0, 0x0, 0x0, 0x0, []⟩,
  ⟨0x5010048, 128, 176, 0x0, 0xFFFFFFFFFFFFFFFF, 0x0, 0x0, 0x0, [(252, 0xFFFFFFFFFFFFFFFF)]⟩,
  ⟨0x5010050, 128, 176, 0x0, 0x0, 0x0, 0x0, 0x0, [(252, 0xFFFFFFFFFFFFFFFF)]⟩,
  ⟨0x5010058, 128, 176, 0x0, 0x0, 0x0, 0x0, 0x0, [(252, 0xFFFFFFFFFFFFFFFF)]⟩,
  ⟨0x5010060, 128, 176, 0x0, 0x0, 0x0, 0x0, 0x0, [(252, 0xFFFFFFFFFFFFFFFF)]⟩,
  ⟨0x5010068, 128, 176, 0x0, 0x0, 0x0, 0x0, 0x0, [(252, 0xFFFFFFFFFFFFFFFF)]⟩,
  ⟨0x5010070, 128, 176, 0x0, 0x0, 0x0, 0x0, 0x0, [(252, 0xFFFFFFFFFFFFFFFF)]⟩,
  ⟨0x5010078, 128, 176, 0x0, 0x0, 0x0, 0x0, 0x0, [(252, 0xFFFFFFFFFFFFFFFF)]⟩]

/-- Rows of the block at base 0x6000000. -/
def regRows06 : List RegRow := [
  ⟨0x6000000, 32, 9, 0x0, 0xFFFFFFFFFFFFFFFF, 0x0, 0x0, 0x0, [(252, 0xFFFFFFFFFFFFFFFF)]⟩,
  ⟨0x6000008, 32, 9, 0x0, 0xFFFFFFFFFFFFFFFF, 0x0, 0x0, 0x0, [(252, 0xFFFFFFFFFFFFFFFF)]⟩,
  ⟨0x6000010, 32, 9, 0x0, 0x3F, 0x0, 0x0, 0x0, [(252, 0x3F)]⟩,
  ⟨0x6000018, 32, 9, 0x0, 0x0, 0x0, 0x0, 0x0, []⟩,
  ⟨0x6000200, 0, 1, 0x35DC, 0x0, 0x3FFF, 0x0, 0x0, [(252, 0x3FFF)]⟩,
  ⟨0x6000208, 0, 1, 0x0, 0x0, 0x0, 0x0, 0xFFFFFFFFFFFFFFFF, []⟩,
  ⟨0x6000210, 0, 1, 0x0, 0x0, 0x0, 0x0, 0x0, []⟩,
  ⟨0x6000218, 0, 1, 0x0, 0x0, 0x0, 0x0, 0x0, [(254, 0xFFFFFFFFFFFFFFFF)]⟩,
  ⟨0x6000220, 0, 1, 0x0, 0xFFF, 0x0, 0x0, 0x0, [(254, 0xFFF)]⟩,
  ⟨0x6001000, 8, 256, 0x0, 0x7FFFFFFFFFFFF, 0x0, 0x0, 0x0, [(252, 0x7FFFFFFFFFFFF)]⟩]

/-- Rows of the block at base 0x7000000. -/
def regRows07 : List RegRow := [
  ⟨0x7000000, 0, 1, 0x640028, 0x0, 0xFFFF003F, 0x0, 0x0, [(252, 0xFFFF003F)]⟩,
  ⟨0x7000008, 0, 1, 0x0, 0x0, 0x0, 0x0, 0x0, []⟩,
  ⟨0x7000010, 0, 1, 0x0, 0x0, 0x0, 0x0, 0x0, [(252, 0xFFFFFFFFFFFFFFFF)]⟩,
  ⟨0x7000018, 0, 1, 0x0, 0x0, 0x0, 0x0, 0x0, [(252, 0xFFFFFFFFFFFFFFF)]⟩]

/-- Rows of the block at base 0x8000000. -/
def regRows08 : List RegRow := [
  ⟨0x8000000, 0, 1, 0x640, 0x0, 0xFFFF, 0x0, 0x0, [(252, 0xFFFF)]⟩,
  ⟨0x8000008, 0, 1, 0x0, 0x0, 0x0, 0x0, 0x0, [(248, 0xFFFFFFFFFFFF)]⟩,
  ⟨0x8000100, 16, 64, 0x0, 0x0, 0x0, 0x0, 0x0, [(248, 0x7FFFFFFFFFF)]⟩,
  ⟨0x8000108, 16, 64, 0x0, 0x0, 0x0, 0x0, 0x0, [(248, 0x3FFFFFFFFF)]⟩,
  ⟨0x8010000, 64, 256, 0x0, 0x0, 0x0, 0x0, 0x0, [(248, 0xFFFFFFFFFFFFFFFF)]⟩,
  ⟨0x8010008, 64, 256, 0x0, 0x0, 0x0, 0x0, 0x0, [(248, 0xFFFFFFFFFFFFFFFF)]⟩,
  ⟨0x8010010, 64, 256, 0x0, 0x0, 0x0, 0x0, 0x0, [(248, 0xFFFFFFFFFFFFFFFF)]⟩,
  ⟨0x8010018, 64, 256, 0x0, 0x0, 0x0, 0x0, 0x0, [(248, 0xFFFFFFFFFFFFFFFF)]⟩,
  ⟨0x8010020, 64, 256, 0x0, 0xFFFF, 0x0, 0x0, 0x0, [(248, 0xFFFF)]⟩,
  ⟨0x8010028, 64, 256, 0x0, 0x0, 0x0, 0x0, 0x0, [(248, 0xFFFFFFFFFFFFFFFF)]⟩,
  ⟨0x8010030, 64, 256, 0x0, 0x0, 0x0, 0x0, 0x0, []⟩,
  ⟨0x8010038, 64, 256, 0x0, 0x0, 0x0, 0x0, 0x0, []⟩]

/-- Rows of the block at base 0x9000000. -/
def regRows09 : List RegRow := [
  ⟨0x9000000, 8, 8, 0x0, 0x0, 0x7FFFFFF, 0x0, 0x0, [(252, 0x7FFFFFF)]⟩,
  ⟨0x9000040, 0, 1, 0x0, 0x0, 0x0, 0x0, 0x0, [(248, 0xFFFFFFFFFFFFFFFF)]⟩]

/-- Rows of the block at base 0xA000000. -/
def regRows0A : List RegRow := [
  ⟨0xA000000, 0, 1, 0x0, 0x0, 0x0, 0x0, 0x0, []⟩,
  ⟨0xA000008, 0, 1, 0xA00, 0x0, 0xFFFFFF00, 0x3, 0x0, []⟩,
  ⟨0xA000010, 0, 1, 0x0, 0x0, 0x0, 0x0, 0x3F, []⟩,
  ⟨0xA000018, 0, 1, 0x0, 0x0, 0x0, 0x0, 0x3F, []⟩,
  ⟨0xA000100, 8, 64, 0x0, 0x0, 0x0, 0x0, 0x0, []⟩]

/-- Rows of the block at base 0xB000000. -/
def regRows0B : List RegRow := [
  ⟨0xB000000, 0, 1, 0x1B4101832064, 0x0, 0x1FFFFFFFFFFF, 0x0, 0x0, [(252, 0x1FFFFFFFFFFF)]⟩,
  ⟨0xB000008, 0, 1, 0x0, 0x0, 0x3FFFF, 0x0, 0x0, [(252, 0x3FFFF)]⟩,
  ⟨0xB000010, 0, 1, 0x0, 0x0, 0x0, 0x0, 0x3FFFF, []⟩,
  ⟨0xB000018, 0, 1, 0x0, 0x0, 0x0, 0x0, 0x0, []⟩,
  ⟨0xB000020, 0, 1, 0x0, 0x0, 0x0, 0x0, 0xFFF, []⟩,
  ⟨0xB000028, 0, 1, 0x0, 0x0, 0x0, 0x0, 0x0, []⟩,
  ⟨0xB000030, 8, 2, 0x0, 0x0, 0xFFFFFFFFFFFFFFFF, 0x0, 0x0, [(252, 0xFFFFFFFFFFFFFFFF)]⟩,
  ⟨0xB000040, 0, 1, 0x0, 0x0, 0x0, 0x0, 0x0, []⟩,
  ⟨0xB000048, 8, 3, 0x0, 0x0, 0x0, 0x0, 0x0, []⟩,
  ⟨0xB000060, 0, 1, 0x0, 0x0, 0x0, 0x0, 0x0, []⟩]

/-- Rows of the block at base 0xC000000. -/
def regRows0C : List RegRow := [
  ⟨0xC000000, 0, 1, 0x3004406401F41440, 0x3FFFFFFFFFFFFFFF, 0x0, 0x0, 0x0, [(254, 0x3FFFFFFFFFFFFFFF)]⟩,
  ⟨0xC000008, 0, 1, 0x8100, 0x0, 0xFFFF, 0x0, 0x0, [(254, 0xFFFF)]⟩,
  ⟨0xC000010, 0, 1, 0x0, 0x0, 0x0, 0x3, 0x0, []⟩,
  ⟨0xC000018, 0, 1, 0x0, 0x0, 0x0, 0x0, 0x0, [(254, 0xFFFFFFFFFFFFF)]⟩,
  ⟨0xC000020, 0, 1, 0x0, 0x0, 0x0, 0x0, 0x0, [(254, 0xFFFFFFFFFFFFFFFF)]⟩,
  ⟨0xC000028, 0, 1, 0x0, 0x0, 0x0, 0x0, 0x0, [(254, 0xFFFFFFFFFFFFFFFF)]⟩,
  ⟨0xC000100, 16, 16, 0x0, 0x1FFFFFFFF, 0x0, 0x0, 0x0, [(254, 0x1FFFFFFFF)]⟩,
  ⟨0xC000108, 16, 16, 0x0, 0xFFFFFFFFF, 0x0, 0x0, 0x0, [(254, 0xFFFFFFFFF)]⟩,
  ⟨0xC000200, 8, 128, 0x0, 0x0, 0x0, 0x0, 0x0, [(254, 0xFFFFFFFFFFFFFFFF)]⟩,
  ⟨0xC000600, 0, 1, 0x0, 0x0, 0x0, 0x0, 0x0, [(254, 0xFFFFFFFF)]⟩,
  ⟨0xC000700, 0, 1, 0x1014, 0x0, 0xFF1F, 0x0, 0x0, [(254, 0xFF1F)]⟩,
  ⟨0xC000708, 0, 1, 0x0, 0x0, 0xFFFFFFFFFFFFFFFF, 0x0, 0x0, [(254, 0xFFFFFFFFFFFFFFFF)]⟩,
  ⟨0xC000710, 0, 1, 0x0, 0x0, 0x0, 0x0, 0x0, [(254, 0x1FFFFFFFFFFFF)]⟩,
  ⟨0xC000718, 0, 1, 0x0, 0x0, 0x0, 0x0, 0x3FFFFFFFF, []⟩]

/-- Rows of the block at base 0xC000000. -/
def regRows0Ca : List RegRow := [
  ⟨0xC000720, 0, 1, 0x0, 0x0, 0x0, 0x0, 0xFFFFFFFF, []⟩,
  ⟨0xC000728, 0, 1, 0x0, 0x0, 0x0, 0x0, 0x0, []⟩,
  ⟨0xC000730, 0, 1, 0x0, 0x0, 0x0, 0x0, 0x0, []⟩,
  ⟨0xC001000, 8, 454, 0x0, 0x0, 0x0, 0x0, 0x0, [(254, 0xFFFFFFFF01FF)]⟩]

/-- Rows of the block at base 0xD000000. -/
def regRows0D : List RegRow := [
  ⟨0xD000000, 0, 1, 0x0, 0x0, 0x3, 0x0, 0x0, [(252, 0x3)]⟩,
  ⟨0xD000100, 8, 8, 0x200000, 0x0, 0x0, 0x0, 0x0, []⟩]

/-- Every register of window 63 that is held in the register file. -/
def regRows : List RegRow :=
  regRows00 ++
  regRows00a ++
  regRows01 ++
  regRows02 ++
  regRows03 ++
  regRows04 ++
  regRows05 ++
  regRows05a ++
  regRows06 ++
  regRows07 ++
  regRows08 ++
  regRows09 ++
  regRows0A ++
  regRows0B ++
  regRows0C ++
  regRows0Ca ++
  regRows0D

/-- Whether a row holds an offset. -/
def RegRow.has (r : RegRow) (off : Nat) : Bool :=
  if r.stride = 0 then off == r.base
  else decide (r.base ≤ off) && (off - r.base) % r.stride == 0 &&
    decide ((off - r.base) / r.stride < r.count)

/-- The row of an offset. -/
def regRow? (off : Nat) : Option RegRow := regRows.find? (fun r => r.has off)

/-- UNIT_PRESENT by variant (R526). -/
def unitPresent (v : Variant) : Word :=
  match v with
  | .qd19 => 0x00003FFF00FF0FFF
  | .qd17 => 0x00003FFF00FF0FAF
  | .qd15 => 0x00000000000F0100

/-- DEV_ID.VARIANT (R525). -/
def variantNo (v : Variant) : Nat :=
  match v with
  | .qd19 => 9
  | .qd17 => 7
  | .qd15 => 5

/-- Stacks present (R2, R526). -/
def stacksOf (v : Variant) : Nat :=
  match v with
  | .qd15 => 4
  | _ => 8

/-- SW_CLS_CTL of each class at reset (R180). -/
def clsCtlReset (c : Nat) : Word :=
  match c with
  | 0 => wd (16 + 1 * 2 ^ 8 + 128 * 2 ^ 16 + 16 * 2 ^ 24 + 64 * 2 ^ 40)
  | 1 => wd (32 + 1 * 2 ^ 8 + 128 * 2 ^ 16 + 256 * 2 ^ 24 + 1024 * 2 ^ 40 + 8 * 2 ^ 56)
  | 2 => wd (32 + 1 * 2 ^ 8 + 128 * 2 ^ 16 + 1024 * 2 ^ 24 + 4096 * 2 ^ 40 + 6 * 2 ^ 56)
  | _ => wd (8 + 1 * 2 ^ 8 + 128 * 2 ^ 16 + 2 * 2 ^ 56)

/-- Reset value of the register at an offset (R9 and the register tables). -/
def regReset (v : Variant) (off : Nat) : Word :=
  if off = R.DEV_ID then
    wd (0x0D01 + Config.dieRev.toNat * 2 ^ 16 + variantNo v * 2 ^ 24)
  else if off = R.UNIT_PRESENT then unitPresent v
  else if off = R.FT_SPARE_FR then wd (1024 * stacksOf v)
  else
    match regRow? off with
    | none => 0
    | some r =>
      if r.base = R.SW_CLS_CTL 0 then clsCtlReset ((off - r.base) / 8)
      else if r.base = R.SW_PORT_CTL 0 then
        if (off - r.base) / 8 < 144 then r.reset ||| 8 else r.reset
      else if r.base = R.HBM_STS 0 then
        if (off - r.base) / 8 < stacksOf v then r.reset else 0
      else r.reset

/-- The register at an offset. -/
def State.rg (s : State) (off : Nat) : Word := Tbl.get (regReset s.qd.variant) s.qd.regs off

/-- The state with a register holding a word. -/
def State.setRg (s : State) (off : Nat) (w : Word) : State :=
  s.mapQd (fun q => { q with regs := Tbl.set (regReset q.variant) q.regs off w })

/-- A field of a register. -/
def State.fl (s : State) (f : Fld) : Nat := fget (s.rg f.off) f.lo f.wd

/-- A field of a register as a flag. -/
def State.flag (s : State) (f : Fld) : Bool := decide (s.fl f ≠ 0)

/-- The state with a field of a register replaced, modulo its width. -/
def State.setFl (s : State) (f : Fld) (v : Nat) : State :=
  s.setRg f.off (fset (s.rg f.off) f.lo f.wd v)

/-- A wrapping counter field that rises. -/
def State.count (s : State) (f : Fld) (n : Nat := 1) : State := s.setFl f (s.fl f + n)

/-- A saturating counter field that rises by one. -/
def State.countSat (s : State) (f : Fld) : State :=
  if s.fl f + 1 < 2 ^ f.wd then s.setFl f (s.fl f + 1) else s

/-- Bits of a row that a reset of a code keeps. -/
def RegRow.kept (r : RegRow) (code : Nat) : Word :=
  r.keep.foldl (fun m k => if k.1 / code % 2 = 1 then m ||| k.2 else m) 0

/-- The register file after a reset of a code: the kept bits of each register hold their values
and the others take their reset values (R9, R521). -/
def regsAfter (v : Variant) (code : Nat) (regs : Tbl Word) : Tbl Word :=
  regs.foldl (fun t p =>
    match regRow? p.1 with
    | none => t
    | some r =>
      let m := r.kept code
      Tbl.set (regReset v) t p.1 ((p.2 &&& m) ||| (regReset v p.1 &&& ~~~ m))) []

/-! ### The Svapo register channel (R369) -/

namespace SR
abbrev SV_ID : Nat := 0x0000
abbrev SV_CTL : Nat := 0x0008
abbrev SV_TXN_TMO : Nat := 0x0010
abbrev SV_NODE : Nat := 0x0018
abbrev SV_LIVE : Nat := 0x0020
abbrev SV_QCTL0 (q : Nat) : Nat := 0x0100 + 16 * q
abbrev SV_QCTL1 (q : Nat) : Nat := 0x0108 + 16 * q
abbrev PLANE_MAP (w : Nat) : Nat := 0x0400 + 8 * w
abbrev HOME_MAP (w : Nat) : Nat := 0x0500 + 8 * w
abbrev SV_HAM (w : Nat) : Nat := 0x0600 + 8 * w
abbrev SV_COH (i : Nat) : Nat := 0x0800 + 8 * i
abbrev SV_PTR_L2F : Nat := 0x1000
abbrev SV_PTR_F2L : Nat := 0x1008
abbrev WIN_WITHDRAW : Nat := 0x1010
abbrev SV_WT_CMD : Nat := 0x1018
abbrev SV_WT_DATA (i : Nat) : Nat := 0x1020 + 8 * i
abbrev SV_KS (k : Nat) : Nat := 0x1100 + 8 * k
abbrev SV_LIM_CTL : Nat := 0x1300
abbrev SV_LIM_STS : Nat := 0x1308
abbrev SV_CA_CTL : Nat := 0x1400
abbrev SV_CA_STS : Nat := 0x1408
abbrev SV_PORT_CTL (p : Nat) : Nat := 0x1500 + 8 * p
abbrev APERTURE (i w : Nat) : Nat := 0x2000 + 32 * i + 8 * w
abbrev WINDOW (i w : Nat) : Nat := 0x4000 + 64 * i + 8 * w
abbrev EVENTS (i w : Nat) : Nat := 0x8000 + 32 * i + 8 * w
end SR

/-- Reset values of the Svapo registers that are held as words (R20, R74, R369, R384, R387). -/
def svReset (off : Nat) : Word :=
  if off = SR.SV_TXN_TMO then 0x0000020000130040
  else if off = SR.SV_NODE then 0x3FFF
  else if off = SR.SV_LIM_CTL then wd (1 + 2 * 4 + 4 * 2 ^ 10 + 4 * 2 ^ 14 + 20 * 2 ^ 22)
  else if off = SR.SV_CA_CTL then 20
  else if 0x2000 ≤ off ∧ off < 0x4000 ∧ off % 32 = 24 then 0x80000000
  else 0

/-- A Svapo register held as a word. -/
def State.sr (s : State) (off : Nat) : Word := Tbl.get svReset s.sv.regs off

/-- The state with a Svapo register holding a word. -/
def State.setSr (s : State) (off : Nat) (w : Word) : State :=
  s.mapSv (fun v => { v with regs := Tbl.set svReset v.regs off w })

/-- A field of a Svapo register. -/
def State.srf (s : State) (off lo n : Nat) : Nat := fget (s.sr off) lo n

/-- The state with a field of a Svapo register replaced. -/
def State.setSrf (s : State) (off lo n v : Nat) : State := s.setSr off (fset (s.sr off) lo n v)

/-- An entry of PLANE_MAP, a byte of its words (R369). -/
def State.planeMap (s : State) (i : Nat) : Nat := s.srf (SR.PLANE_MAP (i / 8)) (i % 8 * 8) 8

/-- An entry of HOME_MAP. -/
def State.homeMap (s : State) (i : Nat) : Nat := s.srf (SR.HOME_MAP (i / 8)) (i % 8 * 8) 8

/-- SV_LIVE bit of a plane. -/
def State.svLive (s : State) (p : Nat) : Bool := bitAt (s.sr SR.SV_LIVE) p

/-- SV_NODE (R374). -/
def State.svNode (s : State) : BitVec 14 := BitVec.ofNat 14 (s.srf SR.SV_NODE 0 14)

/-- SV_CTL.RUN (R369). -/
def State.svRun (s : State) : Bool := bitAt (s.sr SR.SV_CTL) 0

/-- DEV_NODE.NODE, PLANE and rack of the QD1 (R525). -/
def State.qdNode (s : State) : BitVec 14 := BitVec.ofNat 14 (s.fl F.DEV_NODE_NODE)
def State.qdPlane (s : State) : Nat := s.fl F.DEV_NODE_PLANE
def State.qdRack (s : State) : Nat := nodeRack s.qdNode

/-- The node of the partner QD1. -/
def State.partnerNode (s : State) : BitVec 14 := mkNode s.qdRack (160 + (s.qdPlane ^^^ 1))

/-- The QD1 is in set-up state (BOOT_STS.SETUP, R522). -/
def State.inSetup (s : State) : Bool := s.flag F.BOOT_STS_SETUP

/-- A unit bit of UNIT_PRESENT (R526). -/
def State.present (s : State) (bit : Nat) : Bool := bitAt (unitPresent s.qd.variant) bit

/-- The unit exists and its clock is on (R4, R423): bit of UNIT_PRESENT and bit of CLK_ENABLE. -/
def State.unitOn (s : State) (bit clk : Nat) : Bool :=
  s.present bit && bitAt (s.rg R.CLK_ENABLE) clk

/-- Mills present (R2). -/
def millCount (v : Variant) : Nat :=
  match v with
  | .qd19 => 256
  | .qd17 => 128
  | .qd15 => 0

end Sys2Proof.Machine
end

