-- ==== Sys2Proof/Machine/Flags.lean ====
section
/-! DEFINITION. The completion statuses (R70), the event records (R493, R494) and every flag that an
event sets: rings, the global trace region and the triggers (R492-R499). -/

namespace Sys2Proof.Machine

/-! ### Completion statuses (R70) -/

namespace St
abbrev OK : BitVec 7 := 0x00
abbrev OK_DUP : BitVec 7 := 0x01
abbrev NOWIN : BitVec 7 := 0x10
abbrev STALE : BitVec 7 := 0x11
abbrev CTX : BitVec 7 := 0x12
abbrev PERM : BitVec 7 := 0x13
abbrev UNMAPPED : BitVec 7 := 0x14
abbrev BOUNDS : BitVec 7 := 0x15
abbrev KEY : BitVec 7 := 0x20
abbrev COMPL : BitVec 7 := 0x21
abbrev CHECK : BitVec 7 := 0x22
abbrev DATA : BitVec 7 := 0x30
abbrev LOST : BitVec 7 := 0x31
abbrev INDET : BitVec 7 := 0x32
abbrev ABORT : BitVec 7 := 0x33
abbrev ABSENT : BitVec 7 := 0x40
abbrev DESC : BitVec 7 := 0x41
end St

/-! ### Event categories and object kinds (R494) -/

namespace Cat
abbrev INFO := 0
abbrev REFUSED := 1
abbrev INTEGRITY := 2
abbrev TIMEOUT := 3
abbrev LINK := 4
abbrev RESOURCE := 5
abbrev FAULT := 6
abbrev SECURITY := 7
abbrev REPLAY := 8
abbrev TRIGGER := 9
end Cat

namespace Obj
abbrev NONE := 0
abbrev REG := 1
abbrev WINDOW := 2
abbrev PTE := 3
abbrev ROUTE := 4
abbrev BINDING := 5
abbrev DIRENT := 6
abbrev HBM := 7
abbrev SRAM := 8
abbrev PACKET := 9
abbrev DESC := 0xA
abbrev COLL := 0xB
abbrev KEYSLOT := 0xC
abbrev PORT := 0xD
abbrev LANE := 0xE
abbrev RSL := 0xF
abbrev PLANE := 0x10
abbrev EP := 0x11
abbrev PAIR := 0x12
abbrev LEASE := 0x13
abbrev MSGQ := 0x14
abbrev CLKREF := 0x15
abbrev THERMAL := 0x16
abbrev WAIT := 0x17
end Obj

/-! ### Unit rings (R492) -/

namespace Rg
abbrev port (n : Nat) := n
abbrev chiplet (n : Nat) := 160 + n
abbrev switch := 164
abbrev lineCache := 165
abbrev dir (sl : Nat) := 166 + sl
abbrev ctu := 182
abbrev hbm (c : Nat) := 183 + c
abbrev green := 191
abbrev mill (m : Nat) := 192 + m
abbrev ferry := 448
abbrev hm := 449
abbrev customs := 450
abbrev clock := 451
abbrev frontEnd := 452
abbrev trace := 453
end Rg

/-- UCLASS and UINDEX of a ring (R492). -/
def ringUnit (r : Nat) : Nat × Nat :=
  if r < 160 then (0x01, r)
  else if r < 164 then (0x02, r - 160)
  else if r = 164 then (0x03, 0)
  else if r = 165 then (0x04, 0)
  else if r < 182 then (0x05, r - 166)
  else if r = 182 then (0x06, 0)
  else if r < 191 then (0x07, r - 183)
  else if r = 191 then (0x08, 0)
  else if r < 448 then (0x09, r - 192)
  else (0x0A + (r - 448), 0)

/-- A stamp with its COARSE and AON flags (R426). -/
def State.stampWith (s : State) (coarse aon : Bool) : Word :=
  wd (s.qd.aon.ns.toNat + b2n (s.flag F.CLK_STS_HOLD) * 2 ^ 60 + b2n coarse * 2 ^ 61 + b2n aon * 2 ^ 62 +
    b2n (!s.qd.aon.sync) * 2 ^ 63)

/-- A stamp of the core island of the QD1 (R426). -/
def State.stamp (s : State) : Word := s.stampWith s.qd.aon.coarseC false

/-- A stamp of the unit of a ring. Below point 2 the mills run below their rated frequency, and the always-on
domain stamps for a grid that is parked or gated (R426, R427). -/
def State.stampOf (s : State) (ring : Nat) : Word :=
  if 192 ≤ ring ∧ ring < 448 then
    s.stampWith (s.qd.aon.coarseG || decide (12 < s.fl F.DVFS_STS_DIV))
      (s.qd.boot.gp || !(bitAt (s.rg R.CLK_ENABLE) 0))
  else s.stamp

/-- Count for a part's health score (R489): class, index and weighted count. -/
def State.score (s : State) (cls idx n : Nat) : State :=
  s.mapQd (fun q => { q with health := { q.health with delta := Tbl.mod q.health.delta (65536 * cls + idx) (· + n) } })

/-- The fields of an event. -/
structure Ev where
  cat : Nat
  obj : Nat := 0
  ctx : BitVec 16 := 0
  status : BitVec 7 := 0
  arg0 : Word := 0
  arg1 : Word := 0
  deriving DecidableEq, Repr

/-- An event record of a unit (R493). -/
def Ev.record (e : Ev) (stamp : Word) (uclass uindex : Nat) (trig : Bool) (total : BitVec 32) :
    EvRec :=
  { e0 := stamp
    e1 := wd (e.obj % 2 ^ 12 + e.cat % 16 * 2 ^ 12 + uclass % 256 * 2 ^ 16 + uindex % 256 * 2 ^ 24 +
      e.ctx.toNat * 2 ^ 32 + e.status.toNat * 2 ^ 48 + b2n trig * 2 ^ 55 +
      total.toNat / 256 % 256 * 2 ^ 56)
    e2 := e.arg0
    e3 := e.arg1 }

/-- A ring with a record written; SEQ is taken from TOTAL before the record is counted. -/
def EvRing.write (r : EvRing) (f : BitVec 32 → EvRec) : EvRing :=
  { recs := Tbl.put r.recs (r.total.toNat % 256) (f r.total), total := r.total + 1,
    since := r.since + 1 }

/-- Whether ring `r` is frozen (R499). -/
def State.ringFrozen (s : State) (r : Nat) : Bool :=
  match s.fl F.TR_STS_STATE with
  | 0 => false
  | 1 => decide (s.qd.trace.postN ≤ (Tbl.at s.qd.trace.rings r).since)
  | _ => true

/-- Records that the pre-trigger ring holds (R497). -/
def State.preCap (s : State) : Nat := s.fl F.TR_REGION_MIB * s.fl F.TR_REGION_PRE16 * 65536 / 32

/-- Records that the post-trigger fill holds (R497). -/
def State.postCap (s : State) : Nat :=
  s.fl F.TR_REGION_MIB * (16 - s.fl F.TR_REGION_PRE16) * 65536 / 32

/-- Write a record to the global trace region (R497). In HS it is lost and counted (R520). -/
def State.toRegion (s : State) (r : EvRec) : State :=
  if !(s.flag F.TR_CTL_GT_EN) then s
  else if s.qd.boot.hs then s.mapQd (fun q => { q with boot := { q.boot with lost := q.boot.lost + 1 } })
  else if s.fl F.TR_STS_STATE = 0 ∨
      (s.fl F.TR_STS_STATE = 1 ∧ r.e0.toNat % 2 ^ 60 ≤ (s.rg R.TR_TSTAMP).toNat % 2 ^ 60) then
    let i := s.fl F.TR_PRE_WR_PRE
    let n := max 1 s.preCap
    if s.fl F.TR_STS_STATE = 1 ∧ Tbl.at s.qd.trace.pre (i % n) ≠ default then s
    else (s.mapQd (fun q => { q with trace := { q.trace with pre := Tbl.put q.trace.pre (i % n) r } })).setFl
      F.TR_PRE_WR_PRE ((i + 1) % n)
  else if s.fl F.TR_STS_STATE = 1 ∧ s.fl F.TR_PRE_WR_POST < s.postCap then
    (s.mapQd (fun q => { q with trace := { q.trace with post := q.trace.post ++ [r] } })).setFl
      F.TR_PRE_WR_POST (s.fl F.TR_PRE_WR_POST + 1)
  else if s.postCap ≤ s.fl F.TR_PRE_WR_POST then s.count F.TR_STS_POST_DROP
  else s

/-- Write an event to its unit ring, unless frozen, and to the region. With every ring frozen and the fill full
the trace is FROZEN. -/
def State.record (s : State) (ring : Nat) (e : Ev) (trig : Bool) : State :=
  let u := ringUnit ring
  let rg := Tbl.at s.qd.trace.rings ring
  let s1 :=
    if s.ringFrozen ring then s
    else s.mapQd (fun q => { q with trace := { q.trace with
      rings := Tbl.put q.trace.rings ring (rg.write (e.record (s.stampOf ring) u.1 u.2 trig)) } })
  let s2 := s1.toRegion (e.record (s.stampOf ring) u.1 u.2 trig rg.total)
  if s2.fl F.TR_STS_STATE = 1 ∧ s2.postCap ≤ s2.fl F.TR_PRE_WR_POST ∧ (List.range 454).all (fun r => s2.ringFrozen r) then
    s2.setFl F.TR_STS_STATE 2
  else s2

/-- A trigger in ARMED is recorded: stamp, source, rings counting from zero (R499). -/
def State.openTrigger (s : State) (src : Nat) : State :=
  let s := s.mapQd (fun q => { q with trace := { q.trace with
    postN := fget (s.rg R.TR_CTL) 0 8
    rings := q.trace.rings.map (fun p => (p.1, { p.2 with since := 0 })) } })
  ((s.setRg R.TR_TSTAMP s.stamp).setFl F.TR_STS_SRC src).setFl F.TR_STS_STATE 1

/-- Take a trigger: the first in ARMED is recorded with its TRIGGER event, any other is counted
(R499). -/
def State.trigger (s : State) (src : Nat) : State :=
  if s.fl F.TR_STS_STATE = 0 then
    (s.openTrigger src).record Rg.trace
      { cat := Cat.TRIGGER, arg1 := wd src } true
  else s.countSat F.TR_STS_TRIG2

/-- Raise an event in a unit ring. An event whose category is in TRIG_MASK is an error trigger
(R498). -/
def State.event (s : State) (ring : Nat) (e : Ev) : State :=
  if bitAt (s.rg R.TR_CTL) (44 + e.cat) && decide (e.cat ≠ Cat.TRIGGER) then
    if s.fl F.TR_STS_STATE = 0 then
      ((s.openTrigger 1).record ring e true).record Rg.trace
        { cat := Cat.TRIGGER, arg1 := 1 } true
    else (s.record ring e false).countSat F.TR_STS_TRIG2
  else s.record ring e false

/-- Raise an event in the Svapo block's own ring (R369, R492). Its stamp is a free value: the spec
gives the block no timebase (log entry 11). -/
def State.svEvent (s : State) (uindex : Nat) (e : Ev) : State :=
  let d := draw 60 s
  let r := e.record (wd d.1.toNat) 0x10 uindex false
  let s := d.2.mapSv (fun v => { v with ring := v.ring.write r })
  let s := s.setSrf SR.SV_CTL 24 8 (s.srf SR.SV_CTL 24 8 + 1)
  if bitAt (s.sr SR.SV_CTL) 1 then emit s (.pin "IP_EVT" true) else s

/-- A register write or command that is dropped raises a REFUSED event with the value written. -/
def State.refused (s : State) (ring off : Nat) (v : Word) : State :=
  s.event ring { cat := Cat.REFUSED, obj := Obj.REG, arg0 := wd off, arg1 := v }

/-- The same at a Svapo block. -/
def State.svRefused (s : State) (off : Nat) (v : Word) : State :=
  s.svEvent 0xFF { cat := Cat.REFUSED, obj := Obj.REG, arg0 := wd off, arg1 := v }

/-- The ring of the unit that owns a register block (R492, R523). -/
def blockRing (off : Nat) : Nat :=
  match off / 2 ^ 24 with
  | 2 => Rg.clock
  | 4 => Rg.chiplet 0
  | 5 => Rg.switch
  | 6 => Rg.dir 0
  | 7 => Rg.green
  | 10 => Rg.customs
  | 12 => Rg.trace
  | 13 => Rg.hbm 0
  | _ => Rg.hm

end Sys2Proof.Machine
end

