-- ==== Sys2Proof/Machine/Ledger.lean ====
section
/-! DEFINITION. The Ledger's journal: records, segments and their headers (R504, R505). -/

namespace Sys2Proof.Machine

/-! ### Record types (R505) -/

namespace Lg
abbrev PAD := 0
abbrev DESC := 1
abbrev MSG := 2
abbrev INDIG := 3
abbrev WATCH := 4
abbrev COMBINE := 5
abbrev ATOMORD := 6
abbrev SATOM := 7
abbrev LOOP := 8
abbrev PLACE := 9
abbrev MARK := 0xA
end Lg

/-- Change the Ledger. -/
def State.mapLedger (s : State) (f : Ledger → Ledger) : State :=
  s.mapQd (fun q => { q with trace := { q.trace with ledger := f q.trace.ledger } })

/-- A record: its header and its body, zero-filled to whole 16-byte units. -/
def lgRecord (stamp : Word) (typ : Nat) (ctx : BitVec 16) (uclass uindex : Nat) (body : List Byte) :
    List Byte :=
  let n := 1 + (body.length + 15) / 16
  wordBytes stamp ++
  wordBytes (wd (typ % 256 + n % 4096 * 2 ^ 8 + ctx.toNat * 2 ^ 20 + uclass % 256 * 2 ^ 36 +
    uindex % 256 * 2 ^ 44)) ++ slice body 0 (16 * (n - 1))

/-- Segments that the region holds: GIB GiB of 64 KiB. -/
def State.lgSegs (s : State) : Nat := s.fl F.LG_CTL_GIB * 16384

/-- The bytes of a segment: header, records and padding. -/
def State.lgSegment (s : State) (l : Ledger) (segno : Nat) : List Byte :=
  let room := 65536 - 64 - l.cur.length
  let pad := if room = 0 then [] else lgRecord s.stamp Lg.PAD 0 0x0F 0 (List.replicate (room - 16) 0)
  let tail := slice s.qd.boot.mfw 0 16 ++ [BitVec.ofNat 8 (b2n l.gap)] ++ List.replicate 15 0 ++
    slice (l.cur ++ pad) 0 (65536 - 64)
  bytesOf 4 0x47444C51 ++ bytesOf 4 segno ++ bytesOf 8 l.first ++ wordBytes s.qd.boot.bootId ++
  bytesOf 2 s.qdNode.toNat ++ bytesOf 1 s.qdPlane ++ bytesOf 1 (variantNo s.qd.variant) ++
  bytesOf 4 (crc32c tail).toNat ++ tail

/-- Close the open segment and start the next; a region that does not wrap stops full. -/
def State.lgClose (s : State) (gap : Bool) : State :=
  let l := s.qd.trace.ledger
  let n := s.fl F.LG_STS_SEGNO
  let seg := s.lgSegment l n
  let s := s.mapLedger (fun l => { l with
    segs := Tbl.put l.segs (n % max 1 s.lgSegs) seg, cur := [], first := l.next, gap := gap })
  let s := s.setFl F.LG_STS_SEGNO (n + 1)
  if !(s.flag F.LG_CTL_WRAP) && decide (s.lgSegs ≤ n + 1) then s.setFl F.LG_STS_FULL 1 else s

/-- Append a record to the journal, whatever the context selection. In HS it is lost and counted (R520). -/
def State.lgWrite (s : State) (typ : Nat) (ctx : BitVec 16) (uclass uindex : Nat) (body : List Byte) :
    State :=
  if s.flag F.LG_STS_FULL then s
  else if s.qd.boot.hs then s.mapQd (fun q => { q with boot := { q.boot with lost := q.boot.lost + 1 } })
  else
    let r := lgRecord s.stamp typ ctx uclass uindex body
    let s := if s.qd.trace.ledger.cur.length + r.length ≤ 65536 - 64 then s else s.lgClose false
    s.mapLedger (fun l => { l with cur := l.cur ++ r, next := l.next + 1 })

/-- Whether the journal takes records of a context. -/
def State.lgTakes (s : State) (ctx : BitVec 16) : Bool :=
  s.flag F.LG_CTL_EN &&
  (!(s.flag F.LG_CTL_CTXF) ||
    (List.range 4).any (fun i => decide (fget (s.rg R.LG_CTX) (16 * i) 16 = ctx.toNat) &&
      decide (ctx ≠ 0)))

/-- Journal a record of a context (R504). -/
def State.journal (s : State) (typ : Nat) (ctx : BitVec 16) (uclass uindex : Nat)
    (body : List Byte) : State :=
  if s.lgTakes ctx then s.lgWrite typ ctx uclass uindex body else s

/-- The key of an atomic in a record: SRC, QUE, TAG, TSEQ and a last byte. -/
def keyBytes (k : ReplayKey) (last : Nat) : List Byte :=
  bytesOf 2 k.src.toNat ++ bytesOf 2 k.que.toNat ++ bytesOf 2 k.tag.toNat ++ [k.tseq] ++
  bytesOf 1 last

/-- Note a Granary atomic; atomics of two or more (SRC, QUE) to one line within 1 µs of each other
are journalled in their order (R505). -/
def State.noteAtomic (s : State) (addr : Nat) (k : ReplayKey) (ctx : BitVec 16) (opc : Nat) : State :=
  let now := s.qd.aon.ns.toNat
  let line := addr / 128 * 128
  let l := (s.qd.trace.ledger.atoms.filter (fun a => decide (now ≤ a.2.2.2 + 1000))) ++
    [(line, k, opc, now)]
  let s := s.mapLedger (fun g => { g with atoms := l })
  let m := l.filter (fun a => a.1 == line)
  if m.any (fun a => decide (a.2.1.src ≠ k.src) || decide (a.2.1.que ≠ k.que)) then
    s.journal Lg.ATOMORD ctx 0x04 0
      (bytesOf 8 line ++ bytesOf 2 m.length ++ List.replicate 6 0 ++
        m.flatMap (fun a => keyBytes a.2.1 a.2.2.1))
  else s

/-- A replay runs (R506). -/
def State.replaying (s : State) : Bool := s.fl F.LG_RSTS_STATE == 1

/-- A replay ends: its descriptors, and the collectives that they opened, are gone. -/
def State.replayEnd (s : State) (st : Nat) : State :=
  let mine := fun (k : Nat) (r : BitVec 32) => (Tbl.at s.qd.rings.qs k).descs.any (fun d => d.ridx == r && d.replay)
  let s := s.mapQd (fun q => { q with green := { q.green with
    colls := q.green.colls.filter (fun c => !(c.mems.any (fun m => mine m.key m.ridx))) } })
  let s := s.mapRings (fun r => { r with qs := r.qs.map (fun x =>
    (x.1, { x.2 with descs := x.2.descs.filter (fun d => !d.replay) })) })
  (s.mapLedger (fun l => { l with todo := [], expect := [], places := [] })).setFl F.LG_RSTS_STATE st

/-- A comparison of a replay has failed: a REPLAY event, an error trigger, and the end of the replay when
RP_STOP is 1 (R506). -/
def State.replayMiss (s : State) (no : Nat) (typ : Nat) : State :=
  let s := if s.flag F.LG_RSTS_MATCH then s.setRg R.LG_RFIRST (wd no) else s
  let s := (s.setFl F.LG_RSTS_MATCH 0).count F.LG_RSTS_MISMATCH
  let s := if s.flag F.LG_CTL_RP_STOP then s.replayEnd 3 else s
  let ev : Ev := { cat := Cat.REPLAY, arg0 := wd no, arg1 := wd typ }
  let s' := s.event Rg.trace ev
  if bitAt (s.rg R.TR_CTL) (44 + Cat.REPLAY) then s' else s'.trigger 1

/-- Compare the body of a record that a replay makes with the recorded one: the first of its type that
`same` finds to be of the same item; `eq` compares the two bodies (R506). -/
def State.compare (s : State) (typ : Nat) (same eq : List Byte → Bool) : State :=
  if !s.replaying then s
  else match s.qd.trace.ledger.expect.findIdx? (fun r =>
      natOf (slice r.2 8 1) == typ && same (r.2.drop 16)) with
  | none => s
  | some i =>
    match s.qd.trace.ledger.expect[i]? with
    | none => s
    | some r =>
      let s := s.mapLedger (fun l => { l with expect := l.expect.eraseIdx i })
      if eq (r.2.drop 16) then s else s.replayMiss r.1 typ

/-- Journal the digest of an input: fabric address, length and the first 128 bits of SHA3-512 of
the plaintext (INDIG). -/
def State.indig (s : State) (ctx : BitVec 16) (uclass uindex : Nat) (fa : Word) (d : List Byte) :
    State :=
  let body := wordBytes fa ++ bytesOf 4 d.length ++ bytesOf 4 0 ++ bytesOf 16 (Config.sha3 d).toNat
  (s.compare Lg.INDIG (fun r => slice r 0 12 == slice body 0 12) (fun r => slice r 16 16 == slice body 16 16)).journal
    Lg.INDIG ctx uclass uindex body

end Sys2Proof.Machine
end

