-- ==== Sys2Proof/Machine/Windows.lean ====
section
/-! DEFINITION. Windows: the checks of R30, translations (R28-R34), table loads (R375, R527),
withdrawal (R41-R45, R555), apertures and pointer conversion (R20-R25). -/

namespace Sys2Proof.Machine

/-! ### State of the pair -/

/-- FT_STS.PAIR (R469). -/
def State.pair (s : State) : Nat := s.fl F.FT_STS_PAIR

/-- Mirrored updates reach both copies and wait for the partner: while PAIRED, LOADING or READY, and
while the resync set is copied (R117, R475, R476). -/
def State.mirroring (s : State) : Bool :=
  s.pair == 0 || s.pair == 2 || s.pair == 3 || (s.pair == 1 && s.qd.fault.copying)

/-- Writes of a mirrored page of a responder reach the other QD1 too: the own node's, and while a spare is
loaded those of the node that is served for it (R476). -/
def State.mirrorsTo (s : State) (b : Bank) : Bool :=
  match b with
  | .own => s.mirroring
  | .mir => s.pair == 2 || s.pair == 3
  | .sv => false

/-- A mirroring message about a responder's node. -/
def homeOf (b : Bank) (m : MirrorMsg) : MirrorMsg := if b = .mir then .home m else m

/-- A key slot of a node (R378, R464). -/
def State.keySlot (s : State) (b : Bank) (k : Nat) : KeySlot :=
  match b with
  | .sv => Tbl.at s.sv.keys k
  | _ => Tbl.at s.qd.cust.keys k

/-- Check 6 of R30: a key slot is active at a destination when it is active or retiring (R444). -/
def State.keyAtDest (s : State) (b : Bank) (k : Nat) : Bool :=
  decide ((s.keySlot b k).st = 1) || decide ((s.keySlot b k).st = 2)

/-- A key slot is active at a source only in STATE 1 (R444). -/
def State.keyAtSource (s : State) (b : Bank) (k : Nat) : Bool := decide ((s.keySlot b k).st = 1)

/-- A window-table entry. -/
def State.wte (s : State) (b : Bank) (w : Nat) : Entry := Tbl.at (s.node b).wt w

/-- The state with a window-table entry replaced. -/
def State.setWte (s : State) (b : Bank) (w : Nat) (e : Entry) : State :=
  s.mapNode b (fun n => { n with wt := Tbl.put n.wt w e })

/-- The window that a waiting request names. -/
def Waiting.win (x : Waiting) : Nat :=
  match x.pkts with
  | p :: _ => p.win
  | [] => 64

/-- The in-use count of a window (R30, R44): admitted requests not yet performed; a tile counts once,
by its registration. -/
def State.inUse (s : State) (b : Bank) (w : Nat) : Nat :=
  ((s.node b).waits.filter (fun x => x.admitted.isSome && x.win == w &&
    x.pkts.all (fun p => p.geom.isNone))).length +
  ((s.node b).tiles.filter (fun t => t.win == w)).length +
  (s.qd.node.mirrors.filter (fun m => match m.then_ with
    | .write b' p _ _ => b' == b && p.win == w && p.geom.isNone
    | _ => false)).length +
  (match b with
   | .sv => (s.sv.inbound.filter (fun i => i.win == w && i.kind != 0 &&
       i.pkts.all (fun p => p.geom.isNone))).length
   | _ => 0)

/-! ### Translation (R28-R32) -/

/-- A page-table entry maps its page (R29). -/
def pteMapped (s : State) (b : Bank) (e : Entry) (pte : Word) : Bool :=
  bitAt pte 0 && fget pte 2 14 == 0 && (fget pte 16 48 * 65536) % e.pageSize == 0 &&
  (match b with
   | .sv => true
   | _ => decide (fget pte 16 48 * 65536 + e.pageSize ≤ granarySize s.qd.variant))

/-- The cached or prefetched translation of a page (R31, R34). -/
def State.transOf (s : State) (b : Bank) (w : Nat) (gen : Byte) (page : Nat) : Option Trans :=
  let t := fun (x : Trans) => x.win == w && x.page == page && x.gen == gen.toNat
  match (s.node b).trans.find? t with
  | some x => some x
  | none => ((s.node b).streams.flatMap (fun st => st.buf)).find? t

/-- Translations that a node caches: 65,536 in the central translation unit (R30), 1,024 in a
Svapo block (R375). -/
def transCap (b : Bank) : Nat :=
  match b with
  | .sv => 1024
  | _ => 65536

/-- Keep a translation; the oldest unpinned one makes room (R31). -/
def State.addTrans (s : State) (b : Bank) (t : Trans) : State :=
  s.mapNode b (fun n =>
    let l := if n.trans.length < transCap b then n.trans
      else match n.trans.findIdx? (fun x => !x.pinned) with
        | some i => n.trans.eraseIdx i
        | none => n.trans
    { n with trans := l ++ [t] })

/-- Local address of an offset of a window under held translations (R26, R28). -/
def Entry.phys (e : Entry) (tr : List Trans) (off : Nat) : Nat :=
  if e.pgsz = 3 then e.baseAddr + off
  else match tr.find? (fun t => t.page == off / e.pageSize) with
    | some t => fget t.pte 16 48 * 65536 + off % e.pageSize
    | none => 0

/-- Address of the page-table entry of a page (R28). -/
def Entry.pteAddr (e : Entry) (page : Nat) : Nat := e.baseAddr + 8 * page

/-- Pages that a run of offsets touches, each with its first touched offset. -/
def runPages (ps off n : Nat) : List (Nat × Nat) :=
  if n = 0 then []
  else (List.range ((off + n - 1) / ps - off / ps + 1)).map (fun i =>
    let p := off / ps + i
    (p, max off (p * ps)))

/-- Pages that a request touches, each with its first touched offset. -/
def Entry.pagesOf (e : Entry) (p : Packet) : List (Nat × Nat) :=
  if e.pgsz = 3 then [] else p.runs.flatMap (fun r => runPages e.pageSize r.1 r.2)

/-- The translations that an admitted request holds. -/
def State.gather (s : State) (b : Bank) (w : Nat) (e : Entry) (p : Packet) : List Trans :=
  (e.pagesOf p).filterMap (fun q => s.transOf b w e.gen q.1)

/-- Local addresses and lengths of `n` bytes at an offset. -/
def Entry.physRuns (e : Entry) (tr : List Trans) (off n : Nat) : List (Nat × Nat) :=
  if e.pgsz = 3 then (if n = 0 then [] else [(e.baseAddr + off, n)])
  else (runPages e.pageSize off n).map (fun q =>
    (e.phys tr q.2, min (off + n) ((q.1 + 1) * e.pageSize) - q.2))

/-! ### The nine checks of R30 -/

/-- What the window checks say of a request. -/
inductive Verdict where
  | ok
  /-- The first failing check's status, and the offset that R47 asks for. -/
  | fail (st : BitVec 7) (off : Option Nat)
  /-- Check 1 failed. -/
  | broken
  /-- The translation of a page must be read. -/
  | page (p : Nat)
  deriving DecidableEq, Repr

/-- The permission bit that an opcode needs (R26, check 5 of R30). MSG and FENCE need none. -/
def opcRight (opc : Nat) (e : Entry) : Bool :=
  if opc == Opc.LD || opc == Opc.TRD then e.rd
  else if opc == Opc.ST || opc == Opc.STA || opc == Opc.STM || opc == Opc.STMA || opc == Opc.TWR then
    e.wr
  else if opcIsAtomic opc || opc == Opc.RED || opc == Opc.REDA then e.atm
  else if opc == Opc.RDSH || opc == Opc.RDOWN || opc == Opc.RDNA then e.coh && e.rd
  else if opc == Opc.WBD then e.coh && e.wr
  else if opcIsCoh opc then e.coh
  else opc == Opc.MSG

/-- Opcodes that check 9 of R30 concerns: writes, atomics and RED. -/
def opcWrites (opc : Nat) : Bool :=
  (decide (0x10 ≤ opc) && decide (opc ≤ 0x13)) || opcIsAtomic opc || opc == Opc.RED ||
  opc == Opc.REDA || opc == Opc.TWR || opc == Opc.WBD

/-- Index of a coherent line's home in HOME_MAP (R37). -/
def homeIdx (a : Word) : Nat :=
  ((fget a 7 16) ^^^ (fget a 23 16) ^^^ (fget a 39 16) ^^^ (fget a 55 9)) % 144

/-- A request to a coherent window of a Svapo block that does not come from the line's home QD1 as
a read or write of a whole line (R140). -/
def cohForeign (s : State) (p : Packet) : Bool :=
  !(opcIsCoh p.opc) &&
  !((p.opc == Opc.LD || p.opc == Opc.STA) && p.len == 128 && p.off % 128 == 0 &&
    decide (nodeSlot p.src = 160 + s.homeMap (homeIdx p.fabric)))

/-- Operations that a QD1 refuses on a protected window (R63). -/
def opcPartial (opc : Nat) : Bool :=
  opc == Opc.STM || opc == Opc.STMA || opcIsAtomic opc || opc == Opc.RED || opc == Opc.REDA

/-- Checks 1 to 7 of R30 against an entry, with R63 at check 5. A QD1 delivers no message to a
Granary window (log entry 12). -/
def checkEntry (s : State) (b : Bank) (e : Entry) (p : Packet) : Verdict :=
  if !e.complOk then .broken
  else if e.state = 0 then .fail St.NOWIN none
  else if e.state ≠ 1 ∨ p.gen ≠ e.gen then .fail St.STALE none
  else if e.ctx ≠ 0xFFFF ∧ e.ctx ≠ p.ctx then .fail St.CTX none
  else if !(opcRight p.opc e) || (e.prot && decide (p.kslot ≠ e.kslot)) ||
      (decide (b ≠ .sv) && (p.opc == Opc.MSG || (e.prot && opcPartial p.opc))) ||
      (decide (b = .sv) && e.coh && cohForeign s p) then
    .fail St.PERM none
  else if e.prot && !(s.keyAtDest b e.kslot.toNat) then .fail St.KEY none
  else if e.limit < p.endOff then .fail St.BOUNDS none
  else .ok

/-- Check 8 of R30 over pages in the order in which their bytes come. -/
def checkPages (s : State) (b : Bank) (w : Nat) (e : Entry) : List (Nat × Nat) → Verdict
  | [] => .ok
  | (pg, off) :: rest =>
    match s.transOf b w e.gen pg with
    | none => .page pg
    | some t => if pteMapped s b e t.pte then checkPages s b w e rest
                else .fail St.UNMAPPED (some off)

/-- Checks 8 and 9 of R30 for an admitted request. -/
def checkMap (s : State) (b : Bank) (w : Nat) (e : Entry) (p : Packet) : Verdict :=
  if e.pgsz = 3 ∨ p.opc = Opc.MSG then .ok
  else
    let pages := e.pagesOf p
    match checkPages s b w e pages with
    | .ok =>
      if opcWrites p.opc && pages.any (fun q => match s.transOf b w e.gen q.1 with
          | some t => bitAt t.pte 1
          | none => false) then .fail St.PERM none
      else .ok
    | v => v

/-- Drop every cached and prefetched translation of a window (step 4 of R41). -/
def State.dropTrans (s : State) (b : Bank) (w : Nat) : State :=
  s.mapNode b (fun n => { n with
    trans := n.trans.filter (fun t => t.win != w)
    streams := n.streams.map (fun st => { st with buf := st.buf.filter (fun t => t.win != w) }) })

/-- The first word of an entry that is not the complement of its copy. -/
def Entry.mismatch (e : Entry) : Word :=
  if e.n0 ≠ ~~~ e.w0 then e.w0 else if e.n1 ≠ ~~~ e.w1 then e.w1
  else if e.n2 ≠ ~~~ e.w2 then e.w2 else e.w3

/-- An event of a responder: in the central translation unit's ring, or the Svapo block's. -/
def State.nodeEvent (s : State) (b : Bank) (e : Ev) : State :=
  match b with
  | .sv => s.svEvent 0xFF e
  | _ => s.event Rg.ctu e

/-- Queue a mirrored update with the next number, and send it. -/
def State.mirror (s : State) (msgs : Nat → List Out) (then_ : MirrorThen) (answers lost : List Out)
    (strm : Option (Via × BitVec 14 × BitVec 10 × BitVec 2) := none) : State :=
  let id := s.qd.node.nextId
  let s := s.mapNode .own (fun n => { n with
    nextId := n.nextId + 1
    mirrors := n.mirrors ++ [{ id := id, then_ := then_, answers := answers, lost := lost,
                               need := (msgs id).length, strm := strm }] })
  emits s (msgs id)

/-- A window-table entry that fails its complement: an INTEGRITY event, and the entry drained as by a
withdrawal, which the partner's copy follows; a withdrawal in progress goes on (check 1 of R30, R555). -/
def State.breakEntry (s : State) (b : Bank) (w : Nat) : State :=
  let e := s.wte b w
  let follows := decide (e.mir ∧ b = .own) && s.mirroring
  let s := s.nodeEvent b { cat := Cat.INTEGRITY, obj := Obj.WINDOW, arg0 := wd w, arg1 := e.mismatch }
  let s := if b = .sv then s else s.score 8 0 256
  let s := (s.setWte b w e.drained).dropTrans b w
  if follows then s.mirror (fun id => [.mirrorWithdraw id w e.drained.w2]) .nothing [] []
  else s

/-! ### Table loads -/

/-- Number of a register source among the four of R533. -/
def srcIdx : RegSrc → Nat
  | .rslA => 0
  | .rslB => 1
  | .fabric => 2
  | _ => 3

/-- A staged word of WT_DATA (table 0) or SQ_DATA (table 1) of a source (R538). -/
def State.staged (s : State) (src : RegSrc) (table i : Nat) : Word :=
  Tbl.at s.qd.stage (64 * srcIdx src + 8 * table + i)

/-- Write a staged word. -/
def State.setStaged (s : State) (src : RegSrc) (table i : Nat) (v : Word) : State :=
  s.mapQd (fun q => { q with stage := Tbl.put q.stage (64 * srcIdx src + 8 * table + i) v })

/-- Pages that an entry pins (R32): none for a direct window. -/
def Entry.pins (e : Entry) : Nat :=
  if e.state = 1 ∧ e.pin ∧ e.pgsz ≠ 3 then e.limit / e.pageSize else 0

/-- CTU_STS.PINNED (R32). -/
def State.pinned (s : State) : Nat :=
  ((List.range 48).map (fun w => (s.wte .own w).pins)).foldl (· + ·) 0

/-- The load checks 1 to 8 of R527, with the partner's check 9 for a pair that is not PAIRED. -/
def wtLoadStatus (s : State) (src : RegSrc) (w : Nat) (e : Entry) : BitVec 7 :=
  let ps := if e.pgsz = 3 then 65536 else e.pageSize
  if 47 < w then St.NOWIN
  else if (s.wte .own w).state ≠ 0 then St.PERM
  else if e.state ≠ 1 ∨ fget e.w0 0 16 ≠ 0 ∨ fget e.w1 45 19 ≠ 0 ∨ fget e.w2 42 22 ≠ 0 ∨ e.w3 ≠ 0 then
    St.DESC
  else if e.coh then St.DESC
  else if (e.prot ∧ e.ctx = 0xFFFF) ∨ (e.ctx = 0 ∧ ¬(src = .hm ∧ s.inSetup)) then St.DESC
  else if e.limit = 0 ∨ e.limit % ps ≠ 0 ∨ 2 ^ 44 < e.limit then St.DESC
  else if (if e.pgsz = 3 then granarySize s.qd.variant < e.baseAddr + e.limit
      else granarySize s.qd.variant < e.baseAddr + e.limit / e.pageSize * 8) then St.BOUNDS
  else if 16384 < s.pinned + e.pins then St.BOUNDS
  else if e.mir ∧ s.pair ≠ 0 then St.LOST
  else St.OK

/-- Record the outcome of a table load in WT_STS. -/
def State.setWtSts (s : State) (w : Nat) (st : BitVec 7) : State :=
  (s.setFl F.WT_STS_STATUS st.toNat).setFl F.WT_STS_INDEX w

/-- Load the staged entry of a source into a window (R527). A mirrored entry is written when the
partner has acknowledged it. -/
def wtCmd (src : RegSrc) (v : Word) (ans : BitVec 7 → List Out) (s : State) : State :=
  let w := fget v 0 6
  let e := mkEntry (s.staged src 0 0) (s.staged src 0 1) (s.staged src 0 2) (s.staged src 0 3)
  let st := wtLoadStatus s src w e
  if st ≠ St.OK then
    emits ((s.event Rg.ctu { cat := Cat.REFUSED, obj := Obj.WINDOW, status := st, arg0 := wd w,
                             arg1 := v }).setWtSts w st) (ans st)
  else if e.mir then
    s.mirror (fun id => [.mirror (.window id (Fin.ofNat 48 w) e.w0 e.w1 e.w2 e.w3)]) (.window w e)
      (ans St.OK) (ans St.LOST)
  else emits ((s.setWte .own w e).setWtSts w St.OK) (ans St.OK)

/-- The answer to a register command from a source. -/
def regAns (src : RegSrc) (st : BitVec 7) : List Out := [.regAnswer src st 0]

/-- WT_CMD. -/
def execWtCmd (src : RegSrc) (v : Word) (s : State) : Res := .next (wtCmd src v (regAns src) s)

/-- SV_WT_CMD: write the staged bytes with their complement, or reject them with an event (R375). -/
def svWtCmd (v : Word) (s : State) : BitVec 7 × State :=
  let w := fget v 0 6
  let e := mkEntry (s.sr (SR.SV_WT_DATA 0)) (s.sr (SR.SV_WT_DATA 1)) (s.sr (SR.SV_WT_DATA 2))
    (s.sr (SR.SV_WT_DATA 3))
  if (s.wte .sv w).state ≠ 0 ∨ e.mir ∨ e.pin ∨ (e.prot ∧ e.ctx = 0xFFFF) then
    (St.PERM, s.svEvent 0xFF { cat := Cat.REFUSED, obj := Obj.WINDOW, arg0 := wd w, arg1 := v })
  else (St.OK, s.setWte .sv w e)

/-- SV_WT_CMD. -/
def execSvWtCmd (v : Word) (s : State) : Res :=
  .next (let r := svWtCmd v s; emits r.2 (regAns .channel r.1))

/-! ### Withdrawal (R41-R43, R555) -/

/-- Windows of a responder that can be withdrawn: 48 at a QD1, 64 at a Svapo block (R16, R18). -/
def winCount : Bank → Nat
  | .sv => 64
  | _ => 48

/-- Step 2 of R41 and the invalidation of step 4. -/
def State.drain (s : State) (b : Bank) (w : Nat) : State :=
  (s.setWte b w (s.wte b w).drained).dropTrans b w

/-- Start a withdrawal. A window out of range or not in STATE 1 is refused (R369, R525). A mirrored
window's update goes to the partner, and the write completes when the partner has it (R555). -/
def winWithdraw (b : Bank) (w : Nat) (v : Word) (ans : BitVec 7 → List Out) (s : State) : State :=
  if winCount b ≤ w ∨ (s.wte b w).state ≠ 1 then
    let s := match b with
      | .sv => s.svRefused SR.WIN_WITHDRAW v
      | _ => s.refused Rg.ctu R.WIN_WITHDRAW v
    emits s (ans St.PERM)
  else
    let s := s.drain b w
    if (s.wte b w).mir ∧ b = .own ∧ s.mirroring then
      s.mirror (fun id => [.mirrorWithdraw id w (s.wte b w).w2]) .nothing (ans St.OK) (ans St.OK)
    else emits s (ans St.OK)

/-- WIN_WITHDRAW. -/
def execWinWithdraw (d : Side) (src : RegSrc) (v : Word) (s : State) : Res :=
  .next (winWithdraw (bankOf d) (fget v 0 6) v (regAns src) s)

/-- The partner's copy takes the STATE and GEN of a withdrawal, and the update is acknowledged
(R555). -/
def execMirrorWithdrawUpdate (id : Nat) (win : Fin 48) (w2 : Word) (s : State) : Res :=
  .next (emit ((s.setWte .mir win.val ((s.wte .mir win.val).withW2 w2)).dropTrans .mir win.val)
    (.mirrorAck id))

/-- A draining window whose in-use count is zero takes STATE 0 (step 6 of R41); its mirror copy
follows (R555). -/
def withdrawComplete (b : Bank) (w : Nat) (s : State) : State :=
  if (s.wte b w).state = 2 ∧ s.inUse b w = 0 then
    let s := (s.setWte b w ((s.wte b w).withState 0)).dropTrans b w
    if (s.wte b w).mir ∧ b = .own ∧ s.mirroring then
      s.mirror (fun id => [.mirrorWithdraw id w (s.wte b w).w2]) .nothing [] []
    else s
  else s

/-- WITHDRAW_COMPLETE. While the QD1 serves the lost partner, its draining mirror copies complete in
the same way (R555). -/
def execWithdrawComplete (d : Side) (win : Fin 64) (s : State) : Res :=
  .next (
    let s := withdrawComplete (bankOf d) win.val s
    if d = .qd ∧ s.qd.fault.takeover then withdrawComplete .mir win.val s else s)

/-- WITHDRAW_TIMEOUT: the count is above zero when WIN_WD_TIMEOUT has passed; an event carries it and
the wait goes on (R42). -/
def execWithdrawTimeout (d : Side) (win : Fin 64) (s : State) : Res :=
  .next (
    let b := bankOf d
    let n := s.inUse b win.val
    if (s.wte b win.val).state = 2 ∧ 0 < n then
      s.nodeEvent b { cat := Cat.TIMEOUT, obj := Obj.WINDOW, arg0 := wd (win.val + n % 2 ^ 32 * 2 ^ 32),
                      arg1 := wd (match d with
                        | .qd => s.fl F.WIN_WD_TMO_TMO * 1000
                        | .sv => 100000) }
    else s)

/-- WINDOW_TABLE_SCRUB: every entry is compared with its complement (R484). -/
def execWindowTableScrub (d : Side) (s : State) : Res :=
  .next ((List.range (winCount (bankOf d))).foldl (fun s w =>
    if (s.wte (bankOf d) w).complOk then s else s.breakEntry (bankOf d) w) s)

/-! ### Stream prefetch (R34) -/

/-- Tile `k` of a stream as a geometry-free list of its pages. -/
def Stream.pages (st : Stream) (ps k : Nat) : List Nat :=
  ((List.range st.rows).flatMap (fun r =>
    (runPages ps (st.base + k * st.step + r * st.stride) st.rowLen).map (·.1))).eraseDups

/-- STREAM_PREFETCH: read into the stream's buffer the translations that its next LOOKAHEAD tiles
need and the unit does not hold (R34). -/
def execStreamPrefetch (id : Nat) (s : State) : Res :=
  .next (
    match s.qd.node.streams.find? (fun st => st.id == id && st.prefetch) with
    | none => s
    | some st =>
      let e := s.wte .own st.win
      if e.state ≠ 1 ∨ e.pgsz = 3 then s
      else
        let tiles := (List.range (s.fl F.CTU_CTL_LOOKAHEAD)).map (fun k => st.next + k)
        let pages := (tiles.flatMap (fun k => st.pages e.pageSize k)).eraseDups
        let need := pages.filter (fun pg => (s.transOf .own st.win e.gen pg).isNone &&
          decide (pg * e.pageSize < e.limit) && s.qd.hbm.good (e.pteAddr pg) 8)
        let fresh := (need.map (fun pg => (⟨st.win, pg, e.gen.toNat,
          wd (natOf (s.qd.hbm.read (e.pteAddr pg) 8)), false⟩ : Trans))).filter
            (fun t => pteMapped s .own e t.pte)
        s.mapNode .own (fun n => { n with streams := n.streams.map (fun x =>
          if x.id == id then { x with buf := (x.buf.filter (fun t => pages.contains t.page)) ++ fresh }
          else x) }))

/-! ### Outbound apertures (R20-R25) -/

def State.apLbase (s : State) (i : Nat) : Nat := (s.sr (SR.APERTURE i 0)).toNat
def State.apLsize (s : State) (i : Nat) : Nat := (s.sr (SR.APERTURE i 1)).toNat
def State.apFbase (s : State) (i : Nat) : Nat := (s.sr (SR.APERTURE i 2)).toNat
def State.apW3 (s : State) (i : Nat) : Word := s.sr (SR.APERTURE i 3)

/-- The rules of R22 on an entry's words. -/
def apertureOk (w0 w1 w2 w3 : Word) : Bool :=
  decide (w0.toNat + w1.toNat ≤ 2 ^ 63) && decide (faOff w2 + w1.toNat ≤ 2 ^ 44) &&
  !(slotReserved (nodeSlot (faNode w2))) && fget w2 0 16 == 0 && fget w0 0 16 == 0 &&
  fget w1 0 16 == 0 && fget w3 33 31 == 0

/-- Write one word of an aperture entry, or reject it with an event (R22). -/
def apertureWrite (i w : Nat) (v : Word) (s : State) : BitVec 7 × State :=
  let g := fun k => if k = w then v else s.sr (SR.APERTURE i k)
  if apertureOk (g 0) (g 1) (g 2) (g 3) then (St.OK, s.setSr (SR.APERTURE i w) v)
  else (St.PERM, s.svRefused (SR.APERTURE i w) v)

/-- APERTURE_WRITE. -/
def execApertureWrite (i : Fin 256) (w : Fin 4) (v : Word) (s : State) : Res :=
  .next (let r := apertureWrite i.val w.val v s; emits r.2 (regAns .channel r.1))

/-- The lowest-indexed entry that a local address matches (R21). -/
def State.apMatch (s : State) (a : Nat) : Option Nat :=
  (List.range 256).find? (fun i =>
    decide (s.apLbase i ≤ a) && decide (a < s.apLbase i + s.apLsize i))

/-- The fabric address of a local address, all ones on a miss (R21, R24). -/
def State.l2f (s : State) (a : Word) : Word :=
  match s.apMatch a.toNat with
  | some i => wd (s.apFbase i + (a.toNat - s.apLbase i))
  | none => ~~~ 0

/-- The local address of a fabric address, all ones on a miss (R24). -/
def State.f2l (s : State) (a : Word) : Word :=
  match (List.range 256).find? (fun i =>
      decide (s.apFbase i ≤ a.toNat) && decide (a.toNat < s.apFbase i + s.apLsize i)) with
  | some i => wd (s.apLbase i + (a.toNat - s.apFbase i))
  | none => ~~~ 0

/-- SV_PTR_L2F: the lookup is made at the write, and its result is held (R25). -/
def execSvPtrL2f (v : Word) (s : State) : Res :=
  .next (emits (s.setSr SR.SV_PTR_L2F (s.l2f v)) (regAns .channel St.OK))

/-- SV_PTR_F2L: the reverse lookup (R25). -/
def execSvPtrF2l (v : Word) (s : State) : Res :=
  .next (emits (s.setSr SR.SV_PTR_F2L (s.f2l v)) (regAns .channel St.OK))

end Sys2Proof.Machine
end

