-- ==== Sys2Proof/Machine/Respond.lean ====
section
/-! DEFINITION. The responder: receive checks (R69), the performance of requests at a QD1 and at a
Svapo block (R59, R61, R62, R117, R120, R376), tiles (R44-R48, R67), the replay cache (R81-R85),
page-table reads (R31, R375) and FENCE (R73). -/

namespace Sys2Proof

/-- Whether a way leads to the Svapo block. -/
def Via.isSv : Via → Bool
  | .plane _ => true
  | .loop => true
  | _ => false

/-- Payload, mask and geometry are carried as the header says. -/
def Packet.carriesOk (p : Packet) : Bool :=
  decide (p.data.length = if p.opc == Opc.LD then 0 else p.len) &&
  decide (p.geom.isSome = p.geo) &&
  decide (p.mask.isSome = (p.opc == Opc.STM || p.opc == Opc.STMA))

end Sys2Proof

namespace Sys2Proof.Machine

/-! ### Sending -/

/-- A Svapo port controller is not down: it is neither down nor training (R369). -/
def State.svPortUp (s : State) (pl : Nat) : Bool :=
  let st := s.srf (SR.SV_PORT_CTL pl) 3 3
  st != 0 && st != 1

/-- Hand a packet to a Svapo port controller; a packet for one that is down is held, and so is one
behind packets that are held (R77). -/
def svTx (pl : Nat) (p : Packet) (s : State) : State :=
  if s.svPortUp pl && !(s.sv.held.any (fun h => h.1 == pl)) then
    emit (s.mapSv (fun v => { v with links := Tbl.mod v.links pl (fun l => { l with txq := l.txq ++ [p] }) }))
      (.svSend pl p)
  else s.mapSv (fun v => { v with held := v.held ++ [(pl, p)] })

/-- Send a response on the way by which its request came (R57). -/
def reply (v : Via) (p : Packet) (s : State) : State :=
  match v with
  | .plane pl => svTx pl.val p s
  | .loop => emit s (.svLoop p)
  | _ => emit s (.unitSend p)

/-- The output form of a response, for those that wait for the partner. -/
def replyOut (p : Packet) : Out := .unitSend p

/-- Answer a failed request with its status: a response, or for a posted packet an error notice,
which has the same form (R57, R72). -/
def failPkt (v : Via) (p : Packet) (st : BitVec 7) (off : Option Nat) (s : State) : State :=
  reply v (match off with
    | some o => p.answerAt st o
    | none => p.answer st) s

/-- A QD1 that is fenced performs nothing more, and one whose clocks are stopped or that is in DS either
(R434, R471, R520, R547). -/
def State.fenced (s : State) : Bool := s.pair == 5 || s.qd.boot.stopped || s.qd.boot.ds

/-- The responder that serves a destination node, on arrival (R39, R374). -/
def State.bankFor (s : State) (v : Via) (dst : BitVec 14) : Option Bank :=
  if v.isSv then (if dst = s.svNode then some .sv else none)
  else if dst = s.qdNode then some .own
  else if s.qd.fault.takeover && decide (dst = s.partnerNode) then some .mir
  else none

/-! ### Receive checks 1 to 4 (R69) -/

/-- The rules of R58 and R67 on the packets of one part of a tile. -/
def tilePartOk (pkts : List Packet) : Bool :=
  match pkts with
  | [] => false
  | p :: _ =>
    match p.geom with
    | none => false
    | some g =>
      g.ok && p.win == g.baseWin &&
      (if p.opc == Opc.TRD then
        pkts.length == 1 && p.aux == 16 * g.part && p.off == g.byteOff (4096 * g.part)
      else
        decide (pkts.length = (g.partLen + 255) / 256) &&
        (pkts.mapIdx (fun k q =>
          q.geo == (k == 0) && q.aux == 16 * g.part + k &&
          q.len == min 256 (g.partLen - 256 * k) && q.win == g.baseWin &&
          q.off == g.byteOff (4096 * g.part + 256 * k) &&
          decide (q.key = p.key) && q.opc == p.opc)).all (fun b => b))

/-- Checks 1 to 3 of R69 on the packets of a request. -/
def rxForm (pkts : List Packet) : Option (BitVec 7) :=
  if pkts.any (fun p => !p.complOk) then some St.COMPL
  else if pkts.any (fun p => !p.e2eOk) then some St.CHECK
  else if pkts.any (fun p => !p.formOk || !p.carriesOk) then some St.DESC
  else if pkts.any (fun p => p.opc == Opc.TRD || p.opc == Opc.TWR) && !(tilePartOk pkts) then
    some St.DESC
  else none

/-- The status of a request that no window-table entry maps (R16): the reserved windows, a bell page
reached by another opcode than BELL (log entry 12), and at an end point a BELL, which has no unit
to reach (check 4 of R69). Of a lost node nothing but its mirrored windows is served (R39). -/
def routeStatus (b : Bank) (p : Packet) : Option (BitVec 7) :=
  match b with
  | .sv => if p.opc == Opc.BELL then some St.ABSENT else none
  | .mir => if p.win < 48 ∨ p.win = 62 ∨ p.win = 63 then none else some St.LOST
  | .own =>
    if p.win < 48 then none
    else if p.win = 48 ∨ p.win = 50 then some St.PERM
    else if p.win = 62 ∨ p.win = 63 then none
    else some St.NOWIN

/-! ### Streams, lines and locks -/

/-- Two packets of one (SRC, QUE, class) (R83, R120). -/
def sameStream (p q : Packet) : Bool :=
  decide (p.src = q.src) && decide (p.que = q.que) && decide (p.cls = q.cls)

/-- An earlier packet of the stream waits, or a write of it has not been performed. -/
def State.streamBusy (s : State) (b : Bank) (p : Packet) : Bool :=
  (s.node b).waits.any (fun w => (match w.why with
    | .fence _ => false
    | _ => true) && w.pkts.any (sameStream p)) ||
  (s.node b).mirrors.any (fun m => match m.strm with
    | some t => decide (t.2 = (p.src, p.que, p.cls))
    | none => false) ||
  (match b with
   | .sv => s.sv.inbound.any (fun i => i.kind == 3 && i.pkts.any (sameStream p))
   | _ => false)

/-- Earlier packets of a FENCE's stream on its port have not been performed (R73). -/
def State.fenceBusy (s : State) (b : Bank) (v : Via) (p : Packet) (earlier : List Waiting)
    (before : Nat) : Bool :=
  earlier.any (fun w => (match w.why with
    | .fence _ => false
    | _ => true) && decide (w.via = v) && w.pkts.any (sameStream p)) ||
  (s.node b).mirrors.any (fun m => match m.strm with
    | some t => decide (t = (v, p.src, p.que, p.cls)) && decide (m.id < before)
    | none => false) ||
  (match b with
   | .sv => s.sv.inbound.any (fun i => decide (i.via = v) && decide (i.no < before) &&
       i.pkts.any (sameStream p))
   | _ => false)

/-- Two ranges of bytes share an aligned block of `g` bytes. -/
def overlap (g a n a' n' : Nat) : Bool :=
  decide (a / g * g < roundUp (a' + n') g) && decide (a' / g * g < roundUp (a + n) g)

/-- A pending mirrored write touches a line of the ranges (R117), or a locked block of a Svapo block
lies in them (R364, R376). -/
def State.lineBusy (s : State) (b : Bank) (wr : Bool) (ranges : List (Nat × Nat)) : Bool :=
  match b with
  | .sv => wr && s.sv.inbound.any (fun i => i.kind == 3 &&
      (i.locked.map (fun l => l.2.1) ++ i.tags.map (fun t => t.2.1) ++ i.toLock.map (fun t => t.2)).any
        (fun a => ranges.any (fun r => overlap 64 a 64 r.1 r.2)))
  | _ => s.qd.node.mirrors.any (fun m => match m.then_ with
      | .write c _ ws _ => c == b && ws.any (fun w => ranges.any (fun r => overlap 128 w.1 w.2.length r.1 r.2))
      | .svc c ws _ _ => c == b && ws.any (fun w => ranges.any (fun r => overlap 128 w.1 w.2.length r.1 r.2))
      | _ => false)

/-- Local ranges that a request touches. -/
def Entry.ranges (e : Entry) (tr : List Trans) (p : Packet) : List (Nat × Nat) :=
  if p.opc == Opc.MSG then []
  else match p.geom with
    | some g => g.partRuns.flatMap (fun r => e.physRuns tr r.1 r.2.2)
    | none => e.physRuns tr p.off p.touch

/-- Append a waiting request. -/
def State.wait (s : State) (b : Bank) (w : Waiting) : State :=
  s.mapNode b (fun n => { n with waits := n.waits ++ [w] })

/-- The next number of a node's operations. The two responders of a QD1 share the numbers. -/
def State.nextNo (s : State) (b : Bank) : Nat × State :=
  match b with
  | .sv => (s.sv.node.nextId, s.mapNode .sv (fun n => { n with nextId := n.nextId + 1 }))
  | _ => (s.qd.node.nextId, s.mapNode .own (fun n => { n with nextId := n.nextId + 1 }))

/-! ### Tile registrations (R44) -/

def TileReg.of (t : TileReg) (p : Packet) : Bool :=
  t.win == p.win && decide (t.src = p.src) && decide (t.que = p.que) && decide (t.tag = p.tag) &&
  decide (t.tseq = p.tseq)

/-- The registration of a request's tile. -/
def State.tileOf (s : State) (b : Bank) (p : Packet) : Option TileReg :=
  if p.geom.isSome then (s.node b).tiles.find? (fun t => t.of p) else none

/-- Register a tile with its first admitted part. A declared stream whose next tile it is goes on to the tile
after it (R34). -/
def State.addTile (s : State) (b : Bank) (p : Packet) (e : Entry) (tr : List Trans) : State :=
  match p.geom with
  | none => s
  | some g =>
    if (s.tileOf b p).isSome then s
    else s.mapNode b (fun n => { n with
      tiles := n.tiles ++ [{ win := p.win, src := p.src, que := p.que, tag := p.tag, tseq := p.tseq,
                             nparts := g.nparts, ent := e, tr := tr }]
      streams := n.streams.map (fun st =>
        if st.win = p.win ∧ st.base + st.next * st.step = g.base then { st with next := st.next + 1 } else st) })

/-- End a tile's registration. -/
def State.dropTile (s : State) (b : Bank) (p : Packet) : State :=
  if p.geom.isNone then s
  else s.mapNode b (fun n => { n with tiles := n.tiles.filter (fun t => !(t.of p)) })

/-- A part has been performed; the last one ends the registration. -/
def State.partDone (s : State) (b : Bank) (p : Packet) : State :=
  match p.geom with
  | none => s
  | some g => s.mapNode b (fun n => { n with tiles := n.tiles.filterMap (fun t =>
      if t.of p then
        let d := if t.doneParts.contains g.part then t.doneParts else t.doneParts ++ [g.part]
        if t.nparts ≤ d.length then none else some { t with doneParts := d }
      else some t) })

/-! ### The replay cache (R81-R85) -/

/-- The node that holds the replay entries of a responder: a QD1 holds the partner's mirrored ones
in its own cache (R84). -/
def repBank : Bank → Bank
  | .sv => .sv
  | _ => .own

/-- Entries that a replay cache holds (R81). -/
def replayCap : Bank → Nat
  | .sv => 4096
  | _ => 16384

def State.replayOf (s : State) (b : Bank) (k : ReplayKey) : Option ReplayEnt :=
  (s.node (repBank b)).replay.find? (fun r => decide (r.key = k))

/-- Write an entry, replacing one with the same key (R82). -/
def State.addReplay (s : State) (b : Bank) (r : ReplayEnt) : State :=
  s.mapNode (repBank b) (fun n => { n with replay := n.replay.filter (fun x => decide (x.key ≠ r.key)) ++ [r] })

/-- Every entry is within its hold and none has the key (R83). -/
def State.replayFull (s : State) (b : Bank) (k : ReplayKey) : Bool :=
  decide (replayCap b ≤ (s.node (repBank b)).replay.length) && (s.replayOf b k).isNone

/-! ### The Granary -/

/-- Cut bytes into writes along runs of local addresses. -/
def writesAt : List (Nat × Nat) → List Byte → List (Nat × List Byte)
  | [], _ => []
  | r :: rs, d => (r.1, d.take r.2) :: writesAt rs (d.drop r.2)

/-- Runs of the bytes that a mask selects: first byte and length. -/
def maskRuns (m : Word) : List (Nat × Nat) :=
  (List.range 64).foldl (fun acc i =>
    if bitAt m i then
      match acc.getLast? with
      | some r => if r.1 + r.2 = i then acc.dropLast ++ [(r.1, r.2 + 1)] else acc ++ [(i, 1)]
      | none => [(i, 1)]
    else acc) []

/-- The writes of a store or of a part of a tile write. -/
def Entry.writes (e : Entry) (tr : List Trans) (p : Packet) (data : List Byte) :
    List (Nat × List Byte) :=
  match p.mask with
  | some m => (maskRuns m.1).map (fun r => (e.phys tr p.off + r.1, slice data r.1 r.2))
  | none => writesAt (e.ranges tr p) data

/-- A frame of an uncorrectable word is queued to be moved to a spare frame (R485). -/
def State.retireFrame (s : State) (a : Nat) : State :=
  let f := a / 65536
  if s.qd.fault.retire.contains f then s
  else s.mapQd (fun q => { q with fault := { q.fault with retire := q.fault.retire ++ [f] } })

/-- An uncorrectable word is found: an INTEGRITY event of an HBM controller, which one being free,
with the word found (R482-R484). -/
def State.hbmBad (s : State) (a : Nat) : State :=
  let d := draw 3 s
  let w := draw 64 d.2
  ((w.2.event (Rg.hbm (d.1.toNat % stacksOf s.qd.variant))
    { cat := Cat.INTEGRITY, obj := Obj.HBM, status := St.DATA, arg0 := wd a, arg1 := w.1 }).score 3
      (d.1.toNat % stacksOf s.qd.variant) 512).retireFrame a

/-- Whether ranges can be read. On a mirrored page of a PAIRED pair a bad word is taken from the
partner's copy and rewritten (R483). -/
def State.readable (s : State) (b : Bank) (e : Entry) (ranges : List (Nat × Nat)) : Bool × State :=
  match ranges.find? (fun r => !((s.hbm b).good r.1 r.2)) with
  | none => (true, s)
  | some r =>
    let s := s.hbmBad r.1
    if e.mir ∧ b = .own ∧ s.pair = 0 then
      (true, s.mapHbm b (fun h => { h with bad := h.bad.filter (fun w =>
        ranges.all (fun r => decide (w + 8 ≤ r.1) || decide (r.1 + r.2 ≤ w))) }))
    else (false, s)

/-- The bytes of ranges. -/
def State.readRuns (s : State) (b : Bank) (ranges : List (Nat × Nat)) : List Byte :=
  ranges.flatMap (fun r => (s.hbm b).read r.1 r.2)

/-- 64 KiB frames of writes, numbered as the resync set numbers them. -/
def framesOf (b : Bank) (ws : List (Nat × List Byte)) : List Nat :=
  (ws.flatMap (fun w => [w.1 / 65536, (w.1 + w.2.length - 1) / 65536])).map
    (fun f => if b = .mir then 2 ^ 40 + f else f)

/-- Frames enter the resync set (R475). -/
def State.addResync (s : State) (fs : List Nat) : State :=
  let l := fs.foldl (fun l f => if l.contains f then l else l ++ [f]) s.qd.fault.resync
  (s.mapQd (fun q => { q with fault := { q.fault with resync := l } })).setFl F.FT_STS_RESYNC l.length

/-- Write bytes. -/
def State.pokes (s : State) (b : Bank) (ws : List (Nat × List Byte)) : State :=
  ws.foldl (fun s w => s.poke b w.1 w.2) s

/-- A write is performed: bytes, replay entry and tile part (R117). -/
def State.applyWrite (s : State) (b : Bank) (p : Packet) (ws : List (Nat × List Byte))
    (rep : Option ReplayEnt) : State :=
  let s := (s.pokes b ws).partDone b p
  match rep with
  | some r => s.addReplay b r
  | none => s

/-- The mirroring messages of a write: the first carries the replay entry (R84). -/
def mirrorMsgs (b : Bank) (ws : List (Nat × List Byte)) (rep : Option ReplayEnt) (id : Nat) : List Out :=
  ws.mapIdx (fun i w => .mirror (homeOf b (match rep with
    | some r => if i = 0 then .atomic id w.1 w.2 r.key r.status r.old else .data id w.1 w.2
    | none => .data id w.1 w.2)))

/-- Perform a write of a Granary window. A mirrored one is sent to the partner and performed when
the partner has acknowledged it; while the pair is exposed its frame enters the resync set (R84,
R117, R475). -/
def State.commit (s : State) (b : Bank) (v : Via) (p : Packet) (e : Entry)
    (ws : List (Nat × List Byte)) (rep : Option ReplayEnt) (answers : List Out) : State :=
  if e.mir && s.mirrorsTo b && !ws.isEmpty then
    s.mirror (mirrorMsgs b ws rep) (.write b p ws rep) answers answers (some (v, p.src, p.que, p.cls))
  else
    let s := s.applyWrite b p ws rep
    emits (if e.mir then s.addResync (framesOf b ws) else s) answers

/-- The answer of an acknowledged request, nothing for a posted one. -/
def okAnswer (p : Packet) (data : List Byte := []) : List Out :=
  if opcIsPosted p.opc then [] else [replyOut (p.answer St.OK data)]

/-- The data packets of a part of a tile read: 256 bytes each, AUX the packet index (R61). -/
def trdPackets (p : Packet) (g : Geom) (data : List Byte) : List Packet :=
  (List.range ((g.partLen + 255) / 256)).map (fun k =>
    let d := slice data (256 * k) (min 256 (g.partLen - 256 * k))
    Hdr.packet { p.answerHdr St.OK with len := d.length, aux := 16 * g.part + k } none none d)

/-- Perform an admitted request at a Granary window (check 6 of R69). -/
def performQd (b : Bank) (v : Via) (pkts : List Packet) (p : Packet) (e : Entry) (tr : List Trans)
    (s : State) : State :=
  let s := s.addTile b p e tr
  let rs := e.ranges tr p
  let data := pkts.flatMap (fun q => q.data)
  match (if p.rty && opcIsReplayed p.opc then s.replayOf b p.key else none) with
  | some r => reply v (p.answer St.OK_DUP (if atomReturns p.opc p.aux then r.old else [])) s
  | none =>
    if p.opc == Opc.LD || p.opc == Opc.TRD then
      let c := s.readable b e rs
      if !c.1 then failPkt v p St.DATA none (c.2.dropTile b p)
      else
        let d := c.2.readRuns b rs
        match p.geom with
        | some g => emits (c.2.partDone b p) ((trdPackets p g d).map replyOut)
        | none => reply v (p.answer St.OK d) c.2
    else if opcIsAtomic p.opc || p.opc == Opc.RED || p.opc == Opc.REDA then
      let c := s.readable b e rs
      if !c.1 then failPkt v p St.DATA none c.2
      else
        let old := c.2.readRuns b rs
        let new := opBytes p.opc p.aux old data
        let ret := if atomReturns p.opc p.aux then old else []
        let rep := if opcIsReplayed p.opc then
          some { key := p.key, status := St.OK, old := ret, at_ := c.2.stamp, kslot := p.kslot : ReplayEnt }
          else none
        let s := c.2.commit b v p e (writesAt rs new) rep (okAnswer p ret)
        if opcIsAtomic p.opc then s.noteAtomic (e.phys tr p.off) p.key p.ctx p.opc else s
    else s.commit b v p e (e.writes tr p data) none (okAnswer p)

/-! ### The inner port of a Svapo block (R361-R364, R376) -/

/-- RQI tags in use. -/
def State.rqiUsed (s : State) : List Nat :=
  s.sv.inbound.flatMap (fun i => i.tags.map (fun t => t.1.toNat) ++ i.locked.map (fun t => t.1.toNat) ++
    i.toLock.map (·.1))

/-- RQI tags that are free (R361). -/
def State.rqiFree (s : State) : List Nat :=
  let u := s.rqiUsed
  (List.range 4096).filter (fun t => !(u.contains t))

/-- Take `n` free numbers of a list. Which ones is open: a free value picks each (log entry 6). -/
def pickMany : Nat → List Nat → State → List Nat × State
  | 0, _, s => ([], s)
  | n + 1, l, s =>
    let d := draw 16 s
    let t := l.getD (d.1.toNat % l.length) 0
    let r := pickMany n (l.filter (fun x => x != t)) d.2
    (t :: r.1, r.2)

/-- Locks held or being taken (R364). -/
def State.lockCount (s : State) : Nat :=
  (s.sv.inbound.filter (fun i => i.kind == 3)).foldl
    (fun n i => n + i.tags.length + i.locked.length + i.toLock.length) 0

/-- Berth of inbound packets from a source and queue (R363). -/
def State.inBerth (s : State) (p : Packet) : Nat :=
  (p.src.toNat % 256 ^^^ p.que.toNat % 256) % s.sv.nberth

/-- Ranges cut at 256-byte boundaries, so that each piece fits one RQI unit. -/
def pieces : Nat → List (Nat × Nat) → List (Nat × Nat)
  | 0, _ => []
  | fuel + 1, rs => match rs with
    | [] => []
    | r :: rest =>
      if r.2 = 0 then pieces fuel rest
      else
        let c := min r.2 (256 - r.1 % 256)
        (r.1, c) :: pieces fuel ((r.1 + c, r.2 - c) :: rest)

def piecesOf (rs : List (Nat × Nat)) : List (Nat × Nat) :=
  pieces (rs.foldl (fun n r => n + r.2 + 2) 1) rs

/-- An RQI unit of an inbound packet. -/
def rqiUnit (s : State) (p : Packet) (op tag addr len : Nat) (data : List Byte) (be : List Bool) :
    Out :=
  .rqi (s.inBerth p) op tag addr len p.src.toNat p.que.toNat data be

/-- The tweak of a data unit (R379). -/
def tweak (fa : Word) (gen : Byte) (domain : Nat) : BitVec 128 :=
  BitVec.ofNat 128 (fa.toNat / 16 + gen.toNat * 2 ^ 60 + domain % 4 * 2 ^ 68)

/-- The key of a Svapo key slot. -/
def State.svKey (s : State) (k : BitVec 6) : List Byte := (s.keySlot .sv k.toNat).key

/-- Bytes that one XTS data unit gives, its length kept. -/
def xtsUnit (dec : Bool) (key : List Byte) (tw : BitVec 128) (d : List Byte) : List Byte :=
  slice (if dec then Config.xtsDec key tw d else Config.xtsEnc key tw d) 0 d.length

/-- Operand blocks of 16 bytes in domain 1 or 2, block `i` at its address; the two blocks of CAS act
on the same bytes (R380, R381). -/
def xtsOperand (dec : Bool) (key : List Byte) (gen : Byte) (domain : Nat) (p : Packet)
    (d : List Byte) : List Byte :=
  (chunksOf 16 (d.length + 1) d).mapIdx (fun i c =>
    let a := if p.opc == Opc.CAS then p.fabric else p.fabric + wd (16 * i)
    xtsUnit dec key (tweak a gen domain) c) |>.flatten

/-- The returned old value as it is sent: enciphered in domain 2 on a protected window (R381). -/
def State.sealRet (s : State) (e : Entry) (p : Packet) (d : List Byte) : List Byte :=
  if e.prot then xtsOperand false (s.svKey e.kslot) e.gen 2 p d else d

/-- 64-byte blocks that ranges touch, in ascending order. -/
def blocksOf (rs : List (Nat × Nat)) : List Nat :=
  rs.flatMap (fun r => if r.2 = 0 then [] else
    (List.range ((r.1 + r.2 - 1) / 64 - r.1 / 64 + 1)).map (fun i => (r.1 / 64 + i) * 64))

/-- Add an inbound operation. -/
def State.addInbound (s : State) (i : Inbound) : State :=
  let n := s.nextNo .sv
  n.2.mapSv (fun v => { v with inbound := v.inbound ++ [{ i with no := n.1 }] })

/-- Start an admitted request at the inner port; none when it must wait for RQI tags or locks. -/
def performSv (v : Via) (pkts : List Packet) (p : Packet) (e : Entry) (tr : List Trans)
    (s : State) : Option State :=
  let s := s.addTile .sv p e tr
  let rs := e.ranges tr p
  let data := pkts.flatMap (fun q => q.data)
  let free := s.rqiFree
  match (if p.rty && opcIsReplayed p.opc then s.replayOf .sv p.key else none) with
  | some r =>
    some (reply v (p.answer St.OK_DUP (if atomReturns p.opc p.aux then s.sealRet e p r.old else [])) s)
  | none =>
    let inb := fun (kind : Nat) (ts : List (BitVec 12 × Nat × Nat)) (ord : List Nat) =>
      ({ tags := ts, kind := kind, via := v, pkts := pkts, win := p.win, ent := e, order := ord } :
        Inbound)
    if p.opc == Opc.MSG then
      if free.isEmpty then none
      else
        let k := pickMany 1 free s
        let t := k.1.headD 0
        let s := k.2
        let d := if e.prot then xtsUnit true (s.svKey e.kslot) (tweak p.fabric e.gen 1) data else data
        some (emit (s.addInbound (inb 4 [(BitVec.ofNat 12 t, p.aux, p.len)] []))
          (rqiUnit s p 6 t p.aux p.len d (List.replicate p.len true)))
    else if opcIsAtomic p.opc || p.opc == Opc.RED || p.opc == Opc.REDA then
      let bs := blocksOf rs
      if free.length < bs.length ∨ 64 < s.lockCount + bs.length then none
      else
        let k := pickMany bs.length free s
        let s := k.2
        match List.zip k.1 bs with
        | [] => some s
        | t :: rest =>
          some (emit (s.addInbound { inb 3 [(BitVec.ofNat 12 t.1, t.2, 64)] [] with toLock := rest })
            (rqiUnit s p 3 t.1 t.2 64 [] []))
    else
      let ps := piecesOf rs
      if p.opc == Opc.LD || p.opc == Opc.TRD then
        if free.length < ps.length then none
        else
          let k := pickMany ps.length free s
          let s := k.2
          let ts := List.zip k.1 ps
          some (emits (s.addInbound (inb (if p.opc == Opc.LD then 1 else 5)
              (ts.map (fun t => (BitVec.ofNat 12 t.1, t.2.1, t.2.2))) (ps.map (·.1))))
            (ts.map (fun t => rqiUnit s p 0 t.1 t.2.1 t.2.2 [] [])))
      else
        let be := fun (n : Nat) => match p.mask with
          | some m => (List.range n).map (fun i => bitAt m.1 i)
          | none => List.replicate n true
        let ws := writesAt ps data
        if opcIsPosted p.opc then
          some (emits s (ws.map (fun w => rqiUnit s p 1 0 w.1 w.2.length w.2 (be w.2.length))))
        else if free.length < ws.length then none
        else
          let k := pickMany ws.length free s
          let s := k.2
          let ts := List.zip k.1 ws
          some (emits (s.addInbound (inb 2
              (ts.map (fun t => (BitVec.ofNat 12 t.1, t.2.1, t.2.2.length))) []))
            (ts.map (fun t => rqiUnit s p 2 t.1 t.2.1 t.2.2.length t.2.2 (be t.2.2.length))))

/-! ### Admission -/

/-- Start the read of a page-table entry (R31, R375): at a QD1 its number is the wait's; at a Svapo
block an RD of 8 bytes on berth 0 goes out. None when no RQI tag is free. -/
def startPageRead (b : Bank) (e : Entry) (page : Nat) (p : Packet) (s : State) :
    Option (Nat × State) :=
  match b with
  | .sv =>
    if s.rqiFree.isEmpty then none
    else
      let k := pickMany 1 s.rqiFree s
      let t := k.1.headD 0
      let s := k.2
      let n := s.nextNo .sv
      let s := n.2.mapSv (fun v => { v with inbound := v.inbound ++
        [{ tags := [(BitVec.ofNat 12 t, e.pteAddr page, 8)], kind := 0, via := .loop, pkts := [],
           win := p.win, no := n.1, ptId := n.1 }] })
      some (n.1, emit s (.rqi 0 0 t (e.pteAddr page) 8 p.src.toNat p.que.toNat [] []))
  | _ => some (let n := s.nextNo b; (n.1, n.2.count F.CTU_STS_MISSES))

/-- The work of a request that has passed checks 1 to 4 and waits behind nothing: window checks,
translation, waiting, performance. `ent` and `adm` hold what an earlier attempt established. -/
def attempt (b : Bank) (v : Via) (pkts : List Packet) (p : Packet) (ent : Option Entry)
    (adm : Option (List Trans)) (s : State) : State :=
  let reg := s.tileOf b p
  let e := match ent with
    | some e => e
    | none => match reg with
      | some r => r.ent
      | none => s.wte b p.win
  let adm := match adm with
    | some t => some t
    | none => reg.map (fun r => r.tr)
  match (if ent.isNone && reg.isNone then checkEntry s b e p else .ok) with
  | .broken => failPkt v p St.COMPL none ((s.breakEntry b p.win).dropTile b p)
  | .fail st off => failPkt v p st off (s.dropTile b p)
  | .page _ => s
  | .ok =>
    match (if adm.isSome then Verdict.ok else checkMap s b p.win e p) with
    | .broken => s
    | .fail st off => failPkt v p st off (s.dropTile b p)
    | .page pg =>
      match startPageRead b e pg p s with
      | none => s.wait b { why := .mirror, via := v, pkts := pkts, ent := some e }
      | some r => r.2.wait b { why := .pageTable r.1 pg, via := v, pkts := pkts, ent := some e }
    | .ok =>
      let tr := match adm with
        | some t => t
        | none => s.gather b p.win e p
      if opcIsReplayed p.opc && s.replayFull b p.key then
        s.wait b { why := .replay, via := v, pkts := pkts, ent := if adm.isSome then some e else none,
                   admitted := adm }
      else if s.lineBusy b (opcWrites p.opc) (e.ranges tr p) then
        (s.addTile b p e tr).wait b
          { why := .mirror, via := v, pkts := pkts, ent := some e, admitted := some tr }
      else
        match b with
        | .sv =>
          match performSv v pkts p e tr s with
          | some s => s
          | none => (s.addTile b p e tr).wait b
              { why := .mirror, via := v, pkts := pkts, ent := some e, admitted := some tr }
        | _ => performQd b v pkts p e tr s

/-- The Ledger region through window 62 (R504): the operator context reads it, and writes it while
the journal is off and no replay runs. -/
def ledgerAccess (v : Via) (p : Packet) (s : State) : State :=
  let op := s.fl F.ACC_CTL_OPCTX
  let wr := p.opc == Opc.ST || p.opc == Opc.STA
  if op = 0 ∨ p.ctx.toNat ≠ op ∨ !(p.opc == Opc.LD || wr) ∨
      (wr ∧ (s.flag F.LG_CTL_EN ∨ s.fl F.LG_RSTS_STATE = 1)) then failPkt v p St.PERM none s
  else if s.lgSegs * 65536 < p.off + p.len then failPkt v p St.BOUNDS none s
  else
    let k := p.off / 65536
    let seg := slice (Tbl.at s.qd.trace.ledger.segs k) 0 65536
    if wr then
      emits (s.mapLedger (fun l => { l with segs := Tbl.put l.segs k (patch seg (p.off % 65536) p.data) }))
        (okAnswer p)
    else reply v (p.answer St.OK (slice seg (p.off % 65536) p.len)) s

/-- SRC names an end-point slot or a QD1 slot of the responder's rack (R55). -/
def State.srcInRack (s : State) (v : Via) (p : Packet) : Bool :=
  decide (nodeRack p.src = (if v.isSv then nodeRack s.svNode else s.qdRack)) &&
  !(slotReserved (nodeSlot p.src))

/-- An event about a packet: in the ring of the port that it arrived on, the switch core's or the Svapo
block's. -/
def pktEvent (v : Via) (st : BitVec 7) (p : Packet) (s : State) : State :=
  let ev : Ev := { cat := Cat.INTEGRITY, obj := Obj.PACKET, ctx := p.ctx, status := st,
                   arg0 := wd p.woff.toNat, arg1 := p.w0 }
  match v with
  | .link n => s.event (Rg.port n.val) ev
  | .unit => s.event Rg.switch ev
  | .plane n => s.svEvent n.val ev
  | .loop => s.svEvent 0xFF ev

/-- A failure at checks 1 to 3. A broken header complement raises an event and is answered only when
SRC names a slot of the rack (R55); a failed E2E raises an event (R79). -/
def rxFail (v : Via) (pkts : List Packet) (p : Packet) (st : BitVec 7) (s : State) : State :=
  if st = St.COMPL then
    let s := pktEvent v st p s
    if s.srcInRack v p || pkts.all (fun q => decide (q.ncrit = 2 ^ 44 - 1 - fget q.w0 0 44)) then
      failPkt v p st none s
    else s
  else if st = St.CHECK then failPkt v p st none (pktEvent v st p s)
  else failPkt v p st none s

/-- A request arrives at its node. -/
def request (v : Via) (pkts : List Packet) (s : State) : State :=
  match pkts with
  | [] => s
  | p :: _ =>
    if !v.isSv && s.fenced then s
    else match rxForm pkts with
      | some st => rxFail v pkts p st s
      | none =>
        match s.bankFor v p.dst with
        | none => failPkt v p (if v.isSv then St.ABSENT else St.LOST) none s
        | some b =>
          match routeStatus b p with
          | some st => failPkt v p st none s
          | none =>
            if b ≠ .sv ∧ p.win = 62 then
              (if b = .own then ledgerAccess v p s else failPkt v p St.LOST none s)
            else if b ≠ .sv ∧ p.win = 63 then s
            else if b = .mir ∧ !((s.wte .mir p.win).mir) ∧ (s.tileOf b p).isNone then
              failPkt v p St.LOST none s
            else if s.streamBusy b p then
              s.wait b { why := .behind, via := v, pkts := pkts }
            else attempt b v pkts p none none s

/-- The outcome of a page-table read: the wait's number, and the failure to report if any. -/
abbrev PageOutcome := Option (Nat × Option (BitVec 7 × Option Nat))

/-- Take up one waiting request again. -/
def retryOne (b : Bank) (o : PageOutcome) (s : State) (w : Waiting) : State :=
  match w.pkts with
  | [] => s
  | p :: _ =>
    match w.why with
    | .fence _ => s.wait b w
    | .pageTable id _ =>
      match o with
      | some (k, r) =>
        if k = id then
          match r with
          | some (st, off) => failPkt w.via p st off (s.dropTile b p)
          | none => attempt b w.via w.pkts p w.ent w.admitted s
        else s.wait b w
      | none => s.wait b w
    | _ =>
      if s.streamBusy b p then s.wait b w
      else attempt b w.via w.pkts p w.ent w.admitted s

/-- Take up every waiting request again, in order of arrival. -/
def retryWaits (b : Bank) (o : PageOutcome) (s : State) : State :=
  let l := (s.node b).waits
  l.foldl (retryOne b o) (s.mapNode b (fun n => { n with waits := [] }))

/-! ### Page-table reads -/

/-- Fill a translation or fail the request (R29, R31): `pte` is none for an uncorrectable read. -/
def pageReturn (b : Bank) (id : Nat) (pte : Option Word) (s : State) : State :=
  match (s.node b).waits.find? (fun w => match w.why with
      | .pageTable k _ => k == id
      | _ => false) with
  | none => s
  | some w =>
    match w.pkts, w.ent, w.why with
    | p :: _, some e, .pageTable _ pg =>
      match pte with
      | none => retryWaits b (some (id, some (St.DATA, none))) s
      | some x =>
        if pteMapped s b e x then
          retryWaits b (some (id, none))
            (s.addTrans b { win := p.win, page := pg, gen := e.gen.toNat, pte := x, pinned := e.pin })
        else
          let off := ((e.pagesOf p).find? (fun q => q.1 == pg)).map (·.2)
          retryWaits b (some (id, some (St.UNMAPPED, off))) s
    | _, _, _ => s

/-- The page-table entry that a QD1's wait reads. -/
def State.pteOf (s : State) (b : Bank) (id : Nat) : Option Word :=
  ((s.node b).waits.findSome? (fun w => match w.why, w.ent with
    | .pageTable k pg, some e => if k = id then some (e.pteAddr pg) else none
    | _, _ => none)).bind (fun a =>
      if (s.hbm b).good a 8 then some (wd (natOf ((s.hbm b).read a 8))) else none)

/-- PAGE_TABLE_READ_DONE. At a QD1 the entry is the one that the Granary holds; at a Svapo block it
is what the accelerator returned. -/
def execPageTableReadDone (d : Side) (id : Nat) (r : ReadResult) (s : State) : Res :=
  .next (
    match d with
    | .qd =>
      let b := if s.qd.node.waits.any (fun w => match w.why with
          | .pageTable k _ => k == id
          | _ => false) then Bank.own else Bank.mir
      pageReturn b id (s.pteOf b id) s
    | .sv =>
      let s := s.mapSv (fun v => { v with inbound := v.inbound.filter (fun i =>
        !(i.kind == 0 && i.ptId == id)) })
      pageReturn .sv id (match r with
        | .ok bytes => some (wd (natOf (slice bytes 0 8)))
        | .bad => none) s)

/-! ### Answers of the accelerator -/

/-- The bytes returned for a piece. -/
def Inbound.pieceAt (i : Inbound) (a : Nat) : List Byte :=
  match i.got.find? (fun g => g.1 == a) with
  | some g => g.2
  | none => []

/-- The end of an inbound operation all of whose answers have come: the response, or an event and
ERR_LOST for a message whose queue was full (R71, R376). -/
def finishInbound (i : Inbound) (s : State) : State :=
  match i.pkts with
  | [] => s
  | p :: _ =>
    if i.status ≠ 0 then
      let ev : Ev := { cat := Cat.RESOURCE, obj := Obj.MSGQ, ctx := p.ctx, status := i.status,
                       arg0 := wd p.aux }
      let s := if i.kind = 4 then s.svEvent 0xFF ev else s
      failPkt i.via p i.status none (s.dropTile .sv p)
    else
      let data := i.order.flatMap i.pieceAt
      match i.kind, p.geom with
      | 5, some g => (trdPackets p g data).foldl (fun s q => reply i.via q s) (s.partDone .sv p)
      | _, _ => reply i.via (p.answer St.OK data) (s.partDone .sv p)

/-- The window offset of the first block of a locked operation. -/
def Inbound.unitFa (p : Packet) (k : Nat) : Word := wd (p.fabric.toNat / 64 * 64 + 64 * k)

/-- Every block is locked: the operation is applied and the blocks are written and unlocked, which
performs it (R376, R381). -/
def finishLocked (i : Inbound) (s : State) : State :=
  match i.pkts with
  | [] => s
  | p :: _ =>
    let e := i.ent
    let key := s.svKey e.kslot
    let plain := (i.locked.mapIdx (fun k l =>
      if e.prot then xtsUnit true key (tweak (Inbound.unitFa p k) e.gen 0) l.2.2 else l.2.2)).flatten
    let data := if e.prot then xtsOperand true key e.gen 1 p p.data else p.data
    let old := slice plain (p.off % 64) p.touch
    let new := patch plain (p.off % 64) (opBytes p.opc p.aux old data)
    let outs := i.locked.mapIdx (fun k l =>
      let c := slice new (64 * k) 64
      rqiUnit s p 4 l.1.toNat l.2.1 64
        (if e.prot then xtsUnit false key (tweak (Inbound.unitFa p k) e.gen 0) c else c)
        (List.replicate 64 true))
    let ret := if atomReturns p.opc p.aux then old else []
    let s := emits s outs
    let s := if opcIsReplayed p.opc then
      let pl := match i.via with
        | .plane n => n.val
        | _ => 18
      let d := draw 64 s
      d.2.addReplay .sv { key := p.key, status := St.OK, old := ret, at_ := d.1, kslot := p.kslot, plane := pl }
      else s
    if opcIsPosted p.opc then s else reply i.via (p.answer St.OK (s.sealRet e p ret)) s

/-- Replace or remove an inbound operation by its number. -/
def State.setInbound (s : State) (no : Nat) (r : Option Inbound) : State :=
  s.mapSv (fun v => { v with inbound := v.inbound.filterMap (fun i =>
    if i.no = no then r else some i) })

/-- One answer of the accelerator to an inbound operation. -/
def rsiAnswer (i : Inbound) (t : BitVec 12 × Nat × Nat) (st : BitVec 7) (data : List Byte)
    (s : State) : State :=
  let tags := i.tags.filter (fun x => decide (x.1 ≠ t.1))
  if i.kind = 0 then
    pageReturn .sv i.ptId (if st = 0 then some (wd (natOf (slice data 0 8))) else none)
      (s.setInbound i.no none)
  else if i.kind = 3 then
    if st ≠ 0 then
      match i.pkts with
      | [] => s
      | p :: _ =>
        let s := emits (s.setInbound i.no none)
          (i.locked.map (fun l => rqiUnit s p 5 l.1.toNat l.2.1 64 [] []))
        retryWaits .sv none (failPkt i.via p St.DATA none s)
    else
      let i := { i with locked := i.locked ++ [(t.1, t.2.1, slice data 0 64)], tags := [] }
      match i.toLock, i.pkts with
      | x :: rest, p :: _ =>
        emit (s.setInbound i.no (some { i with tags := [(BitVec.ofNat 12 x.1, x.2, 64)], toLock := rest }))
          (rqiUnit s p 3 x.1 x.2 64 [] [])
      | _, _ => retryWaits .sv none (finishLocked i (s.setInbound i.no none))
  else
    let i := { i with tags := tags, status := if i.status = 0 then st else i.status,
                      got := i.got ++ [(t.2.1, slice data 0 t.2.2)] }
    if tags.isEmpty then retryWaits .sv none (finishInbound i (s.setInbound i.no none))
    else s.setInbound i.no (some i)

/-- RSI_RESPONSE: an answer on a tag that no request holds is discarded. -/
def execRsiResponse (tag : BitVec 12) (st : BitVec 7) (data : List Byte) (s : State) : Res :=
  .next (
    match s.sv.inbound.find? (fun i => i.tags.any (fun t => decide (t.1 = tag))) with
    | none => s
    | some i =>
      match i.tags.find? (fun t => decide (t.1 = tag)) with
      | none => s
      | some t => rsiAnswer i t st data s)

/-- RQI_ANSWER_LATE: an event, and the block keeps waiting (R364). -/
def execRqiAnswerLate (tag : BitVec 12) (s : State) : Res :=
  .next (
    if s.rqiUsed.contains tag.toNat then
      s.svEvent 0xFF { cat := Cat.TIMEOUT, arg0 := wd tag.toNat, arg1 := 1000 }
    else s)

/-! ### FENCE (R73) -/

/-- A FENCE packet arrives: answered at once when every earlier packet of its stream on its port has
been performed, else held. -/
def fenceArrive (v : Via) (p : Packet) (s : State) : State :=
  if !v.isSv && s.fenced then s
  else match rxForm [p] with
    | some st => rxFail v [p] p st s
    | none =>
      match s.bankFor v p.dst with
      | none => failPkt v p (if v.isSv then St.ABSENT else St.LOST) none s
      | some b =>
        let n := s.nextNo b
        if s.fenceBusy b v p (s.node b).waits n.1 then
          n.2.wait b { why := .fence n.1, via := v, pkts := [p] }
        else reply v (p.answer St.OK) s

/-- Answer the held FENCE packets of a stream whose earlier packets have been performed. -/
def fenceAnswer (b : Bank) (v : Via) (src : BitVec 14) (que : BitVec 10) (cls : BitVec 2)
    (s : State) : State :=
  let l := (s.node b).waits
  match l.findIdx? (fun w => (match w.why with
      | .fence _ => true
      | _ => false) && decide (w.via = v) &&
      w.pkts.any (fun p => decide (p.src = src ∧ p.que = que ∧ p.cls = cls))) with
  | none => s
  | some i =>
    match l[i]? with
    | some w =>
      match w.pkts, w.why with
      | p :: _, .fence n =>
        if s.fenceBusy b v p (l.take i) n then s
        else reply v (p.answer St.OK) (s.mapNode b (fun x => { x with waits := l.eraseIdx i }))
      | _, _ => s
    | none => s

/-- FENCE_ANSWER. -/
def execFenceAnswer (v : Via) (src : BitVec 14) (que : BitVec 10) (cls : BitVec 2) (s : State) :
    Res :=
  .next (if v.isSv then fenceAnswer .sv v src que cls s
    else fenceAnswer .mir v src que cls (fenceAnswer .own v src que cls s))

/-! ### Commands -/

/-- A management access of the QD1 at the far end of a port controller (R368). -/
def State.isManagement (s : State) (v : Via) (p : Packet) : Bool :=
  match v with
  | .plane n => !p.rsp && (p.opc == Opc.LD || p.opc == Opc.STA) && p.len == 8 && decide (p.ctx = 0) &&
      decide (p.src = mkNode (nodeRack s.svNode) (160 + n.val))
  | _ => false

/-- A request of one opcode arrives. A packet of another opcode of R60, a response, or a management
access is not this command (log entry 3); one with a reserved opcode fails check 3. -/
def memOp (opc : Nat) (v : Via) (pkts : List Packet) (s : State) : State :=
  match pkts with
  | [] => s
  | p :: _ =>
    if p.rsp || (opcListed p.opc && p.opc != opc) || s.isManagement v p then s else request v pkts s

/-- LD. -/
def execLd (v : Via) (p : Packet) (s : State) : Res := .next (memOp Opc.LD v [p] s)
/-- ST. -/
def execSt (v : Via) (p : Packet) (s : State) : Res := .next (memOp Opc.ST v [p] s)
/-- STA. -/
def execSta (v : Via) (p : Packet) (s : State) : Res := .next (memOp Opc.STA v [p] s)
/-- STM. -/
def execStm (v : Via) (p : Packet) (s : State) : Res := .next (memOp Opc.STM v [p] s)
/-- STMA. -/
def execStma (v : Via) (p : Packet) (s : State) : Res := .next (memOp Opc.STMA v [p] s)
/-- ADD. -/
def execAdd (v : Via) (p : Packet) (s : State) : Res := .next (memOp Opc.ADD v [p] s)
/-- FADD. -/
def execFadd (v : Via) (p : Packet) (s : State) : Res := .next (memOp Opc.FADD v [p] s)
/-- MIN. -/
def execAmin (v : Via) (p : Packet) (s : State) : Res := .next (memOp Opc.MIN v [p] s)
/-- MAX. -/
def execAmax (v : Via) (p : Packet) (s : State) : Res := .next (memOp Opc.MAX v [p] s)
/-- SWAP. -/
def execSwap (v : Via) (p : Packet) (s : State) : Res := .next (memOp Opc.SWAP v [p] s)
/-- CAS. -/
def execCas (v : Via) (p : Packet) (s : State) : Res := .next (memOp Opc.CAS v [p] s)
/-- AND. -/
def execAand (v : Via) (p : Packet) (s : State) : Res := .next (memOp Opc.AND v [p] s)
/-- OR. -/
def execAor (v : Via) (p : Packet) (s : State) : Res := .next (memOp Opc.OR v [p] s)
/-- XOR. -/
def execAxor (v : Via) (p : Packet) (s : State) : Res := .next (memOp Opc.XOR v [p] s)
/-- FPADD. -/
def execFpadd (v : Via) (p : Packet) (s : State) : Res := .next (memOp Opc.FPADD v [p] s)
/-- RED. -/
def execRed (v : Via) (p : Packet) (s : State) : Res := .next (memOp Opc.RED v [p] s)
/-- REDA. -/
def execReda (v : Via) (p : Packet) (s : State) : Res := .next (memOp Opc.REDA v [p] s)
/-- MSG to an end-point queue; one to a mill is MILL_MSG_RECEIVE. -/
def execMsg (v : Via) (p : Packet) (s : State) : Res :=
  .next (if !v.isSv && p.win == 50 then s else memOp Opc.MSG v [p] s)
/-- TRD. -/
def execTrd (v : Via) (p : Packet) (s : State) : Res := .next (memOp Opc.TRD v [p] s)
/-- TWR: the packets of one part. -/
def execTwr (v : Via) (ps : List Packet) (s : State) : Res := .next (memOp Opc.TWR v ps s)
/-- FENCE. -/
def execFence (v : Via) (p : Packet) (s : State) : Res :=
  .next (if p.rsp || (opcListed p.opc && p.opc != Opc.FENCE) then s else fenceArrive v p s)

/-- TILE_REGISTRATION_LAPSE (R44). -/
def execTileRegistrationLapse (d : Side) (src : BitVec 14) (que : BitVec 10) (tag : BitVec 9)
    (s : State) : Res :=
  .next (
    let f := fun (n : Node) => { n with tiles := n.tiles.filter (fun t =>
      !(decide (t.src = src) && decide (t.que = que) && decide (t.tag = tag))) }
    match d with
    | .sv => s.mapNode .sv f
    | .qd => (s.mapNode .own f).mapNode .mir f)

/-- REPLAY_ENTRY_EXPIRE: an entry that R85 keeps stays; the end of another releases the requests
that wait for one (R83). -/
def execReplayEntryExpire (d : Side) (k : ReplayKey) (s : State) : Res :=
  .next (
    let b := bankOf d
    let s := s.mapNode b (fun n => { n with replay := n.replay.filter (fun r =>
      r.kept || decide (r.key ≠ k)) })
    match d with
    | .sv => retryWaits .sv none s
    | .qd => retryWaits .mir none (retryWaits .own none s))

/-- COUNT of a descriptor reaches a value; its work is over with the last (R110). -/
def Desc.raise (stamp : Word) (n : Nat) (d : Desc) : Desc :=
  if d.count < n then
    { d with count := n, stamp := stamp,
             stage := if d.stage = 3 ∧ d.goal ≠ 0 ∧ d.goal ≤ n then 4 else d.stage }
  else d

/-- Raise COUNT of a descriptor; it only grows (R110). -/
def raiseCount (k : Nat) (ridx : BitVec 32) (n : Nat) (s : State) : State :=
  s.mapRings (fun r => { r with qs := Tbl.mod r.qs k (fun q =>
    { q with descs := q.descs.map (fun d => if d.ridx = ridx then d.raise s.stamp n else d) }) })

/-- A descriptor's work is over: status and result, no entry written yet. -/
def descDone (k : Nat) (ridx : BitVec 32) (st : BitVec 7) (result : Word) (s : State) : State :=
  s.mapRings (fun r => { r with qs := Tbl.mod r.qs k (fun q => { q with descs := q.descs.map (fun d =>
    if d.ridx = ridx ∧ d.stage < 4 then { d with stage := 4, status := st, result := result } else d) }) })

/-- The same with a RESULT that the spec does not state, a free value (log entry 6). -/
def descEnd (k : Nat) (ridx : BitVec 32) (st : BitVec 7) (s : State) : State :=
  let d := draw 64 s
  descDone k ridx st d.1 d.2

/-- A mirrored update that the partner holds, or that is settled without it (R475), takes effect. -/
def mirrorSettle (m : MirrorPend) (acked : Bool) (s : State) : State :=
  let s := match m.then_ with
    | .write b p ws rep =>
      let s := s.applyWrite b p ws rep
      if acked then s else s.addResync (framesOf b ws)
    | .window w e => if acked then (s.setWte .own w e).setWtSts w St.OK else s.setWtSts w St.LOST
    | .binding q e =>
      if acked then
        (s.mapRings (fun r => { r with bind := Tbl.put r.bind q e })).setFl F.SQ_STS_STATUS 0
      else s.setFl F.SQ_STS_STATUS St.LOST.toNat
    | .count k ridx n => raiseCount k ridx n s
    | .svc b ws ended _ =>
      let s := s.pokes b ws
      let s := if acked then s else s.addResync (framesOf b ws)
      match ended with
      | some (k, ridx, st, r) => descDone k ridx st r s
      | none => s
    | .nothing => s
  answers s (if acked then m.answers else m.lost)

end Sys2Proof.Machine
end

