-- ==== Sys2Proof/Machine/Switch.lean ====
section
/-! DEFINITION. The switch core: cells, routing, matching, credits, marking, colours (R171-R184,
R192-R198), hot lines (R185-R190) and route changes (R195, R196, R529). -/

namespace Sys2Proof.Machine

/-! ### Ports and counters -/

/-- Number of an ingress (R174). -/
def ingNo : Ingress → Nat
  | .link n => n.val
  | .service n => 160 + n.val

/-- A 64-bit telemetry counter rises. -/
def State.tel (s : State) (off n : Nat) : State := s.setRg off (s.rg off + wd n)

/-- Backlog B(e, c) (R181). -/
def State.backlog (s : State) (e c : Nat) : Nat :=
  let f := fun (x : Cell) => x.egr == e && x.cls == c
  (s.qd.sw.buf.filter f).length + (s.qd.sw.stage.filter f).length

/-- Track the peak backlog of an egress and class (R197). -/
def State.peak (s : State) (e c : Nat) : State :=
  let b := min 65535 (s.backlog e c)
  if fget (s.rg (R.TEL_48 e)) (16 * c) 16 < b then
    s.setRg (R.TEL_48 e) (fset (s.rg (R.TEL_48 e)) (16 * c) 16 b)
  else s

/-- Answer a packet that the QD1 cannot carry: a response or a notice for a request; a response is
discarded (R72, R192). -/
def refusePkt (p : Packet) (st : BitVec 7) (s : State) : State :=
  if p.rsp then s else emit s (.unitSend (p.answer st))

/-! ### Routing (R174, R193, R194) -/

/-- Route index of a destination: its slot, or 256 + its rack. -/
def State.routeIdx (s : State) (dst : BitVec 14) : Nat :=
  if nodeRack dst = s.qdRack then nodeSlot dst else 256 + nodeRack dst

/-- Register offset of a route-table entry. -/
def routeOff (i : Nat) : Nat := if i < 256 then R.RT_LOCAL i else R.RT_REMOTE (i - 256)

/-- Bits [31:0] of a route-table entry with their complement. -/
def routeWord (v : Nat) : Word := wd (v % 2 ^ 32 + (2 ^ 32 - 1 - v % 2 ^ 32) * 2 ^ 32)

/-- Write a route-table entry, which makes a broken one good again. -/
def State.setRoute (s : State) (i v : Nat) : State :=
  (s.setRg (routeOff i) (routeWord v)).mapSw (fun w => { w with rtBad := w.rtBad.filter (· != i) })

/-- A route-table entry matches its complement. -/
def routeOk (w : Word) : Bool := decide (fget w 32 32 = 2 ^ 32 - 1 - fget w 0 32)

/-- STATE of a route-table entry. -/
def State.routeState (s : State) (i : Nat) : Nat := fget (s.rg (routeOff i)) 8 2

/-- Set STATE. -/
def State.setRouteState (s : State) (i st : Nat) : State :=
  s.setRoute i (fget (fset (s.rg (routeOff i)) 8 2 st) 0 32)

/-- A broken entry is treated as invalid until rewritten, with an event (R194). -/
def State.breakRoute (s : State) (i : Nat) : State :=
  let w := s.rg (routeOff i)
  ((s.event Rg.switch { cat := Cat.INTEGRITY, obj := Obj.ROUTE, arg0 := wd i, arg1 := w }).score 8 1 256).mapSw
    (fun x => { x with rtBad := if x.rtBad.contains i then x.rtBad else x.rtBad ++ [i] })

/-- Ferry port 146 + j is live (R405). -/
def State.portUp (s : State) (n : Nat) : Bool :=
  let st := s.fl (F.LN_PORT_STS_STATE n)
  decide (2 ≤ st) && decide (st ≤ 5)

/-- What routing says of a packet. -/
inductive Route where
  | port (egr idx : Nat) (held : Bool)
  | fail (st : BitVec 7)
  | broken (idx : Nat)
  | merge
  deriving DecidableEq, Repr

/-- Service port of a packet addressed to a node that this QD1 serves (R174). -/
def servicePort (p : Packet) : Option Nat :=
  if p.rsp then
    let q := p.que.toNat
    if q < 256 then some (8 + q % 4)
    else if q < 384 then some (4 + q % 4)
    else if q < 448 then some 12
    else if q < 512 then some 14
    else if 528 ≤ q ∧ q ≤ 560 then some 13
    else if q = 576 then some 15
    else none
  else if opcIsCoh p.opc then some 13
  else if p.opc == Opc.FENCE then some 0
  else if p.win < 48 then some (fget p.w2 7 2)
  else if p.win = 48 then some 14
  else if p.win = 50 then some 10
  else if p.win = 62 ∨ p.win = 63 then some 15
  else none

/-- Requests that are not carried between racks (R19). -/
def opcLocal (o : Nat) : Bool := opcIsAtomic o || o == Opc.REDA || o == Opc.MSG || o == Opc.BELL || opcIsCoh o

/-- Coherence requests, which this QD1 takes into its directory whatever node they name (R142); a relayed
RDNA goes to the home end point (R161). -/
def toDirectory (p : Packet) : Bool :=
  !p.rsp && decide (Opc.RDSH ≤ p.opc) && decide (p.opc ≤ Opc.EVICT) && !(p.opc == Opc.RDNA && bitAt (wd p.aux) 0)

/-- The one lookup of a packet at ingress (R174, R194). -/
def State.route (s : State) (p : Packet) : Route :=
  if toDirectory p then .port 173 208 false
  else if p.dst = s.qdNode ∨ (s.qd.fault.takeover ∧ p.dst = s.partnerNode) then
    if p.rsp && p.que == 512 then .merge
    else match servicePort p with
      | some k => .port (160 + k) (nodeSlot p.dst) false
      | none => .fail St.NOWIN
  else
    let i := s.routeIdx p.dst
    if 256 ≤ i ∧ !p.rsp ∧ s.qd.variant = .qd15 then .fail St.ABSENT
    else if 256 ≤ i ∧ !p.rsp ∧ opcLocal p.opc then .fail St.PERM
    else
      let w := s.rg (routeOff i)
      if !(routeOk w) then .broken i
      else if s.qd.sw.rtBad.contains i then .fail St.LOST
      else
        let st := fget w 8 2
        if st = 0 ∨ st = 3 then .fail St.LOST
        else if 256 ≤ i then
          if (List.range 14).any (fun j => bitAt w (10 + j) && s.portUp (146 + j)) then
            .port 172 i (st == 2)
          else .fail St.LOST
        else
          let t := fget w 0 8
          if t < 160 then .port t i (st == 2)
          else if 0xC0 ≤ t ∧ t < 0xD0 then .port (160 + (t - 0xC0)) i (st == 2)
          else .fail St.LOST

/-! ### Colours and random early drop (R182, R183) -/

/-- The colour profile of an ingress: the Ferry's own output uses profile 3 (R184). -/
def State.profile (s : State) (ing : Nat) : Nat :=
  if ing < 160 then s.fl (F.SW_PORT_CTL_CPROF ing) else 3

/-- The meter: colour 0 green, 1 yellow, 2 red. -/
def meter (ing len : Nat) (s : State) : Nat × State :=
  let f := s.profile ing
  let tc := s.fl (F.SW_CPROF_W0_CBS f) * 256 * 17 - Tbl.at s.qd.sw.tcSpent ing
  let tp := s.fl (F.SW_CPROF_W0_PBS f) * 256 * 17 - Tbl.at s.qd.sw.tpSpent ing
  let l := len * 17
  if tp < l then (2, s)
  else
    let s := s.mapSw (fun w => { w with tpSpent := Tbl.mod w.tpSpent ing (· + l) })
    if tc < l then (1, s)
    else (0, s.mapSw (fun w => { w with tcSpent := Tbl.mod w.tcSpent ing (· + l) }))

/-- min, max and pmax of a colour. -/
def State.redLimits (s : State) (f col : Nat) : Nat × Nat × Nat :=
  match col with
  | 0 => (s.fl (F.SW_CPROF_W1_G_MIN f), s.fl (F.SW_CPROF_W1_G_MAX f), s.fl (F.SW_CPROF_W1_G_PMAX f))
  | 1 => (s.fl (F.SW_CPROF_W2_Y_MIN f), s.fl (F.SW_CPROF_W2_Y_MAX f), s.fl (F.SW_CPROF_W2_Y_PMAX f))
  | _ => (s.fl (F.SW_CPROF_W3_R_MIN f), s.fl (F.SW_CPROF_W3_R_MAX f), s.fl (F.SW_CPROF_W3_R_PMAX f))

/-- The drop decision for a covered cell, and its count at the egress. -/
def dropCell (ing egr len : Nat) (s : State) : Bool × State :=
  let m := meter ing len s
  let s := m.2
  let lim := s.redLimits (s.profile ing) m.1
  let b := s.backlog egr 3
  let r := draw 24 s
  let drop :=
    if lim.2.1 ≤ b then true
    else if b < lim.1 then false
    else decide (r.1.toNat * (lim.2.1 - lim.1) * 256 < lim.2.2 * (b - lim.1) * 2 ^ 24)
  let s := if lim.1 ≤ b ∧ b < lim.2.1 then r.2 else s
  (drop,
   if drop then
     match m.1 with
     | 0 => s.count (F.TEL_28_DROP_G egr)
     | 1 => s.count (F.TEL_28_DROP_Y egr)
     | _ => s.count (F.TEL_30_DROP_R egr)
   else s)

/-! ### Admission (R172, R177, R178) -/

/-- Cells of a packet. -/
def pktCells (p : Packet) : Nat := if p.slots ≤ 16 then 1 else 2

/-- Bytes that a cell of a packet carries. -/
def cellBytes (p : Packet) (i : Nat) : Nat := 16 * (if i = 0 then min 16 p.slots else p.slots - 16)

/-- Management packets travel on management credits, in class 1 (R403). -/
def isMgmt (p : Packet) : Bool := decide (p.ctx = 0) && decide (p.cls = 1)

/-- Take a credit of a link ingress and class for an arriving cell: a guaranteed one first. -/
def takeCredit (ing c : Nat) (mgmt : Bool) (s : State) : CellTag × State :=
  let k := 4 * ing + c
  if mgmt then (.recovery, s)
  else if 160 ≤ ing then
    let g := (s.qd.sw.buf.filter (fun x => x.ing == ing && x.cls == c && decide (x.tag = .guaranteed))).length
    (if g < 8 then .guaranteed else .shared, s)
  else if 0 < Tbl.at s.qd.sw.cg k then
    (.guaranteed, s.mapSw (fun w => { w with cg := Tbl.mod w.cg k (· - 1) }))
  else if 0 < Tbl.at s.qd.sw.cs k then
    (.shared, s.mapSw (fun w => { w with cs := Tbl.mod w.cs k (· - 1) }))
  else (.recovery, s)

/-- Put the cells of a packet in the buffer; one of them that is dropped takes the others with it. -/
def takeIn (ing egr idx : Nat) (held : Bool) (p : Packet) (s : State) : State :=
  let c := p.cls.toNat
  let covered := decide (c = 3) && ((decide (146 ≤ ing) && decide (ing < 160)) ||
    (ing == 172 && decide (146 ≤ egr) && decide (egr < 160)))
  let d := if covered then (List.range (pktCells p)).foldl (fun (acc : Bool × State) i =>
      if acc.1 then acc else dropCell ing egr (cellBytes p i) acc.2) (false, s) else (false, s)
  let r := (List.range (pktCells p)).foldl (fun (s : State) i =>
    let t := takeCredit ing c (isMgmt p) s
    if d.1 then t.2
    else
      let cell : Cell := { ing := ing, egr := egr, cls := c, pkt := p, idx := i,
                           last := i + 1 == (pktCells p), tag := t.1, route := idx, held := held }
      (t.2.mapSw (fun w => { w with buf := w.buf ++ [cell] })).tel (R.TEL_00 ing) 1) d.2
  r.peak egr c

/-- INGRESS_PACKET: header complement, E2E, routing, admission (R55, R79, R172, R194). -/
def execIngressPacket (i : Ingress) (p : Packet) (s : State) : Res :=
  .next (
    let n := ingNo i
    let v : Via := match i with
      | .link k => .link k
      | .service _ => .unit
    if s.fenced then s
    else if !p.complOk then
      let s := pktEvent v St.COMPL p s
      if s.srcInRack v p then refusePkt p St.COMPL s else s
    else if !p.e2eOk then refusePkt p St.CHECK (pktEvent v St.CHECK p s)
    else match s.route p with
      | .port e idx held => takeIn n e idx held p s
      | .merge => emit s (.toUnit 16 p)
      | .broken idx =>
        let s := s.breakRoute idx
        if s.srcInRack v p then refusePkt p St.COMPL s else s
      | .fail st =>
        let s := if p.rsp then s.count (F.TEL_20_FLUSHED n) (pktCells p) else s
        refusePkt p st s)

/-! ### Hot lines (R185-R190) -/

/-- Requests that the tracker counts (R185). -/
def opcTracked (o : Nat) : Bool :=
  (decide (0x10 ≤ o) && decide (o ≤ 0x13)) || o == Opc.ADD || o == Opc.FADD || o == Opc.LD

/-- 128-byte lines of the window that a request touches. -/
def pktLines (p : Packet) : List Nat :=
  (p.runs.flatMap (fun r =>
    let a := p.win * 2 ^ 44 + r.1
    if r.2 = 0 then [] else
      (List.range ((a + r.2 - 1) / 128 - a / 128 + 1)).map (fun i => a / 128 + i))).eraseDups

/-- Whether combining concerns a packet at an egress: a request of classes 0 to 2 that is no
coherence opcode, towards an end-point port (R131, R185). -/
def hotCare (e : Nat) (p : Packet) : Bool :=
  decide (e < 144) && !p.rsp && decide (p.cls ≠ 3) && !(opcIsCoh p.opc) && !(isMgmt p)

/-- Entries of the merge buffer in use. -/
def State.mergeEnts (s : State) : List (Nat × MergeEnt) :=
  s.qd.sw.merge.filterMap (fun p => p.2.map (fun m => (p.1, m)))

/-- Add updates may be opened: the partner ports are up and the pair is not exposed (R190, R475). -/
def State.canAdd (s : State) : Bool := s.mirroring && s.flag F.FT_STS_PLINK

/-- Count a request in its egress's tracker; the line that becomes hot is entered (R185). -/
def trackHot (e : Nat) (p : Packet) (s : State) : State :=
  if !(opcTracked p.opc) || decide (p.kslot ≠ 0) then s
  else match (pktLines p) with
    | [] => s
    | ln :: _ =>
      let l := Tbl.at s.qd.sw.hot e
      let old := (l.find? (fun h => h.dst == p.dst && h.line == ln)).getD { dst := p.dst, line := ln }
      let new := { old with cur := old.cur + 1 }
      let l := (l.filter (fun h => !(h.dst == p.dst && h.line == ln)))
      let l := (if l.length < 32 then l else l.drop 1) ++ [new]
      let s := s.mapSw (fun w => { w with hot := Tbl.put w.hot e l })
      let ents := s.mergeEnts
      if new.prev + new.cur < 64 ∨ ents.any (fun m => m.2.dst == p.dst && m.2.line == ln) then s
      else if 512 ≤ ents.length ∨ 16 ≤ (ents.filter (fun m => m.2.egr == e)).length then
        (if new.prev + new.cur = 64 then s.count (F.TEL_78_HOT_MISS e) else s)
      else match (List.range 512).find? (fun k => (Tbl.at s.qd.sw.merge k).isNone) with
        | none => s
        | some k => (s.mapSw (fun w => { w with
            merge := Tbl.put w.merge k (some { dst := p.dst, line := ln, egr := e }) })).count (F.TEL_78_HOT e)

/-- Put a packet in the egress stage. -/
def toStage (e : Nat) (p : Packet) (s : State) : State :=
  s.mapSw (fun w => { w with stage := w.stage ++ (List.range (pktCells p)).map (fun i =>
    { ing := 176, egr := e, cls := p.cls.toNat, pkt := p, idx := i, last := i + 1 == (pktCells p),
      route := s.routeIdx p.dst }) })

/-- Writes held in an unsent update by a source queue. -/
def Update.has (u : Update) (p : Packet) : Bool :=
  u.members.any (fun m => decide (m.1.src = p.src) && decide (m.1.que = p.que))

/-- The member fields that an update's members share (R186). -/
def sameUpdate (h p : Packet) : Bool :=
  decide (h.ctx = p.ctx) && decide (h.gen = p.gen) && decide (h.cls = p.cls)

/-- Bytes of a store, by byte of the 128-byte line. -/
def storeImage (p : Packet) : List (Nat × Byte) :=
  let b := p.off % 128
  match p.mask with
  | some m => ((List.range 64).filter (fun i => bitAt m.1 i)).map (fun i => (b + i, p.data.getD i 0))
  | none => p.data.mapIdx (fun i d => (b + i, d))

/-- An update with a member added. -/
def Update.join (u : Update) (p : Packet) : Update :=
  if u.isAdd then
    { u with total := u.total + BitVec.ofNat 128 (natOf p.data), members := u.members ++ [(p, u.total)] }
  else
    { u with image := (storeImage p).foldl (fun t x => Tbl.put t x.1 (some x.2)) u.image
             members := u.members ++ [(p, 0)] }

/-- A new update, opened by its first member. -/
def openUpdate (p : Packet) (tseq : Byte) : Update :=
  Update.join { isAdd := p.opc == Opc.ADD || p.opc == Opc.FADD, head := p, tseq := tseq } p

/-- What the buffer holds of the bytes of a load. -/
def Update.forward (u : Update) (p : Packet) : Option (List Byte) :=
  (List.range p.len).foldr (fun i acc =>
    match acc, Tbl.at u.image (p.off % 128 + i) with
    | some l, some b => some (b :: l)
    | _, _ => none) (some [])

/-- Change an entry's update. -/
def State.setUpdate (s : State) (k : Nat) (u : Option Update) : State :=
  s.mapSw (fun w => { w with merge := Tbl.mod w.merge k (fun m => m.map (fun m => { m with update := u })) })

/-- The response of a load that the buffer answers: FWD = 1 (R127, R186). -/
def forwardAnswer (p : Packet) (d : List Byte) : Packet :=
  Hdr.packet { p.answerHdr St.OK with len := d.length, aux := 1 } none none d

/-- A packet reaches its egress: it is merged, answered, held or passed on (R132, R186, R188). -/
def egressIn (e : Nat) (p : Packet) (s : State) : State :=
  if !(hotCare e p) then toStage e p s
  else
    let ents := s.mergeEnts.filter (fun m => m.2.dst == p.dst)
    let unsent := ents.filterMap (fun m => m.2.update.map (fun u => (m.1, u)))
    let name := fun (x : Nat × Update) => (x.1, x.2.tseq)
    let wall := if p.opc == Opc.FENCE || p.ord == 2 then unsent.map name else []
    let mine := (unsent.filter (fun x => x.2.has p)).map name
    let ahead := (s.qd.sw.heldQ.filter (fun h => h.2.1 == e && sameStream h.2.2 p &&
      decide (h.2.2.dst = p.dst))).flatMap (fun h => h.1)
    let lns := if p.opc == Opc.FENCE || p.opc == Opc.MSG then [] else (pktLines p)
    let touched := ents.filter (fun m => lns.contains m.2.line)
    let hold := fun (ws : List (Nat × Byte)) (s : State) =>
      s.mapSw (fun w => { w with heldQ := w.heldQ ++ [(ws.eraseDups, e, p)] })
    let qual := decide (nodeSlot p.src < 144) && decide (nodeRack p.src = s.qdRack) && p.ord == 0 &&
      decide (p.kslot = 0) && opcTracked p.opc && lns.length == 1
    match touched with
    | [] =>
      let ws := wall ++ mine ++ ahead
      if ws.isEmpty then toStage e p s else hold ws s
    | (k, m) :: more =>
      match m.update with
      | none =>
        let ws := wall ++ mine ++ ahead ++ (unsent.filter (fun x => more.any (fun y => y.1 == x.1))).map name
        if !ws.isEmpty then hold ws s
        else if qual && (p.opc != Opc.LD) && (!(p.opc == Opc.ADD || p.opc == Opc.FADD) || s.canAdd) then
          let t := Tbl.at s.qd.sw.mergeUses k + 1
          (s.mapSw (fun w => { w with mergeUses := Tbl.put w.mergeUses k t })).setUpdate k
            (some (openUpdate p t))
        else toStage e p s
      | some u =>
        let fits := qual && !u.closed && sameUpdate u.head p && wall.isEmpty && ahead.isEmpty &&
          mine.all (fun x => x == (k, u.tseq))
        let isAdd := p.opc == Opc.ADD || p.opc == Opc.FADD
        if fits && p.opc == Opc.LD && !u.isAdd && (u.forward p).isSome then
          emit s (.unitSend (forwardAnswer p ((u.forward p).getD [])))
        else if fits && p.opc != Opc.LD &&
            (if u.isAdd then isAdd && p.off == u.head.off && atomSize p.aux == atomSize u.head.aux &&
               decide (u.members.length < 256)
             else !isAdd) then
          s.setUpdate k (some (u.join p))
        else
          let s := touched.foldl (fun s y => match y.2.update with
            | some u => s.setUpdate y.1 (some { u with closed := true })
            | none => s) s
          hold (wall ++ mine ++ ahead ++
            (unsent.filter (fun x => touched.any (fun y => y.1 == x.1))).map name) s

/-- Requests whose updates have all been sent go on, in order of arrival. -/
def releaseHeld (done : Nat × Byte) (s : State) : State :=
  let l := s.qd.sw.heldQ
  l.foldl (fun s h =>
    let ws := h.1.filter (fun x => x != done)
    if ws.isEmpty then egressIn h.2.1 h.2.2 s
    else s.mapSw (fun w => { w with heldQ := w.heldQ ++ [(ws, h.2.1, h.2.2)] }))
    (s.mapSw (fun w => { w with heldQ := [] }))

/-- The header of an update's packets (R187). -/
def updateHdr (s : State) (k : Nat) (m : MergeEnt) (u : Update) (opc off len aux : Nat) : Hdr :=
  { dst := m.dst, ctx := u.head.ctx, opc := opc, kslot := u.head.kslot, src := s.qdNode, cls := u.head.cls,
    gen := u.head.gen, que := 512, woff := m.line / 2 ^ 37 * 2 ^ 44 + off, tag := k, len := len,
    tseq := u.tseq, aux := aux }

/-- The packets of an update (R187). -/
def updatePackets (s : State) (k : Nat) (m : MergeEnt) (u : Update) : List Packet :=
  if u.isAdd then
    let n := atomSize u.head.aux
    [Hdr.packet (updateHdr s k m u Opc.FADD u.head.off n (u.head.aux % 4)) none none
      (bytesOf n u.total.toNat)]
  else
    let acked := u.members.any (fun x => !(opcIsPosted x.1.opc))
    ((List.range 2).filter (fun b => (List.range 64).any (fun i => (Tbl.at u.image (64 * b + i)).isSome))).map
      (fun b =>
        let mask : Word := (List.range 64).foldl (fun w i =>
          if (Tbl.at u.image (64 * b + i)).isSome then w ||| (1#64 <<< i) else w) 0
        let d := (List.range 64).map (fun i => (Tbl.at u.image (64 * b + i)).getD 0)
        Hdr.packet (updateHdr s k m u (if acked then Opc.STMA else Opc.STM)
          (m.line % 2 ^ 37 * 128 + 64 * b) 64 0) none (some (mask, ~~~ mask)) d)

/-- The combine record of an add update (R190). -/
def recordOf (s : State) (k : Nat) (m : MergeEnt) (u : Update) : CombineRec :=
  { entry := Fin.ofNat 512 k, dst := m.dst, total := u.total, tag := BitVec.ofNat 9 k, tseq := u.tseq,
    members := u.members.map (fun x => ⟨x.1.key, x.2⟩)
    head := (updatePackets s k m u).headD u.head }

/-- Send an entry's update: its packets enter the egress stage, the Ledger records the order of an
add, and the requests held behind it go on. -/
def sendUpdate (k : Nat) (s : State) : State :=
  match Tbl.at s.qd.sw.merge k with
  | none => s
  | some m =>
    match m.update with
    | none => s
    | some u =>
      let ps := updatePackets s k m u
      let acked := u.isAdd || u.members.any (fun x => !(opcIsPosted x.1.opc))
      let u := { u with closed := true, awaiting := if acked then ps.length else 0 }
      let s := s.setUpdate k none
      let s := s.mapSw (fun w => { w with sentUpd := w.sentUpd.filter (fun x => !(x.1 == k && x.2.2.2.awaiting == 0)) ++
        [(k, m.dst, m.egr, u)] })
      let s := ps.foldl (fun s p => toStage m.egr p s) s
      let s := if u.isAdd then
        s.journal Lg.COMBINE u.head.ctx 0x03 0
          (bytesOf 2 m.dst.toNat ++ bytesOf 2 u.members.length ++ List.replicate 4 0 ++
           wordBytes (wd (m.line * 128 / 2 ^ 44 * 2 ^ 44 + u.head.off)) ++ bytesOf 8 u.total.toNat ++
           u.members.flatMap (fun x => keyBytes x.1.key 0 ++ bytesOf 8 x.2.toNat))
        else s
      releaseHeld (k, u.tseq) s

/-- MERGE_UPDATE_SEND: the spacing of the entry's line has passed. An add update first goes to the
partner as a combine record; without a pair it is sent without one (R187, R190, R475). -/
def execMergeUpdateSend (e : Fin 512) (s : State) : Res :=
  .next (
    match Tbl.at s.qd.sw.merge e.val with
    | none => s
    | some m =>
      match m.update with
      | none => s
      | some u =>
        if u.isAdd ∧ !u.recAcked ∧ s.mirroring then
          if u.recSent then s
          else emit (s.setUpdate e.val (some { u with closed := true, recSent := true }))
            (.combine (recordOf s e.val m u))
        else sendUpdate e.val s)

/-- COMBINE_RECORD_ACK: the held add update is sent. -/
def execCombineRecordAck (e : Fin 512) (s : State) : Res :=
  .next (
    match Tbl.at s.qd.sw.merge e.val with
    | none => s
    | some m =>
      match m.update with
      | none => s
      | some u =>
        if u.isAdd ∧ u.recSent then sendUpdate e.val (s.setUpdate e.val (some { u with recAcked := true }))
        else s)

/-- COMBINE_RECORD: the partner keeps the record and acknowledges it; one without members retires the record
of its entry (log entry 47). -/
def execCombineRecord (r : CombineRec) (s : State) : Res :=
  .next (
    let keep := s.qd.sw.partnerRecs.filter (fun x => decide (x.entry ≠ r.entry))
    if r.members.isEmpty then s.mapSw (fun w => { w with partnerRecs := keep })
    else emit (s.mapSw (fun w => { w with partnerRecs := keep ++ [r] })) (.combineAck r.entry.val))

/-- The answers to an update's members (R187). -/
def memberAnswers (u : Update) (st : BitVec 7) (old : Nat) : List Packet :=
  let n := atomSize u.head.aux
  u.members.filterMap (fun x =>
    if x.1.opc == Opc.FADD && (st == 0 || st == 1) then
      some (x.1.answer St.OK (bytesOf n (old + x.2.toNat)))
    else if !(opcIsPosted x.1.opc) then some (x.1.answer (if st = 1 then St.OK else st))
    else if st ≠ 0 then some (x.1.answer st) else none)

/-- Tell the partner that a combine record is retired, by a record without members (log entry 47). -/
def retireRecord (k : Nat) (t : Byte) (s : State) : State :=
  emit s (.combine { entry := Fin.ofNat 512 k, dst := 0, total := 0, tag := BitVec.ofNat 9 k, tseq := t,
                     members := [], head := default })

/-- Settle a sent update: its members are answered and its record is retired. -/
def settleUpdate (k : Nat) (u : Update) (st : BitVec 7) (old : Nat) (s : State) : State :=
  let s := s.mapSw (fun w => { w with sentUpd := w.sentUpd.filter (fun x =>
    !(x.1 == k && decide (x.2.2.2.tseq = u.tseq))) })
  let s := emits s ((memberAnswers u st old).map .unitSend)
  if u.isAdd && u.recAcked then retireRecord k u.tseq s else s

/-- The answer to an update on QUE 512, or the notice of a failed posted one (R187). -/
def mergeResponse (p : Packet) (s : State) : State :=
  match s.qd.sw.sentUpd.find? (fun x => x.1 == (if p.dst = s.qdNode then 0 else 512) + p.tag.toNat &&
      decide (x.2.2.2.tseq = p.tseq)) with
  | none => s
  | some x =>
    let u := x.2.2.2
    let st := if u.status = 0 then p.status else u.status
    if u.awaiting ≤ 1 then settleUpdate x.1 u st (natOf p.data) s
    else s.mapSw (fun w => { w with sentUpd := w.sentUpd.map (fun y =>
      if y.1 == x.1 && decide (y.2.2.2.tseq = u.tseq) then
        (y.1, y.2.1, y.2.2.1, { u with awaiting := u.awaiting - 1, status := st })
      else y) })

/-- The reply timer of a sent update expires (R76): an add is resent up to RTY_MAX times and then is
indeterminate; a line of stores is not resent. -/
def mergeTimeout (tag : Nat) (s : State) : State :=
  (s.qd.sw.sentUpd.filter (fun x => x.1 % 512 == tag && x.2.2.2.awaiting != 0)).foldl (fun s x =>
    let u := x.2.2.2
    if !u.isAdd then settleUpdate x.1 u St.LOST 0 s
    else if u.tries < s.fl F.QD_TXN_TMO_RTY_MAX then
      let m : MergeEnt := { dst := x.2.1, egr := x.2.2.1, line := u.head.win * 2 ^ 37 + u.head.off / 128 }
      let s := s.mapSw (fun w => { w with sentUpd := w.sentUpd.map (fun y =>
        if y.1 == x.1 && decide (y.2.2.2.tseq = u.tseq) then
          (y.1, y.2.1, y.2.2.1, { u with tries := u.tries + 1 })
        else y) })
      if x.1 < 512 then
        (updatePackets s x.1 m u).foldl (fun s p => toStage m.egr p.resent s) s
      else emit s (.unitSend u.head.resent)
    else settleUpdate x.1 u St.INDET 0 s) s

/-- MERGE_UPDATE_RESPONSE. -/
def execMergeUpdateResponse (p : Packet) (s : State) : Res :=
  .next (if !p.rsp || !p.complOk || p.que != 512 then s else mergeResponse p s)

/-- HOT_WINDOW_TICK: lines with fewer than 16 requests in the two half-windows and no update leave
combining, and the counts roll (R185, R189). -/
def execHotWindowTick (s : State) : Res :=
  .next (
    let cnt := fun (m : MergeEnt) =>
      match (Tbl.at s.qd.sw.hot m.egr).find? (fun h => h.dst == m.dst && h.line == m.line) with
      | some h => h.prev + h.cur
      | none => 0
    s.mapSw (fun w => { w with
      merge := w.merge.filter (fun x => match x.2 with
        | some m => m.update.isSome || decide (16 ≤ cnt m)
        | none => false)
      hot := w.hot.filterMap (fun x =>
        let l := (x.2.filter (fun h => h.cur != 0)).map (fun h => { h with prev := h.cur, cur := 0 })
        if l.isEmpty then none else some (x.1, l)) }))

/-! ### Matching (R175, R176) -/

/-- WEIGHT of a class. -/
def State.weight (s : State) (c : Nat) : Nat := s.fl (F.SW_CLS_CTL_WEIGHT c)

/-- Deficit round robin among classes 1 to 3: current class and deficits. The key of an egress's
current class is 8 × e, and of a class's deficit 8 × e + c. -/
def drrStep (w : Nat → Nat) (want : Nat → Bool) (cost : Nat → Nat) : Nat → Nat → (Nat → Nat) →
    Option (Nat × (Nat → Nat))
  | 0, _, _ => none
  | fuel + 1, cur, d =>
    if want cur && decide (cost cur ≤ d cur) then some (cur, fun c => if c = cur then d c - cost c else d c)
    else
      let nxt := if cur = 3 then 1 else cur + 1
      drrStep w want cost fuel nxt (fun c =>
        if c = nxt then (if want nxt then d c + w nxt else 0)
        else if c = cur ∧ !(want cur) then 0 else d c)

/-- The class that an egress picks, and its round-robin state afterwards. -/
def pickClass (s : State) (t : Tbl Nat) (e : Nat) (want : Nat → Bool) (cost : Nat → Nat) :
    Option (Nat × Tbl Nat) :=
  if want 0 then some (0, t)
  else if !(want 1) && !(want 2) && !(want 3) then none
  else
    let cur := max 1 (Tbl.at t (8 * e))
    match drrStep s.weight want cost 128 cur (fun c => Tbl.at t (8 * e + c)) with
    | none => none
    | some r => some (r.1, Tbl.put (Tbl.put (Tbl.put (Tbl.put t (8 * e) r.1)
        (8 * e + 1) (r.2 1)) (8 * e + 2) (r.2 2)) (8 * e + 3) (r.2 3))

/-- First element at or after a start, cyclically among 176. -/
def firstFrom (start : Nat) (l : List Nat) : Option Nat :=
  match (l.filter (fun x => decide (start ≤ x))).min? with
  | some x => some x
  | none => l.min?

/-- A match in progress: pairs made, and the cells still free at each ingress and egress. -/
structure Match where
  pairs : List (Nat × Nat × Nat) := []
  usedIn : Tbl Nat := []
  usedOut : Tbl Nat := []
  gptr : Tbl Nat
  aptr : Tbl Nat
  drr : Tbl Nat
  deriving DecidableEq, Repr

/-- Key of a pointer: exchange, port and class. -/
def ptrKey (x n c : Nat) : Nat := (x * 176 + n) * 4 + c

/-- The grants of one egress: up to `n` pairs of an ingress and a class. -/
def grantsOf (s : State) (x e : Nat) : Nat → List (Nat × Nat) → Match → List (Nat × Nat × Nat)
  | 0, _, _ => []
  | n + 1, reqs, m =>
    match pickClass s m.drr (x * 1000 + e) (fun c => reqs.any (fun r => r.2 == c)) (fun _ => 1) with
    | none => []
    | some (c, drr) =>
      match firstFrom (Tbl.at m.gptr (ptrKey x e c)) ((reqs.filter (fun r => r.2 == c)).map (·.1)) with
      | none => []
      | some i => (i, e, c) :: grantsOf s x e n (reqs.filter (fun r => r != (i, c))) { m with drr := drr }

/-- One ingress accepts up to `n` of its grants. -/
def acceptOf (s : State) (x i : Nat) (first : Bool) : Nat → List (Nat × Nat × Nat) → Match → Match
  | 0, _, m => m
  | n + 1, gs, m =>
    match (gs.map (fun g => g.2.2)).min? with
    | none => m
    | some c =>
      match firstFrom (Tbl.at m.aptr (ptrKey x i c)) ((gs.filter (fun g => g.2.2 == c)).map (fun g => g.2.1)) with
      | none => m
      | some e =>
        let drr := match pickClass s m.drr (x * 1000 + e) (fun k => k == c) (fun _ => 1) with
          | some r => r.2
          | none => m.drr
        let m := { m with
          pairs := m.pairs ++ [(i, e, c)], usedIn := Tbl.mod m.usedIn i (· + 1)
          usedOut := Tbl.mod m.usedOut e (· + 1), drr := drr
          gptr := if first then Tbl.put m.gptr (ptrKey x e c) ((i + 1) % 176) else m.gptr
          aptr := if first then Tbl.put m.aptr (ptrKey x i c) ((e + 1) % 176) else m.aptr }
        acceptOf s x i first n (gs.filter (fun g => g != (i, e, c))) m

/-- Cells that a port moves in one cell time of an exchange: eight at a service port (R173). -/
def portCap (n : Nat) : Nat := if n < 160 then 1 else 8

/-- One iteration of request, grant and accept over the eligible VOQs. -/
def matchIter (s : State) (x : Nat) (first : Bool) (voqs : List (Nat × Nat × Nat)) (m : Match) : Match :=
  let reqs := voqs.filter (fun v => !(m.pairs.contains v) &&
    decide (Tbl.at m.usedIn v.1 < portCap v.1) && decide (Tbl.at m.usedOut v.2.1 < portCap v.2.1))
  let egrs := (reqs.map (fun v => v.2.1)).eraseDups
  let grants := egrs.flatMap (fun e =>
    grantsOf s x e (portCap e - Tbl.at m.usedOut e)
      ((reqs.filter (fun v => v.2.1 == e)).map (fun v => (v.1, v.2.2))) m)
  let ings := (grants.map (fun g => g.1)).eraseDups
  ings.foldl (fun m i =>
    acceptOf s x i first (portCap i - Tbl.at m.usedIn i) (grants.filter (fun g => g.1 == i)) m) m

/-- The head cells of the VOQs, in order of arrival. -/
def headCells (buf : List Cell) : List Cell :=
  buf.foldl (fun acc c =>
    if acc.any (fun h => h.ing == c.ing && h.egr == c.egr && h.cls == c.cls) then acc else acc ++ [c]) []

/-- A head cell is eligible: its stage has room in its class, its destination is not held, and no
other packet's cells are under way to the same stage (R172, R175). -/
def State.eligible (s : State) (c : Cell) : Bool :=
  !(c.held && decide (s.routeState c.route = 2)) &&
  (decide (160 ≤ c.egr) ||
    (let st := s.qd.sw.stage.filter (fun x => x.egr == c.egr && x.cls == c.cls)
     decide (st.length < 16) &&
     (match st.getLast? with
      | some l => l.last || l.ing == c.ing
      | none => true)))

/-- Which exchange a cell crosses: 0 the crossbar, 1 towards service ports, 2 from them. -/
def exchange (c : Cell) : Nat := if 160 ≤ c.egr then 1 else if 160 ≤ c.ing then 2 else 0

/-- One match of an exchange with three iterations. -/
def matchX (x : Nat) (s : State) : Match :=
  let voqs := ((headCells s.qd.sw.buf).filter (fun c => exchange c == x && s.eligible c)).map
    (fun c => (c.ing, c.egr, c.cls))
  let m0 : Match := { gptr := s.qd.sw.gptr, aptr := s.qd.sw.aptr, drr := s.qd.sw.drr }
  matchIter s x false voqs (matchIter s x false voqs (matchIter s x true voqs m0))

/-- Mark CE on a packet whose first cell enters a link egress stage (R181). -/
def markCe (c : Cell) (s : State) : Packet × State :=
  if 160 ≤ c.egr ∨ 2 < c.cls ∨ !(s.flag (F.SW_PORT_CTL_MARK_EN c.egr)) then (c.pkt, s)
  else
    let b := s.backlog c.egr c.cls
    let lo := s.fl (F.SW_CLS_CTL_MARK_LO c.cls)
    let hi := s.fl (F.SW_CLS_CTL_MARK_HI c.cls)
    let r := draw 24 s
    let mark := if b < lo then false else if hi ≤ b then true
      else decide (r.1.toNat * (hi - lo) < (b - lo) * 2 ^ 24)
    let s := if lo ≤ b ∧ b < hi then r.2 else s
    if mark then ({ c.pkt with w0 := c.pkt.w0 ||| (1#64 <<< 60) }, s.count (F.TEL_20_MARKS c.egr))
    else (c.pkt, s)

/-- The buffer without the head cell of a VOQ. -/
def dropHead (v : Nat × Nat × Nat) (buf : List Cell) : List Cell :=
  buf.eraseP (fun x => x.ing == v.1 && x.egr == v.2.1 && x.cls == v.2.2)

/-- The Ferry takes a request for another rack into the gathering transfer (R19, R408). Without a Ferry key
it completes with ERR_KEY, and so does one under a slot that is being retired (R449, R452). -/
def ferryGather (p : Packet) (s : State) : State :=
  let bad := !(p.kslot == 0) && decide (2 ≤ (Tbl.at s.qd.cust.keys p.kslot.toNat).st.toNat)
  if !(s.unitOn 11 2) then emit s (.unitSend (p.answer St.ABSENT))
  else if s.qd.ferry.key.isEmpty || bad then emit s (.unitSend (p.answer St.KEY))
  else s.mapQd (fun q => { q with ferry := { q.ferry with gather := q.ferry.gather ++ [(nodeRack p.dst, p)] } })

/-- Move the head cell of a VOQ. -/
def moveCell (v : Nat × Nat × Nat) (s : State) : State :=
  match s.qd.sw.buf.findIdx? (fun c => c.ing == v.1 && c.egr == v.2.1 && c.cls == v.2.2) with
  | none => s
  | some i =>
    match s.qd.sw.buf[i]? with
    | none => s
    | some c =>
      let s := s.mapSw (fun w => { w with buf := w.buf.eraseIdx i })
      if 160 ≤ c.egr then
        let s := s.tel (R.TEL_08 c.egr) 1
        if !c.last then s
        else if c.egr = 172 ∧ !c.pkt.rsp ∧ nodeRack c.pkt.dst ≠ s.qdRack then ferryGather c.pkt s
        else emit s (.toUnit (c.egr - 160) c.pkt)
      else if c.idx = 0 then
        let r := markCe c s
        let p := r.1
        let s := if hotCare c.egr p then trackHot c.egr p r.2 else r.2
        if hotCare c.egr p && s.mergeEnts.any (fun m => m.2.dst == p.dst) then
          egressIn c.egr p (if c.last then s else s.mapSw (fun w => { w with buf := dropHead v w.buf }))
        else s.mapSw (fun w => { w with stage := w.stage ++ [{ c with pkt := p }] })
      else s.mapSw (fun w => { w with stage := w.stage ++ [c] })

/-! ### Credits (R178, R179) -/

/-- Return credits of one (ingress, class) pair while the rule allows; `fuel` bounds them. -/
def returnCredits (i c : Nat) : Nat → State → State
  | 0, s => s
  | fuel + 1, s =>
    let k := 4 * i + c
    let cells := s.qd.sw.buf.filter (fun x => x.ing == i && x.cls == c)
    let g := (cells.filter (fun x => decide (x.tag = .guaranteed))).length
    let q := (cells.filter (fun x => decide (x.tag = .shared))).length
    let qs := (s.qd.sw.buf.filter (fun x => decide (x.tag = .shared))).length
    let cg := Tbl.at s.qd.sw.cg k
    let cs := Tbl.at s.qd.sw.cs k
    let pol := decide (c = 0) && decide (i < 144) && s.flag (F.SW_PORT_CTL_C0POL i)
    let bucket := Tbl.at s.qd.sw.spent i
    let give := fun (s : State) =>
      s.mapQd (fun d => { d with links := Tbl.mod d.links i (fun l => { l with owed := Tbl.mod l.owed c (· + 1) }) })
    if s.qd.boot.pwr ≠ 0 then s
    else if pol && (decide (2 ≤ cg + cs) || decide (2176 < bucket)) then s
    else if g + cg < 8 then
      returnCredits i c fuel (give (s.mapSw (fun w => { w with
        cg := Tbl.mod w.cg k (· + 1), spent := if pol then Tbl.mod w.spent i (· + 2176) else w.spent })))
    else if !pol && decide (cg + cs < 64) &&
        decide (16 * (q + cs) < s.fl (F.SW_CLS_CTL_ALPHA c) * (502272 - qs)) then
      returnCredits i c fuel (give (s.mapSw (fun w => { w with cs := Tbl.mod w.cs k (· + 1) })))
    else s

/-- CELL_TIME_MATCH: one match of the crossbar and of the service exchange, the moves, and the
credits that the moves return; meters and the policer gain one cell time, and the counters of held
and stalled switch clocks four (R175, R178, R179, R182, R197). -/
def execCellTimeMatch (s : State) : Res :=
  .next (
    let heldIngs := ((s.qd.sw.buf.filter (fun c => c.held && decide (s.routeState c.route = 2))).map (·.ing)).eraseDups
    let waitIngs := (s.qd.node.waits.filterMap (fun w => match w.why, w.via with
      | .replay, .link n => some n.val
      | _, _ => none)).eraseDups
    let stalled := ((s.qd.sw.stage.filter (fun c =>
      decide (Tbl.at (Tbl.at s.qd.links c.egr).cred c.cls = 0) && !(isMgmt c.pkt))).map
        (fun c => (c.egr, c.cls))).eraseDups
    let s := (heldIngs ++ waitIngs).eraseDups.foldl (fun s n => s.tel (R.TEL_70 n) 4) s
    let s := stalled.foldl (fun s x => s.tel (R.TEL_50 x.1 + 8 * x.2) 4) s
    let s := s.mapSw (fun w => { w with
      spent := (w.spent.map (fun x => (x.1, x.2 - 125))).filter (fun x => x.2 != 0)
      tcSpent := (w.tcSpent.map (fun x => (x.1, x.2 - 4 * s.fl (F.SW_CPROF_W0_CIR (s.profile x.1))))).filter
        (fun x => x.2 != 0)
      tpSpent := (w.tpSpent.map (fun x => (x.1, x.2 - 4 * s.fl (F.SW_CPROF_W0_PIR (s.profile x.1))))).filter
        (fun x => x.2 != 0) })
    let run := fun (x : Nat) (s : State) =>
      let m := matchX x s
      let s := s.mapSw (fun w => { w with gptr := m.gptr, aptr := m.aptr, drr := m.drr })
      m.pairs.foldl (fun s v => moveCell v s) s
    let s := run 2 (run 1 (run 0 s))
    let keys : List Nat := (s.qd.sw.cg.map (fun x => x.1) ++ s.qd.sw.cs.map (fun x => x.1) ++
      (s.qd.links.filter (fun (l : Nat × Link) => l.2.crSeen)).flatMap (fun (l : Nat × Link) =>
        (List.range 4).map (4 * l.1 + ·))).eraseDups
    keys.foldl (fun s k => if k / 4 < 160 then returnCredits (k / 4) (k % 4) 64 s else s) s)

/-! ### Ports that go down (R192) -/

/-- Answer a flushed packet; a response is counted. -/
def flushPkt (n : Nat) (st : BitVec 7) (p : Packet) (s : State) : State :=
  if p.rsp then s.count (F.TEL_20_FLUSHED n) (pktCells p)
  else emit (s.count (F.TEL_20_FLUSHED n) (pktCells p)) (.unitSend (p.answer st))

/-- Status of a flushed packet whose flits were sent and not acknowledged. -/
def sentStatus (p : Packet) : BitVec 7 := if opcIsReplayed p.opc then St.INDET else St.LOST

/-- Flush everything that is on its way to a port (R192). -/
def flushPort (n : Nat) (s : State) : State :=
  let cells := (s.qd.sw.buf ++ s.qd.sw.stage).filter (fun c => c.egr == n)
  let pkts := (cells.filter (fun c => c.idx == 0)).map (·.pkt)
  let heads := s.qd.sw.heldQ.filter (fun h => h.2.1 == n)
  let unsent := s.mergeEnts.filter (fun m => m.2.egr == n)
  let sent := s.qd.sw.sentUpd.filter (fun x => x.2.2.1 == n)
  let l := Tbl.at s.qd.links n
  let flits := l.kept.flatMap (·.pkts) ++ l.txPkt.toList
  let s := s.mapSw (fun w => { w with
    buf := w.buf.filter (fun c => c.egr != n), stage := w.stage.filter (fun c => c.egr != n)
    heldQ := w.heldQ.filter (fun h => h.2.1 != n)
    merge := w.merge.filter (fun x => match x.2 with
      | some m => m.egr != n
      | none => true) })
  let s := pkts.foldl (fun s p => if p.src = s.qdNode ∧ p.que = 512 then s else flushPkt n St.LOST p s) s
  let s := heads.foldl (fun s h => flushPkt n St.LOST h.2.2 s) s
  let s := unsent.foldl (fun s m => match m.2.update with
    | some u =>
      let s := u.members.foldl (fun s x => flushPkt n St.LOST x.1 s) s
      if u.recSent then retireRecord m.1 u.tseq s else s
    | none => s) s
  let s := flits.foldl (fun s p => if p.src = s.qdNode ∧ p.que = 512 then s else flushPkt n (sentStatus p) p s) s
  sent.foldl (fun s x =>
    let never := pkts.any (fun p => p.que == 512 && p.tag.toNat == x.1 && decide (p.tseq = x.2.2.2.tseq))
    settleUpdate x.1 x.2.2.2 (if x.2.2.2.isAdd && !never then St.INDET else St.LOST) 0 s) s

/-! ### Route changes (R195, R196, R529) -/

/-- The route index that RT_CMD names. -/
def rtIdx (v : Word) : Nat :=
  if fget v 2 1 = 1 then 256 + fget v 3 8 % 64 else fget v 3 8

/-- Hold an entry (steps 1 and 2 of R196). A hold while another entry is held is dropped. -/
def routeHold (v : Word) (ans : BitVec 7 → List Out) (s : State) : State :=
  let i := rtIdx v
  match s.qd.sw.rtHold with
  | some _ => emits (s.refused Rg.switch R.RT_CMD v) (ans St.PERM)
  | none =>
    let old := s.rg (routeOff i)
    let s := (s.setRouteState i 2).mapSw (fun w => { w with rtHold := some (i, old, none, false) })
    emits (((s.setFl F.RT_STS_BUSY 1).setFl F.RT_STS_STATUS 0).setFl F.RT_STS_HELD 0) (ans St.OK)

/-- ROUTE_HOLD. -/
def execRouteHold (src : RegSrc) (v : Word) (s : State) : Res := .next (routeHold v (regAns src) s)

/-- ROUTE_DRAINED: nothing admitted before the hold is left in the buffer, the stage or, for a local
entry, unacknowledged on the entry's link; for a remote entry the Ferry holds every transfer to the rack
acknowledged end to end; HELD is set (step 3 of R196). -/
def execRouteDrained (s : State) : Res :=
  .next (
    match s.qd.sw.rtHold with
    | some (i, old, nw, false) =>
      let busy := s.qd.sw.buf.any (fun c => c.route == i && !c.held) ||
        s.qd.sw.stage.any (fun c => c.route == i) ||
        (decide (i < 256) && decide (fget old 0 8 < 160) && !(Tbl.at s.qd.links (fget old 0 8)).kept.isEmpty) ||
        (decide (256 ≤ i) && (s.qd.ferry.tx.any (fun t => t.rack + 256 == i) ||
          s.qd.ferry.gather.any (fun g => g.1 + 256 == i)))
      if busy then s
      else ((s.mapSw (fun w => { w with rtHold := some (i, old, nw, true) })).setFl F.RT_STS_BUSY 0).setFl
        F.RT_STS_HELD 1
    | _ => s)

/-- ROUTE_DRAIN_TIMEOUT: an event, and the wait goes on. -/
def execRouteDrainTimeout (s : State) : Res :=
  .next (
    match s.qd.sw.rtHold with
    | some (i, _, _, false) =>
      s.event Rg.switch { cat := Cat.TIMEOUT, obj := Obj.ROUTE, arg0 := wd i,
                          arg1 := wd (s.fl F.RT_DRAIN_TMO_TMO * 1000) }
    | _ => s)

/-- The new value of a drained entry (step 4 of R196); ERR_DESC without a drained hold on it. -/
def routeUpdate (v : Word) (ans : BitVec 7 → List Out) (s : State) : State :=
  let i := rtIdx v
  match s.qd.sw.rtHold with
  | some (j, old, _, true) =>
    if i = j then
      let nv := wd (fget v 11 32)
      let s := s.setRoute i (fget (fset nv 8 2 2) 0 32)
      emits ((s.mapSw (fun w => { w with rtHold := some (j, old, some nv, true) })).setFl F.RT_STS_STATUS 0)
        (ans St.OK)
    else emits (s.setFl F.RT_STS_STATUS St.DESC.toNat) (ans St.OK)
  | _ => emits (s.setFl F.RT_STS_STATUS St.DESC.toNat) (ans St.OK)

/-- ROUTE_UPDATE. -/
def execRouteUpdate (src : RegSrc) (v : Word) (s : State) : Res := .next (routeUpdate v (regAns src) s)

/-- Held cells go on under the entry as it stands: to its egress, or answered when it leads nowhere. -/
def reroute (i : Nat) (s : State) : State :=
  let held := s.qd.sw.buf.filter (fun c => c.route == i && c.held)
  let s := held.foldl (fun s c =>
    match s.route c.pkt with
    | .port _ _ _ => s
    | _ => if c.idx = 0 then refusePkt c.pkt St.LOST s else s) s
  s.mapSw (fun w => { w with buf := w.buf.filterMap (fun c =>
    if c.route == i && c.held then
      match s.route c.pkt with
      | .port e _ _ => some { c with egr := e, held := false }
      | _ => none
    else some c) })

/-- Release a held entry (step 5 of R196): it takes its new value, or its old one when none was
written. -/
def routeRelease (v : Word) (ans : BitVec 7 → List Out) (s : State) : State :=
  match s.qd.sw.rtHold with
  | some (j, old, nw, _) =>
    if rtIdx v = j then
      let s := s.setRoute j (fget (nw.getD old) 0 32)
      let s := reroute j (s.mapSw (fun w => { w with rtHold := none }))
      emits (((s.setFl F.RT_STS_BUSY 0).setFl F.RT_STS_HELD 0).setFl F.RT_STS_STATUS 0) (ans St.OK)
    else emits (s.setFl F.RT_STS_STATUS St.DESC.toNat) (ans St.OK)
  | none => emits (s.setFl F.RT_STS_STATUS St.DESC.toNat) (ans St.OK)

/-- ROUTE_RELEASE. -/
def execRouteRelease (src : RegSrc) (v : Word) (s : State) : Res := .next (routeRelease v (regAns src) s)

/-- Load an entry in set-up state; dropped at any other time (R529). -/
def rtLoad (v : Word) (ans : BitVec 7 → List Out) (s : State) : State :=
  let i := if fget v 8 1 = 1 then 256 + fget v 0 8 % 64 else fget v 0 8
  if s.inSetup then emits (s.setRoute i (fget v 9 32)) (ans St.OK)
  else emits (s.refused Rg.switch R.RT_LOAD v) (ans St.PERM)

/-- RT_LOAD. -/
def execRtLoad (src : RegSrc) (v : Word) (s : State) : Res := .next (rtLoad v (regAns src) s)

/-- ROUTE_SCRUB: every entry is compared with its complement (R194, R484). -/
def execRouteScrub (s : State) : Res :=
  .next ((List.range 320).foldl (fun s i =>
    if routeOk (s.rg (routeOff i)) || s.qd.sw.rtBad.contains i then s else s.breakRoute i) s)

/-- TELEMETRY_SAMPLE: QS0-QS3 of the 176 ports take their backlogs (R198). -/
def execTelemetrySample (s : State) : Res :=
  .next ((List.range 176).foldl (fun s n =>
    s.setRg (R.TEL_40 n) ((List.range 4).foldl (fun w c =>
      fset w (16 * c) 16 (min 65535 (s.backlog n c))) 0)) s)

end Sys2Proof.Machine
end

