-- ==== Sys2Proof/Machine/Links.lean ====
section
/-! DEFINITION. Ports and links: flits, retry, credits, training, width, low power, port tests
(R50-R52, R192, R391-R406), and Ferry segments on their ports (R182, R407). -/

namespace Sys2Proof

open Sys2Proof.Machine

/-- Fields of a Ferry segment's header. -/
def Segment.drack (g : Segment) : Nat := fget g.h0 0 6
def Segment.srack (g : Segment) : Nat := fget g.h0 6 6
def Segment.xid (g : Segment) : Nat := fget g.h0 17 6
def Segment.segi (g : Segment) : Nat := fget g.h0 23 12
def Segment.len (g : Segment) : Nat := fget g.h0 35 9
def Segment.kind (g : Segment) : Nat := fget g.h0 44 4
def Segment.hops (g : Segment) : Nat := fget g.h0 48 2
def Segment.nseg (g : Segment) : Nat := fget g.h1 44 12 + 1

end Sys2Proof

namespace Sys2Proof.Machine

/-! ### The registers of a port -/

/-- A Ferry port (R10). -/
def isFerry : PortSel → Bool
  | .qd n => decide (146 ≤ n.val)
  | .sv _ => false

/-- A port that the variant has: the Ferry ports are absent on the QD1-5 (R4). -/
def State.portThere (s : State) : PortSel → Bool
  | .qd n => decide (n.val < 146) || decide (s.qd.variant ≠ .qd15)
  | .sv _ => true

/-- The lanes of a port run: the lane chiplets train from step 9 of the boot (R507), those of the partner ports
from step 6 of a warm admission (R515), and those of a Svapo block once it is out of reset (R388). -/
def State.lanesOn (s : State) (p : PortSel) : Bool :=
  s.portThere p && (match p with
    | .qd n => (decide (9 ≤ s.fl F.BOOT_STS_STEP) || s.inSetup ||
        (s.qd.boot.warm && s.qd.boot.going && (n.val == 144 || n.val == 145))) &&
      s.pair != 5 && !s.qd.boot.stopped
    | .sv _ => !s.sv.inReset)

/-- STATE of a port. -/
def State.pst (s : State) : PortSel → Nat
  | .qd n => s.fl (F.LN_PORT_STS_STATE n)
  | .sv n => s.srf (SR.SV_PORT_CTL n) 3 3

/-- STEP of a port. -/
def State.pstep (s : State) (p : PortSel) : Nat :=
  match p with
  | .qd n => s.fl (F.LN_PORT_STS_STEP n)
  | .sv _ => (s.link p).step

/-- FAILED of a port. -/
def State.pfailed (s : State) (p : PortSel) : Nat :=
  match p with
  | .qd n => s.fl (F.LN_PORT_STS_FAILED n)
  | .sv _ => (s.link p).failed.toNat

/-- An event of a port. -/
def State.portEvent (s : State) (p : PortSel) (e : Ev) : State :=
  match p with
  | .qd n => s.event (Rg.port n.val) e
  | .sv n => s.svEvent n.val e

/-- Number of a port. -/
def portNo : PortSel → Nat
  | .qd n => n.val
  | .sv n => n.val

/-- Set STATE; a change raises a LINK event with the old and the new state (R494). A Svapo port
controller reports states 0 to 5 only. -/
def State.setPst (s : State) (p : PortSel) (v : Nat) : State :=
  let old := s.pst p
  let v := match p with
    | .qd _ => v
    | .sv _ => if v < 6 then v else 0
  let s := match p with
    | .qd n => s.setFl (F.LN_PORT_STS_STATE n) v
    | .sv n => s.setSrf (SR.SV_PORT_CTL n) 3 3 v
  if old = v then s
  else s.portEvent p { cat := Cat.LINK, obj := Obj.PORT, arg0 := wd (portNo p), arg1 := wd (old + v * 256) }

/-- Set STEP. -/
def State.setPstep (s : State) (p : PortSel) (v : Nat) : State :=
  match p with
  | .qd n => s.setFl (F.LN_PORT_STS_STEP n) v
  | .sv _ => s.mapLink p (fun l => { l with step := v })

/-- Set FAILED. -/
def State.setPfailed (s : State) (p : PortSel) (v : Nat) : State :=
  match p with
  | .qd n => s.setFl (F.LN_PORT_STS_FAILED n) v
  | .sv _ => s.mapLink p (fun l => { l with failed := BitVec.ofNat 4 v })

/-- Count in an error counter of a QD1 port. -/
def State.portCount (s : State) (p : PortSel) (f : Nat → Fld) (n : Nat := 1) : State :=
  match p with
  | .qd k => s.count (f k.val) n
  | .sv _ => s

/-- The port carries packets. -/
def State.portRuns (s : State) (p : PortSel) : Bool := s.pst p == 2 || s.pst p == 3

/-- Both lane pairs hold a failed lane. -/
def pairsFailed (f : Nat) : Bool := decide (f % 4 ≠ 0) && decide (f / 4 % 4 ≠ 0)

/-- First lane of the pair that holds no failed lane. -/
def goodPair (f : Nat) : Nat := if f % 4 = 0 then 0 else 2

/-! ### Segments (R407) -/

/-- Slots of a segment: header, payload and tag. -/
def segSlots (len : Nat) : Nat := 3 + (len + 15) / 16

/-- The bytes of a segment on a link. -/
def segBytes (g : Segment) : List Byte :=
  wordBytes g.h0 ++ wordBytes g.h1 ++ wordBytes g.h2 ++ wordBytes g.h3 ++
  slice g.data 0 (roundUp g.data.length 16) ++ slice g.tag 0 16

/-- The segment that whole slots spell. -/
def segOf (bs : List Byte) : Segment :=
  let h0 := wordAt bs 0
  let n := fget h0 35 9
  { h0 := h0, h1 := wordAt bs 8, h2 := wordAt bs 16, h3 := wordAt bs 24, data := slice bs 32 n,
    tag := slice bs (32 + roundUp n 16) 16 }

/-- NCRIT and E2E of a segment (R55, R79, R407). -/
def segOk (g : Segment) : Bool :=
  decide (fget g.h1 0 44 = 2 ^ 44 - 1 - fget g.h0 0 44) &&
  decide (fget g.h3 0 32 = (crc32c (g.data ++ g.tag)).toNat)

/-- Cells that a segment takes in the switch core. -/
def segCells (g : Segment) : Nat := if segSlots g.len ≤ 16 then 1 else 2

/-- Random early drop of a segment between a Ferry port and the Ferry: a dropped first cell takes the
second with it (R182). The backlog of a Ferry port counts the segments that wait for it. -/
def segDrop (ing egr : Nat) (g : Segment) (s : State) : Bool × State :=
  (List.range (segCells g)).foldl (fun acc i =>
    if acc.1 then acc
    else dropCell ing egr (16 * (if i = 0 then min 16 (segSlots g.len) else segSlots g.len - 16)) acc.2)
    (false, s)

/-- The Ferry emits a segment towards a Ferry port. -/
def ferryOut (n : Nat) (g : Segment) (s : State) : State :=
  let d := segDrop 172 n g s
  if d.1 then d.2
  else (d.2.tel (R.TEL_00 172) (segCells g)).mapQd (fun q => { q with
    links := Tbl.mod q.links n (fun l => { l with segq := l.segq ++ [g] }) })

/-- A segment received on a Ferry port: its header complement and E2E are checked in passing, its
class-3 credits are used, and it is dropped or passed to the Ferry. -/
def ferryArrive (n : Fin 160) (g : Segment) (s : State) : State :=
  if !(segOk g) then
    s.event (Rg.port n.val) { cat := Cat.INTEGRITY, obj := Obj.PACKET, status := St.CHECK, arg0 := g.h0,
                              arg1 := g.h3 }
  else
    let s := (List.range (segCells g)).foldl (fun s _ => (takeCredit n.val 3 false s).2) s
    let d := segDrop n.val 172 g s
    if d.1 then d.2
    else emit ((d.2.tel (R.TEL_00 n.val) (segCells g)).tel (R.TEL_08 172) (segCells g)) (.ferryIn n g)

/-! ### A port that goes down or comes up (R192, R399) -/

/-- The route index that a port's state governs: the slot of an end-point port. -/
def routeOfPort : PortSel → Option Nat
  | .qd n => if n.val < 144 then some n.val else none
  | .sv _ => none

/-- Set the route state of a port's slot; an entry that is held keeps it for its release. -/
def portRoute (p : PortSel) (from_ : Nat → Bool) (st : Nat) (s : State) : State :=
  match routeOfPort p with
  | none => s
  | some i =>
    match s.qd.sw.rtHold with
    | some (j, old, nw, d) =>
      if i = j then
        if from_ (fget old 8 2) then
          s.mapSw (fun w => { w with rtHold := some (j, fset old 8 2 st, nw.map (fun v => fset v 8 2 st), d) })
        else s
      else if from_ (s.routeState i) then s.setRouteState i st else s
    | none => if from_ (s.routeState i) then s.setRouteState i st else s

/-- Replay entries received from the partner are kept beyond their hold, or return to it (R85). -/
def keepMirrored (on : Bool) (which : ReplayEnt → Bool) (s : State) : State :=
  s.mapNode .own (fun n => { n with replay := n.replay.map (fun (r : ReplayEnt) =>
    if r.mirrored && which r then { r with kept := on } else r) })

/-- PLINK: both partner ports are up (R490); with both down the mirrored replay entries are kept. -/
def plinkNow (s : State) : State :=
  let s := s.setFl F.FT_STS_PLINK (b2n (s.portUp 144 && s.portUp 145))
  if s.portUp 144 || s.portUp 145 then s else keepMirrored true (fun _ => true) s

/-- The link state that a port down leaves: what it had sent and received is discarded, its kept
coefficients and the packets of a Svapo block's queue apart. -/
def linkCleared (l : Link) : Link := { coef := l.coef, narrow := l.narrow, segq := l.segq }

/-- The port goes down: the switch core flushes it, or the Svapo block holds its packets and keeps the
replay entries that it answered there, and it trains from T1 (R77, R85, R192, R399). -/
def portDown (p : PortSel) (s : State) : State :=
  let f := s.pfailed p
  let s := s.portCount p F.LN_ERR10_DOWN
  let s := match p with
    | .qd n => flushPort n.val s
    | .sv n =>
      let s := s.mapSv (fun v => { v with held := v.held ++ (Tbl.at v.links n.val).txq.map (fun k => (n.val, k)) })
      s.mapNode .sv (fun d => { d with replay := d.replay.map (fun (r : ReplayEnt) =>
        if r.plane = n.val then { r with kept := true } else r) })
  let s := s.mapLink p linkCleared
  let s := match p with
    | .qd n => s.mapSw (fun w => { w with
        cg := w.cg.filter (fun x => x.1 / 4 != n.val), cs := w.cs.filter (fun x => x.1 / 4 != n.val) })
    | .sv _ => s
  let s := portRoute p (fun x => x == 1) 3 s
  let s := (s.setPst p 0).setPstep p 1
  let s := if pairsFailed f then (s.setPfailed p 0).mapLink p (fun l => { l with narrow := false }) else s
  if portNo p / 2 = 72 then plinkNow s else s

/-- The port counts as up for the switch core: it carries packets, retrains, or is in or leaving a
low-power state (R398, R404). -/
def State.inService (s : State) (p : PortSel) : Bool :=
  let st := s.pst p
  st == 2 || st == 3 || st == 4 || st == 5 || (st == 1 && (s.link p).mode != 0)

/-- Credits that this side grants in CRINIT (R402): the QD1 its guaranteed cells, the Svapo block
its receive buffer of 64 (log entry 21). -/
def State.grantOf (s : State) (p : PortSel) (c : Nat) : Nat :=
  match p with
  | .qd n => if c = 0 ∧ n.val < 144 ∧ s.flag (F.SW_PORT_CTL_C0POL n) then 2 else 8
  | .sv _ => 64

/-- The CRINIT message of this side. -/
def State.crinitMsg (s : State) (p : PortSel) : List Byte :=
  4 :: (List.range 4).map (fun c => BitVec.ofNat 8 (s.grantOf p c))

/-- The end of T7: the port is up at its width. A training or an exit starts SEQ, ACK and the credits
afresh; a retrain keeps them and resends every kept flit (R394, R398, R402). -/
def portComesUp (p : PortSel) (s : State) : State :=
  let l := s.link p
  let w := if l.narrow then 3 else 2
  let last := s.crinitMsg p
  let s := s.mapLink p (fun l =>
    if l.mode = 1 then { l with mode := 0, resend := l.kept.map (·.seq), ctl := l.ctl ++ [last], crSeen := true }
    else { l with mode := 0, txSeq := 4095, rxSeq := 4095, kept := [], resend := [], nakDue := false,
                  nakSent := false, owed := [], cred := l.grant, mused := 0, mfreed := 0, mseen := 0,
                  rxSlots := [], txSlots := [], txPkt := none, ctl := l.ctl ++ [last], crSeen := true })
  let s := match p with
    | .qd n =>
      if l.mode = 1 then s
      else (List.range 4).foldl (fun s c => s.mapSw (fun w => { w with
        cg := Tbl.put w.cg (4 * n.val + c) (s.grantOf p c), cs := Tbl.put w.cs (4 * n.val + c) 0 })) s
    | .sv _ => s
  let s := if l.mode = 0 then portRoute p (fun x => x == 3) 1 s else s
  let s := (s.setPst p w).setPstep p 7
  if portNo p / 2 = 72 then plinkNow s else s

/-- A retrain in service from T4, which keeps the retry buffer, SEQ and the credits (R398, R401). -/
def startRetrain (p : PortSel) (s : State) : State :=
  let s := (s.portCount p F.LN_ERR10_RETRAIN).mapLink p (fun l => { l with
    mode := 1, locked := false, zeroBlocks := 0, blocks := [], marks := 0, identSeen := false,
    nakDue := false, nakSent := false })
  (s.setPst p 1).setPstep p 4

/-- A RETRAIN message with the port's width (R395). -/
def retrainMsg (narrow : Bool) : List Byte := [9, if narrow then 2 else 4]

/-! ### Messages that are repeated until they are answered (R395) -/

/-- The IDENT message of this side (R396). -/
def State.identMsg (s : State) (p : PortSel) : List Byte :=
  match p with
  | .qd n => 3 :: (bytesOf 2 s.qdNode.toNat ++ [BitVec.ofNat 8 s.qdPlane, BitVec.ofNat 8 n.val, 0])
  | .sv n => 3 :: (bytesOf 2 s.svNode.toNat ++ [0xFF, BitVec.ofNat 8 n.val, 1])

/-- The messages that every control flit carries now. -/
def State.standing (s : State) (p : PortSel) : List (List Byte) :=
  let l := s.link p
  let st := s.pst p
  let k := s.pstep p
  (if st = 1 ∧ k = 3 then (List.range 4).map (fun i => [1, BitVec.ofNat 8 i, 0, 0, 1]) else []) ++
  (if st = 1 ∧ k = 5 ∧ !(isFerry p) then (List.range 4).map (fun i => [2, BitVec.ofNat 8 i]) else []) ++
  (if (st = 1 ∧ (k = 6 ∨ k = 7)) ∨ st = 6 then [s.identMsg p] else []) ++
  (if st = 1 ∧ k = 7 then [s.crinitMsg p] else []) ++
  (if s.portRuns p ∧ l.pmAsked ≠ 0 then [[6, l.pmAsked]] else []) ++
  (if l.testAsk then [[0x0A, l.testPat, 0, 0, 0, 0]] else [])

/-! ### FLIT_SEND (R400-R403) -/

/-- Flits that the sender keeps (R401). -/
def keepCap (p : PortSel) : Nat := if isFerry p then 1024 else 256

/-- The bytes that go on the wire for a flit: its FEC block, or at a Ferry port the flit that the
chiplet puts in a Ferry frame (log entry 22). -/
def wireBytes (p : PortSel) (flit : List Byte) : List Byte := if isFerry p then flit else blockOf flit

/-- Send a flit, with ACK and NAK of the moment. FLITS_OUT does not count retries. -/
def sendFlit (p : PortSel) (seq : BitVec 12) (ctrl : Bool) (fields : Word) (slots : List Byte)
    (again : Bool) (s : State) : State :=
  let l := s.link p
  let f := flitOf (mkPrefix seq l.rxSeq l.nakDue ctrl fields) slots
  let s := emit s (.wire p (wireBytes p f))
  let s := match p with
    | .qd n =>
      let s := if l.nakDue then s.count (F.TEL_38_RTY_RX n) else s
      if again then s.count (F.TEL_38_RTY_TX n) else s.tel (R.TEL_18 n) 1
    | .sv _ => s
  s.mapLink p (fun l => { l with nakDue := false, nakSent := l.nakSent || l.nakDue })

/-- Whole packets of a run of cells in order. -/
def packetsIn : Nat → List Cell → List Packet
  | 0, _ => []
  | fuel + 1, l => match l with
    | [] => []
    | c :: _ => if l.length < pktCells c.pkt then [] else c.pkt :: packetsIn fuel (l.drop (pktCells c.pkt))

/-- The packets that wait for a port in a class, in order. -/
def State.waiting (s : State) (p : PortSel) (c : Nat) : List Packet :=
  match p with
  | .qd n =>
    let l := s.qd.sw.stage.filter (fun x => x.egr == n.val && x.cls == c)
    packetsIn l.length l
  | .sv _ => (s.link p).txq.filter (fun k => k.cls.toNat == c)

/-- Credits for a packet are at hand: of its class, or of the four management credits (R402, R403). -/
def Link.canSend (l : Link) (k : Packet) : Bool :=
  if isMgmt k then decide (l.mused + pktCells k ≤ 4)
  else decide (pktCells k ≤ Tbl.at l.cred k.cls.toNat)

/-- The packet of a class that may leave: the first, or the first of the other kind when the first
lacks credits, since management packets never use class credits. -/
def Link.nextOf (l : Link) (ps : List Packet) : Option Packet :=
  match ps with
  | [] => none
  | k :: rest =>
    if l.canSend k then some k
    else match rest.find? (fun x => isMgmt x != isMgmt k) with
      | some x => if l.canSend x then some x else none
      | none => none

/-- Remove the first cells of a packet from a stage. -/
def takeCells (e : Nat) (k : Packet) : Nat → List Cell → List Cell
  | 0, l => l
  | n + 1, l => takeCells e k n (l.eraseP (fun c => c.egr == e && decide (c.pkt = k)))

/-- The next packet of a port leaves its stage or queue: class 0 first, then classes 1 to 3 by
deficit round robin counted in slots; its credits are used (R176, R402). -/
def takePacket (p : PortSel) (s : State) : Option (Packet × State) :=
  let l := s.link p
  let cand := fun c => l.nextOf (s.waiting p c)
  match pickClass s l.drr 0 (fun c => (cand c).isSome) (fun c => match cand c with
    | some k => k.slots
    | none => 0) with
  | none => none
  | some (c, drr) =>
    match cand c with
    | none => none
    | some k =>
      let n := pktCells k
      let s := match p with
        | .qd e => (s.mapSw (fun w => { w with stage := takeCells e.val k n w.stage })).tel (R.TEL_08 e.val) n
        | .sv _ => s.mapLink p (fun l => { l with txq := l.txq.erase k })
      some (k, s.mapLink p (fun l => { l with
        drr := drr, mused := if isMgmt k then l.mused + n else l.mused
        cred := if isMgmt k then l.cred else Tbl.mod l.cred c (· - n) }))

/-- The bytes of the next item of a port, with the packet when it is one. A segment uses class-3
credits (R182). -/
def takeItem (p : PortSel) (s : State) : Option (List Byte × Option Packet × State) :=
  if isFerry p then
    match (s.link p).segq with
    | [] => none
    | g :: rest =>
      if segCells g ≤ Tbl.at (s.link p).cred 3 then
        let s := s.mapLink p (fun l => { l with segq := rest, cred := Tbl.mod l.cred 3 (· - segCells g) })
        some (segBytes g, none, match p with
          | .qd n => s.tel (R.TEL_08 n.val) (segCells g)
          | .sv _ => s)
      else none
  else (takePacket p s).map (fun r => (r.1.bytes, some r.1, r.2))

/-- Fill slots from slot `i` on: HDRMASK, the slots, the packets that end in the flit, and the state.
A header never starts in slot 14 (R52). -/
def fillSlots (p : PortSel) : Nat → Nat → Word → List Byte → List Packet → State →
    Word × List Byte × List Packet × State
  | 0, _, m, b, ps, s => (m, b, ps, s)
  | fuel + 1, i, m, b, ps, s =>
    if 15 ≤ i then (m, b, ps, s)
    else
      let l := s.link p
      match l.txSlots with
      | _ :: _ =>
        let n := min (15 - i) (l.txSlots.length / 16)
        let fin := decide (l.txSlots.length ≤ 16 * n)
        let ps := if fin then ps ++ l.txPkt.toList else ps
        fillSlots p fuel (i + n) m (b ++ l.txSlots.take (16 * n)) ps
          (s.mapLink p (fun l => { l with txSlots := l.txSlots.drop (16 * n)
                                          txPkt := if fin then none else l.txPkt }))
      | [] =>
        if i = 14 then (m, b, ps, s)
        else match takeItem p s with
          | none => (m, b, ps, s)
          | some (bytes, k, s) =>
            fillSlots p fuel i (m ||| (1#64 <<< (48 + i))) b ps
              (s.mapLink p (fun l => { l with txSlots := bytes, txPkt := k }))

/-- Credit returns of up to two classes, at most 63 each, in a prefix, and what is still owed. -/
def creditFields (owed : Tbl Nat) : Word × Tbl Nat :=
  match (List.range 4).filter (fun c => decide (0 < Tbl.at owed c)) with
  | [] => (0, owed)
  | c :: rest =>
    let n := min 63 (Tbl.at owed c)
    let o := Tbl.mod owed c (· - n)
    match rest with
    | [] => (wd (c * 2 ^ 26 + n * 2 ^ 28), o)
    | d :: _ =>
      let k := min 63 (Tbl.at owed d)
      (wd (c * 2 ^ 26 + n * 2 ^ 28 + d * 2 ^ 34 + k * 2 ^ 36), Tbl.mod o d (· - k))

/-- Enter the low-power state that both sides have agreed on: the shallower of two that crossed
(R404). -/
def pmEnter (p : PortSel) (s : State) : State :=
  let l := s.link p
  let ackDue := l.ctl.any (fun m => m.headD 0 == 7)
  let st := if l.pmIn = 0 then l.pmGot else if l.pmGot = 0 then l.pmIn else if l.pmIn = 1 then 1 else l.pmGot
  if ackDue || st == 0 || decide (l.pmAsked ≠ 0) || !s.portRuns p then s
  else emit ((s.mapLink p (fun l => { l with pmIn := 0, pmGot := 0, ctl := [] })).setPst p (3 + st.toNat))
    (.lane p 1 st.toNat)

/-- A control flit with up to 15 messages (R395). -/
def sendControl (p : PortSel) (s : State) : State :=
  let l := s.link p
  let msgs := (l.ctl ++ s.standing p).take 15
  let s := s.mapLink p (fun l => { l with ctl := l.ctl.drop (min 15 l.ctl.length) })
  let s := sendFlit p l.txSeq true 0 (msgs.flatMap (fun m => slice m 0 16)) false s
  pmEnter p s

/-- A data flit: the first flit to be resent, else the next slots and credits, else an idle flit. -/
def sendData (p : PortSel) (s : State) : State :=
  let l := s.link p
  match l.resend with
  | q :: rest =>
    match l.kept.find? (fun k => decide (k.seq = q)) with
    | none => s.mapLink p (fun l => { l with resend := rest })
    | some k =>
      if 8 ≤ k.resent then
        startRetrain p (s.mapLink p (fun l => { l with ctl := l.ctl ++ [retrainMsg l.narrow] }))
      else
        sendFlit p q false k.fields k.slots true (s.mapLink p (fun l => { l with
          resend := rest
          kept := l.kept.map (fun x => if x.seq = q then { x with resent := x.resent + 1 } else x) }))
  | [] =>
    if keepCap p ≤ l.kept.length then sendFlit p l.txSeq false 0 [] false s
    else
      let r := fillSlots p 40 0 0 [] [] s
      let s := r.2.2.2
      let c := creditFields (s.link p).owed
      let fields := r.1 ||| c.1
      if fields = 0 ∧ r.2.1 = [] then sendFlit p l.txSeq false 0 [] false s
      else
        let q := l.txSeq + 1
        sendFlit p q false fields r.2.1 false (s.mapLink p (fun l => { l with
          txSeq := q, owed := c.2
          kept := l.kept ++ [{ seq := q, fields := fields, slots := r.2.1, pkts := r.2.2.1 }] }))

/-- FLIT_SEND: control messages that wait go first. A port that trains sends control flits, and coded
idle flits in T4. -/
def execFlitSend (p : PortSel) (s : State) : Res :=
  .next (
    let l := s.link p
    let ctl := !(l.ctl.isEmpty && (s.standing p).isEmpty)
    if !(s.lanesOn p) then s
    else if s.portRuns p then
      if ctl then sendControl p s else sendData p s
    else if s.pst p = 1 ∧ 3 ≤ s.pstep p ∨ s.pst p = 6 ∨ s.pst p = 7 then
      if ctl then sendControl p s
      else if s.pst p = 1 ∧ 4 ≤ s.pstep p then sendFlit p l.txSeq false 0 [] false s
      else s
    else s)

/-! ### FLIT_RECEIVE (R391, R392, R400-R402) -/

/-- Lane on which a block byte travels (R391, R398). -/
def laneOf (narrow : Bool) (failed k : Nat) : Nat := if narrow then goodPair failed + k % 2 else k % 4

/-- FEC counters of a block: blocks corrected, blocks lost, symbols corrected on each lane. -/
def fecCount (p : PortSel) (r : Option (List Byte × List Nat)) (s : State) : State :=
  match p with
  | .sv _ => s
  | .qd n =>
    match r with
    | none => s.count (F.LN_ERR00_FEC_UNC n)
    | some (_, []) => s
    | some (_, l) =>
      let nar := (s.link p).narrow
      let f := s.pfailed p
      l.foldl (fun s k => s.count ⟨R.LN_ERR08 n, 16 * laneOf nar f k, 16⟩) (s.count (F.LN_ERR00_FEC_CORR n))

/-- Block lock (R392): found after 64 blocks with zero syndrome, lost with 8 of 256 uncorrectable. A
port in service that loses it retrains. -/
def blockLock (p : PortSel) (r : Option (List Byte × List Nat)) (s : State) : State :=
  let clean := match r with
    | some (_, []) => true
    | _ => false
  let l := s.link p
  if !l.locked then
    s.mapLink p (fun l =>
      let z := if clean then l.zeroBlocks + 1 else 0
      { l with zeroBlocks := z, locked := decide (64 ≤ z), blocks := [] })
  else
    let bs := (r.isNone :: l.blocks).take 256
    let lost := decide (8 ≤ (bs.filter (fun b => b)).length)
    let s := s.mapLink p (fun l => { l with blocks := if lost then [] else bs, locked := !lost
                                            zeroBlocks := if lost then 0 else l.zeroBlocks })
    if lost && s.portRuns p then
      startRetrain p (s.mapLink p (fun l => { l with ctl := l.ctl ++ [retrainMsg l.narrow] }))
    else s

/-- The receiver asks for a retry once (R401). -/
def askRetry (p : PortSel) (s : State) : State :=
  s.mapLink p (fun l => if l.nakSent || l.nakDue then l else { l with nakDue := true })

/-- ACK lies in the window of unacknowledged flits. -/
def Link.ackOk (l : Link) (a : BitVec 12) : Bool :=
  match l.kept with
  | [] => decide (a = l.txSeq)
  | k :: _ => decide (a = k.seq - 1) || l.kept.any (fun x => decide (x.seq = a))

/-- Flits up to ACK are released. -/
def Link.acked (l : Link) (a : BitVec 12) : Link :=
  match l.kept.findIdx? (fun x => decide (x.seq = a)) with
  | none => l
  | some i =>
    let gone := (l.kept.take (i + 1)).map (·.seq)
    { l with kept := l.kept.drop (i + 1), resend := l.resend.filter (fun q => !(gone.contains q)) }

/-- The most credits that a class may hold: the grant, and towards a QD1, which returns shared credits
too, 64 (R178, R399, R402). -/
def Link.credCap (l : Link) (p : PortSel) (c : Nat) : Nat :=
  match p with
  | .qd n => if n.val < 144 then Tbl.at l.grant c else 64
  | .sv _ => 64

/-- Deliver a packet that has arrived whole: to the switch core, or to the Svapo block, whose receive
buffer is free again. -/
def deliver (p : PortSel) (bs : List Byte) (s : State) : State :=
  match p with
  | .qd n =>
    if 146 ≤ n.val then ferryArrive n (segOf bs) s
    else
      let k := packetOf bs
      let s := if isMgmt k then s.mapLink p (fun l =>
          let m := l.mfreed + BitVec.ofNat 8 (pktCells k)
          { l with mfreed := m, ctl := l.ctl ++ [[5, m]] })
        else s
      emit s (.ingress (.link n) k)
  | .sv n =>
    let k := packetOf bs
    let s := s.mapLink p (fun l =>
      if isMgmt k then
        let m := l.mfreed + BitVec.ofNat 8 (pktCells k)
        { l with mfreed := m, ctl := l.ctl ++ [[5, m]] }
      else { l with owed := Tbl.mod l.owed k.cls.toNat (· + pktCells k) })
    emit s (.svArrive n k)

/-- Slots of the item whose first slots have arrived. -/
def itemSlots (p : PortSel) (bs : List Byte) : Nat :=
  if bs.length < 32 then 2
  else if isFerry p then segSlots (fget (wordAt bs 0) 35 9)
  else hdrSlots (wordAt bs 0) (wordAt bs 24)

/-- Take one slot of a sequenced flit. -/
def takeSlot (p : PortSel) (hdr : Bool) (slot : List Byte) (s : State) : State :=
  let bs := if hdr then slot else if (s.link p).rxSlots.isEmpty then [] else (s.link p).rxSlots ++ slot
  if bs.isEmpty then s
  else if 16 * itemSlots p bs ≤ bs.length ∧ 32 ≤ bs.length then
    deliver p bs (s.mapLink p (fun l => { l with rxSlots := [] }))
  else s.mapLink p (fun l => { l with rxSlots := bs })

/-- Take the credits of a sequenced flit; a count above the limit takes the port down (R399). -/
def takeCredits (p : PortSel) (w : Word) (s : State) : Option State :=
  let l := s.link p
  let c := (pfCred w).foldl (fun t x => if x.2 = 0 then t else Tbl.mod t x.1 (· + x.2)) l.cred
  if (List.range 4).all (fun k => decide (Tbl.at c k ≤ l.credCap p k)) then
    some (s.mapLink p (fun l => { l with cred := c }))
  else none

/-- The sequenced part of a flit that passed CHECK. -/
def rxData (p : PortSel) (w : Word) (slots : List Byte) (s : State) : State :=
  let l := s.link p
  let seq := pfSeq w
  let carries := decide (fget w 48 15 ≠ 0) || (pfCred w).any (fun x => x.2 != 0) || !l.rxSlots.isEmpty
  if seq = l.rxSeq then s
  else if seq = l.rxSeq + 1 ∧ carries then
    let s := s.mapLink p (fun l => { l with rxSeq := seq, nakSent := false, nakDue := false })
    match takeCredits p w s with
    | none => portDown p s
    | some s => (List.range 15).foldl (fun s i => takeSlot p (pfHdr w i) (slice slots (16 * i) 16) s) s
  else if (seq - l.rxSeq).toNat < 2048 then askRetry p s
  else s

/-- A flit that passed CHECK: ACK and NAK are taken from every one. -/
def rxFlit (p : PortSel) (f : List Byte) (s : State) : State :=
  let w := flitPrefix f
  let l := s.link p
  let s := match p with
    | .qd n => s.tel (R.TEL_10 n) 1
    | .sv _ => s
  let live := s.portRuns p
  if live && !(l.ackOk (pfAck w)) then portDown p s
  else
    let s := if live then s.mapLink p (fun l =>
        let l := l.acked (pfAck w)
        if pfNak w then { l with resend := l.kept.map (·.seq) } else l) else s
    if pfCtrl w then
      let s := (List.range 15).foldl (fun s i =>
        let m := slice (flitSlots f) (16 * i) 16
        let t := (m.headD 0).toNat
        if t = 0 ∨ 0x0A < t then s else emit s (.linkMsg p m)) s
      if live && decide (pfSeq w ≠ l.rxSeq) && decide ((pfSeq w - l.rxSeq).toNat < 2048) then askRetry p s
      else s
    else if live then rxData p w (flitSlots f) s
    else s

/-- FLIT_RECEIVE: the block of one flit. At a Ferry port it is the flit that the chiplet took from its
frame, empty when its codeword was uncorrectable (log entry 22). -/
def execFlitReceive (p : PortSel) (u : RxUnit) (s : State) : Res :=
  .next (
    if !(s.lanesOn p) then s
    else if !(s.portRuns p || s.pst p == 6 || s.pst p == 7 || (s.pst p == 1 && decide (3 ≤ s.pstep p))) then s
    else
      let r := if isFerry p then (if u.block.length = 256 then some (u.block, []) else none)
        else if u.block.length = 272 then blockDecode u.block else none
      let s := blockLock p r (fecCount p r s)
      match r with
      | none => if s.portRuns p then askRetry p s else s
      | some (f, _) =>
        if flitCheckOk f then rxFlit p f s
        else if s.portRuns p then askRetry p s else s)

/-- RETRY_TIMEOUT: the expected SEQ has not arrived within RETRY_TMO of the NAK (R401). -/
def execRetryTimeout (p : PortSel) (s : State) : Res :=
  .next (if s.portRuns p then s.mapLink p (fun l => { l with nakDue := l.nakDue || l.nakSent }) else s)

/-! ### Going down, and training (R394-R399) -/

/-- LINK_DOWN: a port in service, retraining or in low power goes down (R399). -/
def execLinkDown (p : PortSel) (_c : DownCause) (s : State) : Res :=
  .next (if s.inService p then portDown p s else s)

/-- Enough lanes of one pair carry energy. -/
def pairEnergy (lanes : BitVec 4) : Bool :=
  (lanes.getLsbD 0 && lanes.getLsbD 1) || (lanes.getLsbD 2 && lanes.getLsbD 3)

/-- Start an exit: LQ from T4, LD from T2 at full width with kept coefficients (R398, R404). -/
def startExit (p : PortSel) (s : State) : State :=
  let lq := s.pst p == 4
  let s := s.mapLink p (fun l => { l with
    mode := 2, marks := 0, identSeen := false, narrow := l.narrow && lq
    locked := l.locked && lq, zeroBlocks := if lq then l.zeroBlocks else 0, blocks := [] })
  let s := if lq then s else s.setPfailed p 0
  (s.setPst p 1).setPstep p (if lq then 4 else 2)

/-- SIGNAL_ENERGY_DETECT: the end of T1 at a port that is down and waits in it, or the start of an
exit at one in LQ or LD. -/
def execSignalEnergyDetect (p : PortSel) (lanes : BitVec 4) (s : State) : Res :=
  .next (
    if !(s.lanesOn p) || !(pairEnergy lanes) then s
    else if s.pst p = 4 ∨ s.pst p = 5 then startExit p s
    else if s.pst p = 0 ∧ s.pstep p ≤ 1 then
      ((s.mapLink p (fun l => { l with mode := 0, marks := 0, identSeen := false, locked := false,
                                       zeroBlocks := 0, blocks := [] })).setPst p 1).setPstep p 2
    else s)

/-- Lanes that a port uses. -/
def State.activeLanes (s : State) (p : PortSel) : List Nat :=
  if (s.link p).narrow then [goodPair (s.pfailed p), goodPair (s.pfailed p) + 1] else [0, 1, 2, 3]

/-- The condition of a step that the model can tell (R394): block lock in T4, a MARK on every lane in
T5, both on ports that have them, and an IDENT in T6. T7 ends with CRINIT. -/
def State.stepMet (s : State) (p : PortSel) : Bool :=
  match s.pstep p with
  | 2 => true
  | 3 => true
  | 4 => isFerry p || (s.link p).locked
  | 5 => isFerry p || (s.activeLanes p).all (fun i => (s.link p).marks.testBit i)
  | 6 => (s.link p).identSeen
  | _ => false

/-- TRAINING_STEP_DONE. -/
def execTrainingStepDone (p : PortSel) (s : State) : Res :=
  .next (if s.lanesOn p && s.pst p == 1 && s.stepMet p then s.setPstep p (s.pstep p + 1) else s)

/-- TRAINING_STEP_FAIL: the lanes count as failed; with a lane failed in both pairs, or on a Ferry
port, a port in training awaits its restart and one that retrains or leaves low power goes down
(R394, R397, R398, R399). -/
def execTrainingStepFail (p : PortSel) (lanes : BitVec 4) (s : State) : Res :=
  .next (
    if !(s.lanesOn p && s.pst p == 1 && decide (2 ≤ s.pstep p) && decide (s.pstep p ≤ 5)) || lanes == 0 then s
    else
      let f := s.pfailed p ||| lanes.toNat
      let s := s.setPfailed p f
      if pairsFailed f || isFerry p then
        if (s.link p).mode ≠ 0 then portDown p s else s.setPst p 0
      else s.mapLink p (fun l => { l with narrow := true }))

/-- TRAINING_RESTART: 10 ms after it was held or failed, the port restarts at T1 with every lane. -/
def execTrainingRestart (p : PortSel) (s : State) : Res :=
  .next (
    let waits := (s.pst p == 0 && decide (2 ≤ s.pstep p)) || s.pst p == 6
    if s.lanesOn p && waits then
      (((s.setPst p 0).setPstep p 1).setPfailed p 0).mapLink p (fun l => { linkCleared l with narrow := false })
    else s)

/-- TS: a coefficient request and the status of the far receiver, in T3. -/
def execTs (p : PortSel) (lane : Byte) (coef : BitVec 16) (_st : Byte) (s : State) : Res :=
  .next (
    if s.lanesOn p && s.pst p == 1 && s.pstep p == 3 && decide (lane.toNat < 4) then
      emit (s.mapLink p (fun l => { l with coef := Tbl.put l.coef lane.toNat coef.toNat }))
        (.lane p (16 + lane.toNat) coef.toNat)
    else s)

/-- MARK: the lane's marker has been seen, in T5. -/
def execMark (p : PortSel) (lane : Byte) (s : State) : Res :=
  .next (
    if s.lanesOn p && s.pst p == 1 && s.pstep p == 5 && decide (lane.toNat < 4) then
      s.mapLink p (fun l => { l with marks := l.marks ||| (2 ^ lane.toNat) })
    else s)

/-- The far end's identity is the one that the port expects (R374, R396). A port of an end point
declared lost is held too (R481). -/
def State.identOk (s : State) (p : PortSel) (node : BitVec 16) (plane port role : Byte) : Bool :=
  match p with
  | .sv n =>
    role == 0 && decide (plane.toNat = n.val) && decide (port.toNat < 144) &&
    (decide (s.svNode = 0x3FFF) || decide (s.svNode = mkNode (node.toNat / 256) port.toNat))
  | .qd n =>
    if n.val < 144 then
      role == 1 && decide (port.toNat = s.qdPlane) &&
      (node == 0x3FFF || decide (node.toNat = s.qdRack * 256 + n.val)) &&
      !(bitAt (s.rg (R.FT_EPLOST (n.val / 64))) (n.val % 64))
    else if n.val < 146 then
      role == 0 && decide (node.toNat = s.partnerNode.toNat) && decide (plane.toNat = (s.qdPlane ^^^ 1))
    else
      role == 0 && decide (plane.toNat = s.qdPlane) && decide (node.toNat / 256 ≠ s.qdRack) &&
      decide (node.toNat / 256 < 64) && slotIsQd (node.toNat % 256)

/-- IDENT, in T6: the far end is recorded and checked. A mismatch holds a port in T6 with an event,
and takes one that retrains down (R396, R399). A Svapo block sets SV_NODE (R374). -/
def execIdent (p : PortSel) (node : BitVec 16) (plane port role : Byte) (s : State) : Res :=
  .next (
    if !(s.lanesOn p && s.pst p == 1 && s.pstep p == 6) then s
    else
      let s := match p with
        | .qd n => (s.setFl (F.LN_PORT_STS_FAR_NODE n) node.toNat).setFl (F.LN_PORT_STS_FAR_PORT n) port.toNat
        | .sv _ => s
      if s.identOk p node plane port role then
        let s := match p with
          | .sv _ => s.setSrf SR.SV_NODE 0 14 (mkNode (node.toNat / 256) port.toNat).toNat
          | .qd _ => s
        s.mapLink p (fun l => { l with identSeen := true })
      else if (s.link p).mode ≠ 0 then portDown p s
      else
        let s := s.portEvent p { cat := Cat.LINK, obj := Obj.PORT, arg0 := wd (portNo p),
                                 arg1 := wd (1 + 6 * 256) }
        s.setPst p 6)

/-- CRINIT, in T7: the far end's credits; the port is up (R394, R402). -/
def execCrinit (p : PortSel) (c0 c1 c2 c3 : Byte) (s : State) : Res :=
  .next (
    if s.lanesOn p && s.pst p == 1 && s.pstep p == 7 then
      let g := [c0, c1, c2, c3].mapIdx (fun i b => (i, b.toNat))
      let s := if (s.link p).mode = 1 then s
        else s.mapLink p (fun l => { l with grant := g.foldl (fun t x => Tbl.put t x.1 x.2) [] })
      portComesUp p s
    else s)

/-- MCRED: management credits returned, cumulative modulo 256 (R403). -/
def execMcred (p : PortSel) (n : Byte) (s : State) : Res :=
  .next (
    if s.lanesOn p && s.portRuns p then
      s.mapLink p (fun l => { l with mused := l.mused - (n - l.mseen).toNat, mseen := n })
    else s)

/-- RETRAIN: the far end retrains, and this side follows at the width asked for. A port at x2 stays at
x2 (R398). -/
def execRetrain (p : PortSel) (width : Byte) (s : State) : Res :=
  .next (
    if !(s.lanesOn p && s.portRuns p) || !(width == 2 || width == 4) || (isFerry p && width == 2) then s
    else
      let degrade := width == 2 && !(s.link p).narrow
      let s := if degrade then s.portCount p F.LN_ERR10_DEGRADE else s
      startRetrain p (s.mapLink p (fun l => { l with narrow := l.narrow || width == 2 })))

/-- LANE_FAIL: a lane fails in service; the port retrains on the pair that holds no failed lane, or
goes down (R398). Lanes outside the active pair of a port at x2 change nothing but FAILED. -/
def execLaneFail (p : PortSel) (lanes : BitVec 4) (s : State) : Res :=
  .next (
    if !(s.lanesOn p && s.portRuns p) || lanes == 0 then s
    else
      let old := s.pfailed p
      let f := old ||| lanes.toNat
      let nar := (s.link p).narrow
      let s := (List.range 4).foldl (fun s i =>
        if lanes.getLsbD i && !(old.testBit i) then
          s.portEvent p { cat := Cat.LINK, obj := Obj.LANE, arg0 := wd (4 * portNo p + i), arg1 := wd 256 }
        else s) (s.setPfailed p f)
      if isFerry p || pairsFailed f then portDown p s
      else if nar && goodPair old == goodPair f then s
      else
        let s := if nar then s else s.portCount p F.LN_ERR10_DEGRADE
        startRetrain p (s.mapLink p (fun l => { l with narrow := true, ctl := l.ctl ++ [retrainMsg true] })))

/-- A port reset: the port goes down and trains from T1 with every lane (R389, R399, R517). -/
def portReset (p : PortSel) (s : State) : State :=
  let s := if s.inService p then portDown p s else s
  (((s.setPst p 0).setPstep p 1).setPfailed p 0).mapLink p (fun l => { linkCleared l with narrow := false })

/-! ### Low-power states (R404, R405) -/

/-- Nothing waits for the link and every sequenced flit has been acknowledged. -/
def State.linkIdle (s : State) (p : PortSel) : Bool :=
  let l := s.link p
  l.kept.isEmpty && l.txSlots.isEmpty && l.txq.isEmpty && l.segq.isEmpty &&
  (match p with
   | .qd n => !(s.qd.sw.stage.any (fun c => c.egr == n.val)) && !(s.qd.sw.buf.any (fun c => c.egr == n.val))
   | .sv n => !(s.sv.held.any (fun h => h.1 == n.val)))

/-- Ask the far end for a low-power state. -/
def pmAsk (p : PortSel) (st : Byte) (s : State) : State :=
  if s.lanesOn p && s.portRuns p then s.mapLink p (fun l => { l with pmAsked := st }) else s

/-- Set a request bit of the port's control register: LQREQ 1, LDREQ 2. -/
def State.setReq (s : State) (p : PortSel) (bit : Nat) : State :=
  match p with
  | .qd n => s.setFl ⟨R.LN_PORT_CTL n, bit, 1⟩ 1
  | .sv n => s.setSrf (SR.SV_PORT_CTL n) bit 1 1

/-- LQ_REQUEST. -/
def execLqRequest (p : PortSel) (s : State) : Res :=
  .next (if s.portThere p then pmAsk p 1 (s.setReq p 1) else s)

/-- LD_REQUEST. -/
def execLdRequest (p : PortSel) (s : State) : Res :=
  .next (if s.portThere p then pmAsk p 2 (s.setReq p 2) else s)

/-- LQ_AUTO_TIMEOUT: a QD1 port has been idle for LQ_AUTO µs. -/
def execLqAutoTimeout (p : PortSel) (s : State) : Res :=
  .next (
    match p with
    | .qd n => if s.flag ⟨R.LN_PORT_CTL n, 3, 12⟩ && s.linkIdle p then pmAsk p 1 s else s
    | .sv _ => s)

/-- PMREQ: accepted when nothing waits for the link and nothing is unacknowledged (R404). -/
def execPmreq (p : PortSel) (st : Byte) (s : State) : Res :=
  .next (
    if !(s.lanesOn p && s.portRuns p) || !(st == 1 || st == 2) then s
    else if s.linkIdle p then s.mapLink p (fun l => { l with pmIn := st, ctl := l.ctl ++ [[7, st]] })
    else s.mapLink p (fun l => { l with ctl := l.ctl ++ [[8, st]] }))

/-- PMACK: the far end accepts the state asked for. -/
def execPmack (p : PortSel) (st : Byte) (s : State) : Res :=
  .next (
    if s.lanesOn p && s.portRuns p && (s.link p).pmAsked != 0 && st == (s.link p).pmAsked then
      pmEnter p (s.mapLink p (fun l => { l with pmAsked := 0, pmGot := st }))
    else s)

/-- PMNAK: the far end refuses; one that it asked for itself still stands. -/
def execPmnak (p : PortSel) (st : Byte) (s : State) : Res :=
  .next (
    if s.lanesOn p && s.portRuns p && st == (s.link p).pmAsked then
      pmEnter p (s.mapLink p (fun l => { l with pmAsked := 0 }))
    else s)

/-- PM_EXIT. -/
def execPmExit (p : PortSel) (s : State) : Res :=
  .next (if s.lanesOn p && (s.pst p == 4 || s.pst p == 5) then startExit p s else s)

/-! ### Port tests (R406) -/

/-- Hold a port down for its pattern tests: it goes down if it was up, and on an end-point port the
far end is asked to run its generator and checker. -/
def holdForTest (n : Fin 160) (s : State) : State :=
  let p := PortSel.qd n
  let s := s.setFl ⟨R.LN_PORT_CTL n.val, 15, 1⟩ 1
  let s := if s.inService p then portDown p s else s
  let s := s.mapLink p (fun l => { linkCleared l with
    testAsk := decide (n.val < 144), testPat := BitVec.ofNat 8 (s.fl (F.LN_PAT_W0_PAT (4 * n.val))) })
  (s.setPst p 7).setPstep p 0

/-- PORT_TEST: TEST can be set in set-up state only (R405, R9). -/
def execPortTest (n : Fin 160) (s : State) : Res :=
  .next (if s.portThere (.qd n) && s.inSetup then holdForTest n s else s)

/-- TEST: a Svapo block runs the pattern and replies with its error count, which its receiver finds; a
QD1 keeps the count replied. -/
def execTest (p : PortSel) (pat : Byte) (errs : BitVec 32) (s : State) : Res :=
  .next (
    if !(s.lanesOn p) then s
    else match p with
      | .sv _ =>
        let d := draw 32 s
        d.2.mapLink p (fun l => { l with testPat := pat, ctl := l.ctl ++ [[0x0A, pat] ++ bytesOf 4 d.1.toNat] })
      | .qd _ =>
        if (s.link p).testAsk then s.mapLink p (fun l => { l with testAsk := false, farErrs := errs }) else s)

end Sys2Proof.Machine
end

