-- ==== Sys2Proof/Machine/Svapo.lean ====
section
/-! DEFINITION. The source side of a Svapo block: engine queues, plane selection, FENCE, release and
acquire, responses, timeouts, the injection limiter, plane changes (R23, R35-R40, R64-R78, R123-R127,
R133, R361-R372, R380-R387, R473, R474, R477). -/

namespace Sys2Proof.Machine

/-! ### Engine queues -/

/-- An engine queue. -/
def State.eq (s : State) (q : Nat) : EngQ := Tbl.at s.sv.qs q

/-- Change an engine queue. -/
def State.mapEq (s : State) (q : Nat) (f : EngQ → EngQ) : State :=
  s.mapSv (fun v => { v with qs := Tbl.mod v.qs q f })

/-- CTX and EN of a queue (R369). -/
def State.qctx (s : State) (q : Nat) : BitVec 16 := BitVec.ofNat 16 (s.srf (SR.SV_QCTL0 q) 0 16)
def State.qen (s : State) (q : Nat) : Bool := s.srf (SR.SV_QCTL0 q) 16 1 == 1

/-- Outstanding requests of a queue. -/
def State.outOf (s : State) (q : Nat) : List OutReq := s.sv.srcs.reqs.filter (fun o => o.que == q)

/-- An RSO completion unit on the queue's berth (R361, R363). -/
def rso (r : Rqo) (st : BitVec 7) (woff : BitVec 50) (data : List Byte) (s : State) : State :=
  emit s (.rsoDone (r.qid.val % s.sv.nberth) r.id r.qid.val st woff data)

/-- A queue's sticky error: the first is kept with its WOFF, later ones are counted (R72). -/
def setSticky (q : Nat) (st : BitVec 7) (woff : BitVec 50) (s : State) : State :=
  s.mapEq q (fun e => if e.sticky = 0 then { e with sticky := st, swoff := woff }
    else { e with later := e.later + 1 })

/-- A request ends at its source: a completion unit, or for a posted one the sticky error (R370). -/
def srcFail (r : Rqo) (st : BitVec 7) (woff : BitVec 50) (s : State) : State :=
  if opcIsPosted r.opc.toNat then setSticky r.qid.val st woff s else rso r st woff [] s

/-! ### Plane selection (R35-R40) -/

/-- Index of a request's pair plane in PLANE_MAP (R37). -/
def pairIdx (src dst : BitVec 14) (q : Nat) : Nat :=
  let x : BitVec 32 := BitVec.ofNat 32 (src.toNat * 0x9E37 + dst.toNat * 0x85EB + q * 0xC2B3)
  (x ^^^ (x >>> 15)).toNat % 144

/-- The live planes in ascending order. -/
def State.livePlanes (s : State) : List Nat := (List.range 18).filter (fun p => s.svLive p)

/-- Where a request may go. -/
inductive PlaneSel where
  | go (p : Nat)
  /-- Both planes of the pair of a QD1 node have left LIVE (R39, R480). -/
  | lost
  /-- The plane has not yet been in LIVE (R556). -/
  | hold
  deriving DecidableEq, Repr

/-- The plane of a request that is not sprayed. -/
def State.planeSel (s : State) (dst : BitVec 14) (q : Nat) : PlaneSel :=
  if slotIsQd (nodeSlot dst) then
    let p := nodeSlot dst - 160
    if s.svLive p then .go p
    else if s.svLive (p ^^^ 1) then .go (p ^^^ 1)
    else if s.sv.wasLive.getLsbD p || s.sv.wasLive.getLsbD (p ^^^ 1) then .lost
    else .hold
  else
    let p := s.planeMap (pairIdx s.svNode dst q)
    if s.svLive p then .go p else .hold

/-- The plane of part `j` of a sprayed transfer: the `j`-th live plane counted cyclically from the
pair plane (R40). -/
def State.sprayPlane (s : State) (pair j : Nat) : Nat :=
  let l := s.livePlanes
  let r := (l.filter (fun p => decide (pair ≤ p))) ++ (l.filter (fun p => decide (p < pair)))
  r.getD (j % l.length) pair

/-- The plane of part `j` of a request: TILE reads and writes to end points are sprayed. -/
def State.partPlane (s : State) (dst : BitVec 14) (q : Nat) (tile : Bool) (j : Nat) : PlaneSel :=
  match s.planeSel dst q with
  | .go p => if tile && !(slotIsQd (nodeSlot dst)) then .go (s.sprayPlane p j) else .go p
  | x => x

/-- Send packets of one part: on the loopback path when they are addressed to the block itself
(R373), else through the plane's port controller. -/
def svSendAll (plane : Nat) (ps : List Packet) (s : State) : State :=
  ps.foldl (fun s p => if p.dst = s.svNode then emit s (.svLoop p) else svTx plane p s) s

/-! ### Source checks (R22, R23, R61, R64, R124, R361, R380, R383, R403, R444) -/

/-- A request that has passed its source checks: node, window and offset, class, the aperture's
generation and key slot, and whether it names a coherent line. -/
structure Prep where
  dst : BitVec 14
  woff : BitVec 50
  fa : Word
  cls : BitVec 2
  gen : Byte
  prot : Bool
  kslot : BitVec 6
  coh : Bool
  deriving DecidableEq, Repr, Inhabited

/-- A valid SV_COH entry that names the node and window of a fabric address (R138, R383). -/
def State.cohEntry (s : State) (fa : Word) : Option Word :=
  if nodeRack (faNode fa) ≠ nodeRack s.svNode then none
  else ((List.range 256).map (fun i => s.sr (SR.SV_COH i))).find? (fun w =>
    bitAt w 19 && fget w 0 8 == nodeSlot (faNode fa) && fget w 8 6 == faWin fa)

/-- Slots of the block's hamlet by member index, from SV_HAM (R136). -/
def State.hamSlots (s : State) : List Nat :=
  if s.srf (SR.SV_HAM 2) 5 1 = 1 then
    (List.range (min 16 (s.srf (SR.SV_HAM 2) 0 5))).map (fun i => s.srf (SR.SV_HAM (i / 8)) (8 * (i % 8)) 8)
  else []

/-- The entry's hamlet is the block's own: its home and the block are both members (R139, log entry
23). -/
def State.ownHamlet (s : State) (w : Word) : Bool :=
  s.hamSlots.contains (fget w 0 8) && s.hamSlots.contains (nodeSlot s.svNode)

/-- The geometry of an RQO tile's part. -/
def rqoGeom (g : Word × Word) (woff : BitVec 50) (part : Nat) : Geom :=
  let g0 : Geom := ⟨g.1, g.2, wd woff.toNat, 0⟩
  let total := g0.rowLen * g0.rows
  ⟨g.1, g.2, wd woff.toNat, wd (total + part * 2 ^ 17 + ((total + 4095) / 4096 - 1) * 2 ^ 21)⟩

/-- Tile opcodes. -/
def opcIsTile (o : Nat) : Bool := o == Opc.TRD || o == Opc.TWR

/-- Requests that R65 concerns. -/
def opcOrdinary (o : Nat) : Bool :=
  o == Opc.LD || (decide (0x10 ≤ o) && decide (o ≤ 0x13)) || opcIsAtomic o || o == Opc.RED || o == Opc.REDA ||
  o == Opc.MSG

/-- What a protected aperture refuses (R63, R380). -/
def protRefuses (r : Rqo) (off : Nat) : Bool :=
  let o := r.opc.toNat
  let n := r.len.toNat
  if o == Opc.STM || o == Opc.STMA then true
  else if o == Opc.LD || o == Opc.ST || o == Opc.STA then off % 64 != 0 || n % 64 != 0
  else if opcIsTile o then
    let g : Geom := rqoGeom (r.geom.getD (0, 0)) 0 0
    off % 64 != 0 || g.rowLen % 64 != 0 || g.stride % 64 != 0
  else if o == Opc.CAS then n != 32
  else if opcIsAtomic o then atomSize r.aux.toNat != 16
  else if o == Opc.RED || o == Opc.REDA then off % 16 != 0 || n % 16 != 0
  else false

/-- The class of a request: named, or by its opcode or aperture (R20, R64). -/
def rqoClass (r : Rqo) (ap : Word) : BitVec 2 :=
  if r.clsv then r.cls
  else if r.opc.toNat == Opc.BELL then 0
  else if opcIsTile r.opc.toNat then 2
  else BitVec.ofNat 2 (fget ap 31 2)

/-- The form of a tile request on RQO (R58, R361). -/
def rqoTileOk (r : Rqo) (woff : BitVec 50) : Bool :=
  match r.geom with
  | none => false
  | some g =>
    let x := rqoGeom g woff 0
    x.ok && decide (r.len.toNat = x.total) &&
    (r.opc.toNat != Opc.TWR || decide (r.data.length = x.total))

/-- Checks of R23 to R444 at the source, in this order (log entry 24): opcode, aperture, context,
tile extent, form, coherence, protection, key. -/
def prepare (s : State) (r : Rqo) : Except (BitVec 7 × BitVec 50) Prep :=
  let o := r.opc.toNat
  if !(opcListed o) || opcIsCoh o then .error (St.DESC, 0)
  else match s.apMatch r.addr.toNat with
  | none => .error (St.NOWIN, 0)
  | some i =>
    let w3 := s.apW3 i
    let fa := wd (s.apFbase i + (r.addr.toNat - s.apLbase i))
    let woff := faWoff fa
    let ctx := BitVec.ofNat 16 (fget w3 0 16)
    if ctx ≠ 0xFFFF ∧ ctx ≠ s.qctx r.qid.val then .error (St.CTX, woff)
    else
      let cls := rqoClass r w3
      let tile := opcIsTile o
      let form := ordOk o r.aux.toNat r.ord.toNat && clsOk o cls &&
        (if tile then rqoTileOk r woff && r.aux == 0
         else r.geom.isNone && decide (r.len.toNat ≤ 256) &&
           sizeOk o r.aux.toNat r.len.toNat (faOff fa) (faWin fa) &&
           decide (r.data.length = if o == Opc.LD then 0 else r.len.toNat))
      let ext := match r.geom with
        | some g => (r.addr.toNat - s.apLbase i) + (rqoGeom g 0 0).extent
        | none => 0
      if tile && (rqoTileOk r woff) && decide (s.apLsize i < ext) then .error (St.BOUNDS, woff)
      else if !form then .error (St.DESC, woff)
      else
        let prot := bitAt w3 30
        let k : BitVec 6 := if prot then BitVec.ofNat 6 (fget w3 24 6) else 0
        let coh := s.cohEntry fa
        let cohBad := match coh with
          | some e => tile || o == Opc.RED || o == Opc.REDA || o == Opc.MSG || o == Opc.BELL || !s.sv.ca ||
              !(s.ownHamlet e)
          | none => false
        if cohBad || (prot && protRefuses r (faOff fa)) then .error (St.PERM, woff)
        else if prot && !(s.keyAtSource .sv k.toNat) then .error (St.KEY, woff)
        else .ok { dst := faNode fa, woff := woff, fa := fa, cls := cls,
                   gen := BitVec.ofNat 8 (fget w3 16 8), prot := prot, kslot := k, coh := coh.isSome }

/-! ### Packets -/

/-- Data in units of 64 bytes, enciphered or deciphered in domain 0, unit `i` at address `f i`
(R379). -/
def xtsData (dec : Bool) (key : List Byte) (gen : Byte) (f : Nat → Word) (d : List Byte) : List Byte :=
  ((chunksOf 64 (d.length + 1) d).mapIdx (fun i c => xtsUnit dec key (tweak (f i) gen 0) c)).flatten

/-- The header of a request. -/
def rqoHdr (s : State) (r : Rqo) (x : Prep) (tag : Nat) (tseq : Byte) : Hdr :=
  { dst := x.dst, ctx := s.qctx r.qid.val, opc := r.opc.toNat, kslot := x.kslot, src := s.svNode, cls := x.cls,
    gen := x.gen, que := r.qid.val, ord := r.ord.toNat, woff := x.woff.toNat, tag := tag, tseq := tseq,
    aux := r.aux.toNat }

/-- The packets of one part of a tile (R58, R67). -/
def tilePackets (s : State) (r : Rqo) (x : Prep) (tag : Nat) (tseq : Byte) (data : List Byte) (j : Nat) :
    List Packet :=
  let g := rqoGeom (r.geom.getD (0, 0)) x.woff j
  let h := rqoHdr s r x tag tseq
  let at_ := fun (b : Nat) => g.baseWin * 2 ^ 44 + g.byteOff b
  if r.opc.toNat == Opc.TRD then
    [Hdr.packet { h with geo := true, aux := 16 * j, woff := at_ (4096 * j) } (some g) none []]
  else
    (List.range ((g.partLen + 255) / 256)).map (fun k =>
      let d := slice data (4096 * j + 256 * k) (min 256 (g.partLen - 256 * k))
      Hdr.packet { h with geo := k == 0, aux := 16 * j + k, len := d.length,
                          woff := at_ (4096 * j + 256 * k) } (if k = 0 then some g else none) none d)

/-- The packets of a request, one list for each part, enciphered for a protected aperture (R379,
R381). -/
def rqoPackets (s : State) (r : Rqo) (x : Prep) (tag : Nat) (tseq : Byte) : List (List Packet) :=
  let o := r.opc.toNat
  let key := s.svKey x.kslot
  let h := rqoHdr s r x tag tseq
  if opcIsTile o then
    let g := rqoGeom (r.geom.getD (0, 0)) x.woff 0
    let base := x.fa.toNat - x.fa.toNat % 2 ^ 44
    let data := if x.prot then xtsData false key x.gen (fun i => wd (base + g.byteOff (64 * i))) r.data else r.data
    (List.range g.nparts).map (fun j => tilePackets s r x tag tseq data j)
  else
    let plain := Hdr.packet { h with len := r.len.toNat } none none r.data
    let data :=
      if !x.prot then r.data
      else if o == Opc.ST || o == Opc.STA then xtsData false key x.gen (fun i => x.fa + wd (64 * i)) r.data
      else if o == Opc.MSG then xtsUnit false key (tweak x.fa x.gen 1) r.data
      else xtsOperand false key x.gen 1 plain r.data
    let mask := if o == Opc.STM || o == Opc.STMA then some (r.be, ~~~ r.be) else none
    [[Hdr.packet { h with len := r.len.toNat } none mask data]]

/-! ### Issue -/

/-- The next use count of a tag (R66). -/
def useTag (d : Side) (q tag : Nat) (s : State) : Byte × State :=
  let n := Tbl.at (s.srcs d).tseq (512 * q + tag) + 1
  (n, s.mapSrcs d (fun x => { x with tseq := Tbl.put x.tseq (512 * q + tag) n }))

/-- A free tag of an engine queue: which one is open, a free value (log entry 6). -/
def State.freeTag (s : State) (q : Nat) : Option (Nat × State) :=
  let used := (s.outOf q).map (fun o => o.tag)
  let free := (List.range 512).filter (fun t => !(used.contains t))
  if free.isEmpty then none
  else
    let r := pickMany 1 free s
    some (r.1.headD 0, r.2)

/-- The key of a limiter pair: slot and class (R386). -/
def limKey (slot : Nat) (cls2 : Bool) : Nat := 2 * slot + b2n cls2

/-- A request of class 1 or 2 to a node of the rack is limited (R386). -/
def State.limited (s : State) (x : Prep) : Bool :=
  (decide (x.cls = 1) || decide (x.cls = 2)) && decide (nodeRack x.dst = nodeRack s.svNode)

/-- Bytes that a request spends: its payload, or its LEN for a read. -/
def rqoSpend (r : Rqo) : Nat := r.len.toNat

/-- Note a destination that received a posted packet, or that forwarded a value (R127, R372). -/
def noteDest (q : Nat) (dst : BitVec 14) (cls : BitVec 2) (plane : Nat) (s : State) : State :=
  let own := nodeRack s.svNode
  s.mapEq q (fun e =>
    let e := { e with clsUsed := if e.clsUsed.contains cls then e.clsUsed else e.clsUsed ++ [cls] }
    if nodeRack dst ≠ own then
      let k := (nodeRack dst, plane, cls)
      { e with racks := if e.racks.contains k then e.racks else e.racks ++ [k] }
    else if e.dests.contains (dst, cls) then e
    else if slotIsQd (nodeSlot dst) then { e with dests := e.dests ++ [(dst, cls)] }
    else
      let eps := ((e.dests.filter (fun d => !(slotIsQd (nodeSlot d.1)))).map (·.1)).eraseDups
      if eps.contains dst ∨ eps.length < 32 then { e with dests := e.dests ++ [(dst, cls)] }
      else { e with ended := true })

/-- Send a request that may go: a posted one without a tag, any other with a free tag. None when no
tag is free. -/
def issueReq (r : Rqo) (x : Prep) (plane : Nat → Nat) (s : State) : Option State :=
  let q := r.qid.val
  let o := r.opc.toNat
  let own := decide (x.dst = s.svNode)
  let note := fun (s : State) => s.mapEq q (fun e => { e with
    lastCls := if opcOrdinary o then some x.cls else e.lastCls
    clsUsed := if e.clsUsed.contains x.cls then e.clsUsed else e.clsUsed ++ [x.cls] })
  if opcIsPosted o && !x.coh then
    let ps := (rqoPackets s r x 0 0).flatten
    let s := noteDest q x.dst x.cls (plane 0) (note s)
    let s := s.mapEq q (fun e => { e with
      postPlanes := if own || e.postPlanes.contains (plane 0) then e.postPlanes else e.postPlanes ++ [plane 0]
      since := match e.since with
        | .nothing => .posted x.dst x.cls
        | .posted d c => if d = x.dst ∧ c = x.cls then .posted d c else .mixed
        | .mixed => .mixed })
    some (svSendAll (plane 0) ps s)
  else match s.freeTag q with
  | none => none
  | some (tag, s) =>
    let u := useTag .sv q tag (note s)
    let s := u.2.mapEq q (fun e => { e with
      since := .mixed, acquires := if r.ord = 1 then e.acquires ++ [tag] else e.acquires })
    if x.coh then
      some (s.mapSrcs .sv (fun y => { y with reqs := y.reqs ++
        [{ que := q, tag := tag, tseq := u.1, parts := [], purpose := .access r x.fa }] }))
    else
      let pl := rqoPackets s r x tag u.1
      let parts : List Part := pl.mapIdx (fun j ps => { part := j, pkts := ps, plane := plane j })
      let s := s.mapSrcs .sv (fun y => { y with reqs := y.reqs ++
        [{ que := q, tag := tag, tseq := u.1, parts := parts, purpose := .engine r }] })
      some (parts.foldl (fun s p => svSendAll p.plane p.pkts s) s)

/-! ### FENCE (R73, R372) -/

/-- The FENCE packets that a queue owes: node and class. A rack that was written gets one on each
plane and class used towards it, addressed to the QD1 of that plane there (log entry 25). -/
def State.fenceTargets (s : State) (q : Nat) : List (BitVec 14 × BitVec 2) :=
  let e := s.eq q
  let rack := nodeRack s.svNode
  let eps := if e.ended then
      (List.range 144).flatMap (fun k => e.clsUsed.map (fun c => (mkNode rack k, c)))
    else e.dests.filter (fun d => !(slotIsQd (nodeSlot d.1)))
  eps ++ e.dests.filter (fun d => slotIsQd (nodeSlot d.1)) ++
    e.racks.map (fun x => (mkNode x.1 (160 + x.2.1), x.2.2))

/-- A FENCE of a queue has ended: an explicit one reports the sticky error, or the first error among
its answers; an implicit one makes that error sticky. -/
def fenceDone (q : Nat) (f : FenceRun) (s : State) : State :=
  let e := s.eq q
  let s := match f.explicit with
    | some r =>
      if e.sticky ≠ 0 then
        rso r e.sticky e.swoff [] (s.mapEq q (fun e => { e with sticky := 0, swoff := 0, later := 0 }))
      else rso r f.err f.woff [] s
    | none => if f.err ≠ 0 then setSticky q f.err f.woff s else s
  s.mapEq q (fun e => { e with
    fence := none, dests := [], ended := false, racks := [], clsUsed := [], postPlanes := [], since := .nothing })

/-- Advance the FENCE of a queue: its packets go out when nothing is outstanding. -/
def fenceStep (q : Nat) (s : State) : State :=
  match (s.eq q).fence with
  | none => s
  | some f =>
    if f.sent || !(s.outOf q).isEmpty then s
    else
      let all := (s.fenceTargets q).map (fun t => (t, if t.1 = s.svNode then PlaneSel.go 0 else s.planeSel t.1 q))
      let bad := all.any (fun t => t.2 == .lost)
      let go := all.filterMap (fun t => match t.2 with
        | .go p => some (t.1, p)
        | _ => none)
      if all.any (fun t => t.2 == .hold) then s
      else
        let f := { f with sent := true, err := if bad then St.LOST else 0 }
        if go.isEmpty then fenceDone q f s
        else match s.freeTag q with
        | none => s
        | some (tag, s) =>
          let u := useTag .sv q tag s
          let s := u.2
          let ctx := s.qctx q
          let parts : List Part := go.mapIdx (fun i t => { part := i, plane := t.2, pkts :=
            [Hdr.packet { dst := t.1.1, ctx := ctx, opc := Opc.FENCE, src := s.svNode, cls := t.1.2, que := q,
                          tag := tag, tseq := u.1 } none none []] })
          let s := (s.mapEq q (fun e => { e with fence := some f })).mapSrcs .sv (fun y => { y with
            reqs := y.reqs ++ [{ que := q, tag := tag, tseq := u.1, parts := parts, purpose := .fenceLegs }] })
          parts.foldl (fun s p => svSendAll p.plane p.pkts s) s

/-! ### The pump -/

/-- A release needs a FENCE before it unless all that the queue has done since its last one are
posted writes to the same node in the same class (R125). -/
def releaseWaits (e : EngQ) (x : Prep) : Bool :=
  match e.since with
  | .nothing => false
  | .posted d c => !(decide (d = x.dst) && decide (c = x.cls))
  | .mixed => true

/-- What the head of a queue does next. -/
inductive PumpStep where
  | stop (s : State)
  | again (s : State)

/-- Take up the head of a queue: complete it at the source, start a FENCE, or send it. -/
def pumpHead (q : Nat) (s : State) : PumpStep :=
  let e := s.eq q
  match e.waits with
  | [] => .stop s
  | w :: rest =>
    let r := w.r
    let pop := fun (s : State) => s.mapEq q (fun e => { e with waits := rest })
    if e.fence.isSome || !e.acquires.isEmpty || !s.svRun || decide (s.sv.restoring ≠ 0) ||
        decide (s.svNode = 0x3FFF) then .stop s
    else if r.opc.toNat == Opc.FENCE then
      if r.len ≠ 0 ∨ r.aux ≠ 0 ∨ r.ord ≠ 0 then .again (rso r St.DESC 0 [] (pop s))
      else .again (fenceStep q ((pop s).mapEq q (fun e => { e with fence := some { explicit := some r } })))
    else match prepare s r with
    | .error x => .again (srcFail r x.1 x.2 (pop s))
    | .ok x =>
      let change := opcOrdinary r.opc.toNat && (match e.lastCls with
        | some c => decide (c ≠ x.cls)
        | none => false)
      let rel := r.ord == 2 && (!(s.outOf q).isEmpty || releaseWaits e x)
      if !w.fenced && (change || rel) then
        .again (fenceStep q (s.mapEq q (fun e => { e with
          waits := { w with fenced := true } :: rest, fence := some { explicit := none } })))
      else
        let tile := opcIsTile r.opc.toNat
        let own := decide (x.dst = s.svNode)
        match (if own then PlaneSel.go 0 else s.planeSel x.dst q) with
        | .hold => .stop s
        | .lost => .again (srcFail r St.LOST x.woff (pop s))
        | .go p =>
          let k := limKey (nodeSlot x.dst) (x.cls == 2)
          let lp := Tbl.at s.sv.lim k
          if s.limited x && decide (lp.tokens < 0) then
            .stop (s.mapSv (fun v => { v with lim := Tbl.put v.lim k { lp with waited := true } }))
          else
            let plane := fun j => match (if own then PlaneSel.go 0 else s.partPlane x.dst q tile j) with
              | .go k => k
              | _ => p
            match issueReq r x plane (pop s) with
            | none => .stop s
            | some t =>
              .again (if s.limited x then t.mapSv (fun v => { v with
                lim := Tbl.mod v.lim k (fun l => { l with tokens := l.tokens - Int.ofNat (rqoSpend r) }) }) else t)

/-- Issue what a queue can, in order. -/
def pump (q : Nat) : Nat → State → State
  | 0, s => s
  | fuel + 1, s =>
    match pumpHead q s with
    | .stop s => s
    | .again s => pump q fuel s

/-- Issue what a queue can: each request is taken up at most twice. -/
def pumpQ (q : Nat) (s : State) : State :=
  let s := fenceStep q s
  pump q (2 * (s.eq q).waits.length + 2) s

/-- Issue what every queue can. -/
def pumpAll (s : State) : State := (List.range 32).foldl (fun s q => pumpQ q s) s

/-- RQO_REQUEST: a unit on another berth than its queue's, or for a disabled queue or one whose context
is 0x0000, completes at once; any other takes its place in the queue (R363, R369, R370, R403). -/
def execRqoRequest (berth : Fin 16) (r : Rqo) (s : State) : Res :=
  .next (
    let q := r.qid.val
    if s.sv.inReset || decide (s.sv.nberth ≤ berth.val) then s
    else if q % s.sv.nberth ≠ berth.val then
      emit s (.rsoDone berth.val r.id q St.DESC 0 [])
    else if !(s.qen q) then srcFail r St.ABSENT 0 s
    else if s.qctx q = 0 then srcFail r St.CTX 0 s
    else pumpQ q (s.mapEq q (fun e => { e with waits := e.waits ++ [{ r := r }] })))

/-! ### Responses (R57, R66, R72, R78) -/

/-- The outstanding request that a response names. -/
def State.reqOf (s : State) (d : Side) (que tag : Nat) (tseq : Byte) : Option OutReq :=
  (s.srcs d).reqs.find? (fun o => o.que == que && o.tag == tag && o.tseq == tseq)

/-- Replace or remove an outstanding request. -/
def State.setReqOf (s : State) (d : Side) (o : OutReq) (n : Option OutReq) : State :=
  s.mapSrcs d (fun x => { x with reqs := x.reqs.filterMap (fun y =>
    if y.que = o.que ∧ y.tag = o.tag ∧ y.tseq = o.tseq then n else some y) })

/-- Change one part of an outstanding request. -/
def OutReq.setPart (o : OutReq) (i : Nat) (f : Part → Part) : OutReq :=
  { o with parts := o.parts.map (fun p => if p.part = i then f p else p) }

/-- The part that a response answers: of a FENCE by node and class, of a TILE write by WOFF, of a TILE
read by the packet index; a failed part of a tile by its plane. -/
def OutReq.partOf (o : OutReq) (plane : Option Nat) (p : Packet) : Option Part :=
  let live := o.parts.filter (fun x => !x.answered)
  match o.purpose with
  | .fenceLegs => live.find? (fun x => x.pkts.any (fun k => decide (k.dst = p.src) && decide (k.cls = p.cls)))
  | _ =>
    if o.parts.length ≤ 1 then live.head?
    else if p.opc == Opc.TRD && p.status == 0 then live.find? (fun x => x.part == p.aux / 16)
    else match live.find? (fun x => x.pkts.any (fun k => decide (k.woff = p.woff))) with
      | some x => some x
      | none => match live.find? (fun x => decide (some x.plane = plane)) with
        | some x => some x
        | none => live.head?

/-- Send the packets of a part again with RTY = 1 (R76-R78). -/
def resendPart (o : OutReq) (x : Part) (s : State) : State :=
  let ps := x.pkts.map Packet.resent
  svSendAll x.plane ps (s.setReqOf .sv o (some (o.setPart x.part (fun y => { y with pkts := ps }))))

/-- An acquire's value has returned, or its request has ended. -/
def endAcquire (q tag : Nat) (s : State) : State :=
  s.mapEq q (fun e => { e with acquires := e.acquires.filter (· != tag) })

/-- A request of an engine queue ends: RSO completion, and the queue goes on. -/
def finishReq (o : OutReq) (r : Rqo) (st : BitVec 7) (woff : BitVec 50) (data : List Byte) (s : State) : State :=
  let ok := decide (st = St.OK) || decide (st = St.OK_DUP)
  let s := endAcquire o.que o.tag (s.setReqOf .sv o none)
  pumpQ o.que (rso r st (if ok then 0 else woff) data s)

/-- The status that an unanswered or failed request reports: ERR_LOST for an atomic or REDA that was
sent more than once says only that the last sending was not performed (R70, R86, log entry 26). -/
def settledStatus (x : Part) (st : BitVec 7) : BitVec 7 :=
  if st = St.LOST ∧ x.unsure ∧ x.pkts.any (fun p => opcIsReplayed p.opc) then St.INDET else st

/-- A part of an engine queue's request is answered. -/
def partAnswered (o : OutReq) (x : Part) (st : BitVec 7) (woff : BitVec 50) (s : State) : State :=
  let ok := decide (st = St.OK) || decide (st = St.OK_DUP)
  let o' := o.setPart x.part (fun y => { y with answered := true })
  let left := o'.parts.any (fun y => !y.answered)
  match o.purpose with
  | .fenceLegs =>
    match (s.eq o.que).fence with
    | none => s.setReqOf .sv o none
    | some f =>
      let f := if ok || decide (f.err ≠ 0) then f else { f with err := st, woff := woff }
      if left then (s.setReqOf .sv o (some o')).mapEq o.que (fun e => { e with fence := some f })
      else pumpQ o.que (fenceDone o.que f (s.setReqOf .sv o none))
  | .engine r =>
    if !ok then finishReq o r st woff [] s
    else if left then s.setReqOf .sv o (some o')
    else finishReq o r st woff [] s
  | _ => s.setReqOf .sv o none

/-- The plaintext of returned data (R379, R381). -/
def State.openData (s : State) (p : Packet) (d : List Byte) : List Byte :=
  if p.kslot = 0 then d
  else if p.opc == Opc.LD then xtsData true (s.svKey p.kslot) p.gen (fun i => p.fabric + wd (64 * i)) d
  else xtsOperand true (s.svKey p.kslot) p.gen 2 p d

/-- The plaintext of a data packet of a tile read whose first byte is byte `b` of the tile. -/
def State.openTile (s : State) (p : Packet) (b : Nat) (d : List Byte) : List Byte :=
  if p.kslot = 0 then d
  else match p.geom with
    | none => d
    | some g => xtsData true (s.svKey p.kslot) p.gen
        (fun i => wd (p.dst.toNat * 2 ^ 50 + g.baseWin * 2 ^ 44 + g.byteOff (b + 64 * i))) d

/-- A response to a request of an engine queue or to a FENCE packet. -/
def engineResponse (o : OutReq) (plane : Option Nat) (p : Packet) (s : State) : State :=
  match o.partOf plane p with
  | none => s
  | some x =>
    let req := x.pkts.headD p
    let ok := decide (p.status = St.OK) || decide (p.status = St.OK_DUP)
    let st := if ok && !p.e2eOk then St.CHECK else p.status
    let x' := if ok && !p.e2eOk then { x with unsure := true } else x
    if (st = St.COMPL ∨ st = St.CHECK) ∧ x.e2e < s.srf SR.SV_TXN_TMO 19 3 then
      let o' := o.setPart x.part (fun y => { y with e2e := y.e2e + 1, unsure := x'.unsure })
      resendPart o' { x' with e2e := x.e2e + 1 } (s.setReqOf .sv o (some o'))
    else if st ≠ St.OK ∧ st ≠ St.OK_DUP then partAnswered o x (settledStatus x st) p.woff s
    else
      let s := if req.opc == Opc.LD && bitAt (wd p.aux) 0 then
          (noteDest o.que p.src p.cls x.plane s).mapEq o.que (fun e => { e with since := .mixed })
        else s
      match o.purpose with
      | .engine r =>
        if req.opc == Opc.TRD then
          let k := p.aux % 16
          let g := (req.geom.getD default)
          let b := 4096 * x.part + 256 * k
          if x.got.contains k then s
          else
            let s := emit s (.rsoData (r.qid.val % s.sv.nberth) r.id r.qid.val (b / 64) (s.openTile req b p.data))
            let got := x.got ++ [k]
            if got.length < (g.partLen + 255) / 256 then
              s.setReqOf .sv o (some (o.setPart x.part (fun y => { y with got := got })))
            else partAnswered o x St.OK 0 s
        else if req.opc == Opc.TWR then partAnswered o x St.OK 0 s
        else finishReq o r st 0 (s.openData req p.data) s
      | _ => partAnswered o x St.OK 0 s

/-- The pair of a response that carries CE or ECE is marked (R386). -/
def limMark (p : Packet) (s : State) : State :=
  if (p.ce || p.ece) && (p.cls == 1 || p.cls == 2) && decide (nodeRack p.src = nodeRack s.svNode) then
    let t := Tbl.mod s.sv.lim (limKey (nodeSlot p.src) (p.cls == 2)) (fun l => { l with marked := true })
    s.mapSv (fun v => { v with lim := t })
  else s

/-- A response that reaches the Svapo block (R66). -/
def svResponse (v : Via) (p : Packet) (s : State) : State :=
  let plane := match v with
    | .plane n => some n.val
    | _ => none
  if !p.complOk then pktEvent v St.COMPL p s
  else if p.dst ≠ s.svNode then s
  else
    let s := limMark p s
    match s.reqOf .sv p.que.toNat p.tag.toNat p.tseq with
    | none => s
    | some o =>
      match o.purpose with
      | .engine _ => engineResponse o plane p s
      | .fenceLegs => engineResponse o plane p s
      | .liveNotice => s.setReqOf .sv o none
      | _ => s

/-- An error notice that reaches the Svapo block (R72). -/
def svNotice (v : Via) (p : Packet) (s : State) : State :=
  if !p.complOk then pktEvent v St.COMPL p s
  else if p.dst ≠ s.svNode ∨ 32 ≤ p.que.toNat ∨ p.status = 0 then s
  else setSticky p.que.toNat p.status p.woff (limMark p s)

/-! ### Reply timeouts (R76, R77) -/

/-- The timer of a part runs: it is unanswered and its port controller is not down. -/
def State.timerRuns (s : State) (x : Part) : Bool :=
  !x.answered && (x.pkts.all (fun p => decide (p.dst = s.svNode)) || s.svPortUp x.plane)

/-- One part's reply timer expires. -/
def timeoutPart (o : OutReq) (i : Nat) (s : State) : State :=
  match (s.reqOf .sv o.que o.tag o.tseq) with
  | none => s
  | some o =>
    match o.parts.find? (fun x => x.part == i) with
    | none => s
    | some x =>
      let opc := (x.pkts.headD default).opc
      let again := opc == Opc.LD || opc == Opc.TRD || opc == Opc.FENCE || opcIsReplayed opc
      if again ∧ x.rty < s.srf SR.SV_TXN_TMO 16 3 then
        let o' := o.setPart i (fun y => { y with rty := y.rty + 1, unsure := true })
        resendPart o' { x with rty := x.rty + 1, unsure := true } (s.setReqOf .sv o (some o'))
      else partAnswered o x (if opcIsReplayed opc then St.INDET else St.LOST) ((x.pkts.headD default).woff) s

/-- The reply timers of a request of the Svapo block expire. -/
def svTimeout (que tag : Nat) (s : State) : State :=
  match s.sv.srcs.reqs.find? (fun o => o.que == que && o.tag == tag) with
  | none => s
  | some o =>
    match o.purpose with
    | .engine _ => (o.parts.filter s.timerRuns).foldl (fun s x => timeoutPart o x.part s) s
    | .fenceLegs => (o.parts.filter s.timerRuns).foldl (fun s x => timeoutPart o x.part s) s
    | .liveNotice => s.setReqOf .sv o none
    | _ => s

/-! ### The injection limiter (R386, R387) -/

/-- The rate that a pair's bucket gains at. -/
def State.limRate (s : State) (l : LimPair) : Nat := if bitAt (s.sr SR.SV_LIM_CTL) 0 then l.rate else 256

/-- A rate that reaches RMIN or returns to 256 is recorded. -/
def limEvent (k old new rmin : Nat) (s : State) : State :=
  if old ≠ new ∧ (new = rmin ∨ new = 256) then
    s.svEvent 0xFF { cat := Cat.INFO, obj := Obj.EP, arg0 := wd k, arg1 := wd new }
  else s

/-- One pair's adjustment at the end of a period. -/
def limAdjust (s : State) (l : LimPair) : LimPair :=
  let rmin := s.srf SR.SV_LIM_CTL 2 8
  let md := s.srf SR.SV_LIM_CTL 10 4
  let ai := s.srf SR.SV_LIM_CTL 14 8
  let period := s.srf SR.SV_LIM_CTL 22 10
  let gain := Int.ofNat (s.limRate l * 7 * period * 100)
  let rate := if bitAt (s.sr SR.SV_LIM_CTL) 1 then l.rate
    else if l.marked then max rmin (l.rate - (l.rate * md + 15) / 16)
    else if l.waited then min 256 (l.rate + ai)
    else l.rate
  { tokens := min 16384 (l.tokens + gain), rate := rate, marked := false, waited := false }

/-- LIMITER_PERIOD: every pair gains a period's tokens and is adjusted; the requests that waited are
taken up again. -/
def execLimiterPeriod (s : State) : Res :=
  .next (
    if s.sv.inReset then s
    else
      let rmin := s.srf SR.SV_LIM_CTL 2 8
      let old := s.sv.lim
      let s := s.mapSv (fun v => { v with lim := old.foldl (fun t x => Tbl.put t x.1 (limAdjust s x.2)) [] })
      let s := old.foldl (fun s x => limEvent x.1 x.2.rate (Tbl.at s.sv.lim x.1).rate rmin s) s
      pumpAll s)

/-- TOKEN_BUCKET_REFILL: a bucket left negative has refilled to zero; the waiting request is sent. -/
def execTokenBucketRefill (dst : Fin 256) (cls2 : Bool) (s : State) : Res :=
  .next (
    if s.sv.inReset then s
    else
      let t := Tbl.mod s.sv.lim (limKey dst.val cls2) (fun l => { l with tokens := max 0 l.tokens })
      pumpAll (s.mapSv (fun v => { v with lim := t })))

/-! ### Planes that leave and enter LIVE (R38, R77, R133, R473, R474, R477) -/

/-- Send the packets held for a plane. -/
def svRelease (pl : Nat) (s : State) : State :=
  let l := s.sv.held.filter (fun h => h.1 == pl)
  l.foldl (fun s h => svTx pl h.2 s) (s.mapSv (fun v => { v with held := v.held.filter (fun h => h.1 != pl) }))

/-- PORT_CONTROLLER_UP: the port carries packets again; the held packets go on it, and the replay entries
kept for it return to their hold (R77, R85). -/
def execPortControllerUp (plane : Fin 18) (s : State) : Res :=
  .next (
    if s.svPortUp plane.val then
      svRelease plane.val (s.mapNode .sv (fun d => { d with replay := d.replay.map (fun (r : ReplayEnt) =>
        if r.plane = plane.val then { r with kept := false } else r) }))
    else s)

/-- PORT_CONTROLLER_DOWN (R77). -/
def execPortControllerDown (plane : Fin 18) (s : State) : Res :=
  .next (if s.inService (.sv plane) then portDown (.sv plane) s else s)

/-- R38 applied to one map for a plane lost. -/
def rewriteMap (get : Nat → Nat) (live : Nat → Bool) (d : Nat) : List Nat :=
  let surv := ((List.range 17).map (fun i => (d + 1 + i) % 18)).filter live
  ((List.range 144).foldl (fun (acc : List Nat × Nat) i =>
    if get i = d ∧ !surv.isEmpty then (acc.1 ++ [surv.getD (acc.2 % surv.length) d], acc.2 + 1)
    else (acc.1 ++ [get i], acc.2)) ([], 0)).1

/-- Write the 144 entries of a map at a register offset. -/
def State.setMap (s : State) (reg : Nat → Nat) (l : List Nat) : State :=
  (List.range 18).foldl (fun s w =>
    s.setSr (reg w) (wd (natOf ((List.range 8).map (fun i => BitVec.ofNat 8 (l.getD (8 * w + i) 0)))))) s

/-- Send a LIVE notice to every live QD1 through its own port controller (R473). -/
def liveNotices (s : State) : State :=
  s.livePlanes.foldl (fun s p =>
    let u := useTag .sv 34 p s
    let k := Hdr.packet { dst := mkNode (nodeRack s.svNode) (160 + p), ctx := 0, opc := Opc.STA, src := s.svNode,
                          cls := 1, que := 34, woff := 63 * 2 ^ 44 + R.FT_LIVE_NOTE, tag := p, len := 8,
                          tseq := u.1 } none none (wordBytes (s.sr SR.SV_LIVE))
    let s := u.2.mapSrcs .sv (fun y => { y with reqs := y.reqs.filter (fun o => !(o.que == 34 && o.tag == p)) ++
      [{ que := 34, tag := p, tseq := u.1, parts := [{ pkts := [k], plane := p }], purpose := .liveNotice }] })
    svTx p k s) s

/-- The plane on which a packet held for a lost plane goes on: that of its node (R38, R39). -/
def State.newPlane (s : State) (p : Packet) : Option Nat :=
  if opcIsCoh p.opc ∧ p.rsp then none
  else match s.planeSel p.dst p.que.toNat with
  | .go k => some k
  | _ => none

/-- The plane of part `j` of a sent request: the home plane for a coherence opcode (R35, R165), and as for
a new request for any other. -/
def State.packetPlane (s : State) (p : Packet) (q j : Nat) : PlaneSel :=
  if opcIsCoh p.opc then
    let k := s.homeMap (homeIdx p.fabric)
    if s.svLive k then .go k else .hold
  else s.partPlane p.dst q (opcIsTile p.opc) j

/-- A plane has left LIVE and the maps are rewritten: unanswered requests are resent and held packets
sent on their new planes, in issue order (R77, R133). -/
def movePlane (d : Nat) (s : State) : State :=
  let held := (s.sv.held.filter (fun h => h.1 == d)).map (·.2)
  let s := s.mapSv (fun v => { v with held := v.held.filter (fun h => h.1 != d) })
  let s := s.sv.srcs.reqs.foldl (fun s o =>
    o.parts.foldl (fun s x =>
      if x.answered || x.plane != d ||
          x.pkts.all (fun p => decide (p.dst = s.svNode) && !(opcIsCoh p.opc) || p.opc == Opc.WBD) then s
      else match s.reqOf .sv o.que o.tag o.tseq, x.pkts with
        | some o, p :: _ =>
          match s.packetPlane p o.que x.part with
          | .go k =>
            let fresh := x.pkts.all (fun p => held.contains p)
            let o' := o.setPart x.part (fun y => { y with plane := k, unsure := y.unsure || !fresh })
            let s := s.setReqOf .sv o (some o')
            if fresh then s else resendPart o' { x with plane := k, unsure := true } s
          | _ => match o.purpose with
            | .engine _ => partAnswered o x (if opcIsReplayed p.opc then St.INDET else St.LOST) p.woff s
            | .fenceLegs => partAnswered o x St.LOST p.woff s
            | _ => s.setReqOf .sv o none
        | _, _ => s) s) s
  held.foldl (fun s p =>
    let part := match s.reqOf .sv p.que.toNat p.tag.toNat p.tseq with
      | some o => if p.rsp then none else (o.parts.find? (fun x => x.pkts.contains p)).map (·.plane)
      | none => none
    match part with
    | some k => svTx k p s
    | none => match s.newPlane p with
      | some k => svTx k p s
      | none => if p.rsp || !(opcIsPosted p.opc) then s else setSticky p.que.toNat St.LOST p.woff s) s

/-- The bits of SV_LIVE that a management write of the QD1 of plane `p` may change (R474). -/
def State.liveAfter (s : State) (p : Nat) (v : Word) : Word :=
  (List.range 18).foldl (fun w j =>
    let old := bitAt (s.sr SR.SV_LIVE) j
    let new := bitAt v j
    let b := if j = p ∨ j = (p ^^^ 1) then new
      else if old && !new && !(s.svPortUp j) then false else old
    fset w j 1 (b2n b)) 0

/-- A write of SV_LIVE from the QD1 of a plane. Cleared bits rewrite the maps and release what was held;
set bits start a restoration (R374, R474, R477). -/
def svLiveWrite (p : Nat) (v : Word) (s : State) : State :=
  let old := s.sr SR.SV_LIVE
  let new := s.liveAfter p v
  let gone := (List.range 18).filter (fun j => bitAt old j && !(bitAt new j))
  let come := (List.range 18).filter (fun j => !(bitAt old j) && bitAt new j)
  let s := s.setSr SR.SV_LIVE new
  let s := s.mapSv (fun x => { x with
    wasLive := x.wasLive ||| BitVec.ofNat 18 (new.toNat ||| old.toNat)
    restoring := (x.restoring &&& BitVec.ofNat 18 new.toNat) |||
      BitVec.ofNat 18 (come.foldl (fun n j => n + 2 ^ j) 0) })
  let s := gone.foldl (fun s d =>
    let live := fun k => bitAt new k
    let s := s.setMap SR.PLANE_MAP (rewriteMap s.planeMap live d)
    s.setMap SR.HOME_MAP (rewriteMap s.homeMap live d)) s
  let s := gone.foldl (fun s d =>
    let s := (List.range 32).foldl (fun s q =>
      if (s.eq q).postPlanes.contains d then
        setSticky q St.LOST 0 (s.mapEq q (fun e => { e with postPlanes := e.postPlanes.filter (· != d) }))
      else s) s
    let s := s.mapNode .sv (fun n => { n with replay := n.replay.map (fun (r : ReplayEnt) =>
      if r.plane = d then { r with kept := false } else r) })
    movePlane d s) s
  pumpAll (if gone.isEmpty then s else liveNotices s)

/-- SV_LIVE_WRITE. -/
def execSvLiveWrite (plane : Fin 18) (v : Word) (s : State) : Res :=
  .next (if s.sv.inReset then s else emits (svLiveWrite plane.val v s) (regAns .management St.OK))

/-- MAP_RESTORE: once every request has completed and every queue with posted writes has run its implicit
FENCE, the maps take the restored planes back and a notice goes out (R477). -/
def execMapRestore (s : State) : Res :=
  .next (
    let r := s.sv.restoring
    let busy := s.sv.srcs.reqs.any (fun o => decide (o.que ≤ 32)) ||
      (List.range 32).any (fun q => (s.eq q).fence.isSome)
    let owe := (List.range 32).filter (fun q => !(s.fenceTargets q).isEmpty)
    if s.sv.inReset || r == 0 || busy then s
    else if !owe.isEmpty then
      owe.foldl (fun s q => fenceStep q (s.mapEq q (fun e => { e with fence := some { explicit := none } }))) s
    else
      let back := fun (get : Nat → Nat) => (List.range 144).map (fun i => if r.getLsbD (i % 18) then i % 18 else get i)
      let s := s.setMap SR.PLANE_MAP (back s.planeMap)
      let s := s.setMap SR.HOME_MAP (back s.homeMap)
      pumpAll (liveNotices (s.mapSv (fun v => { v with restoring := 0 }))))

end Sys2Proof.Machine
end

