-- ==== Sys2Proof/Machine/Units.lean ====
section
/-! DEFINITION. Requests that the units of a QD1 make: queues, tags and limits (R68), resends (R76,
R78), responses (R66), and the sync records of their waits (R495). -/

namespace Sys2Proof.Machine

/-! ### Units -/

namespace Un
abbrev FETCH := 1
abbrev STATUS := 2
abbrev COMPLETION := 3
abbrev SIGNAL := 4
abbrev NOTICE := 5
abbrev DMA := 6
abbrev MMSG := 7
abbrev GREEN := 8
abbrev RELAY := 9
abbrev COPY := 10
abbrev HM := 11
abbrev CUST := 12
abbrev SVC := 13
end Un

/-- Requests of a queue that may be outstanding (R68). -/
def unitLimit (que : Nat) : Nat :=
  if que < 256 then 256 else if que < 384 then 32 else if que = 512 then 512 else 64

/-- A packet with its tag and use count. -/
def retag (tag : Nat) (tseq : Byte) (p : Packet) : Packet :=
  { p with w2 := fset p.w2 50 9 tag, w3 := fset p.w3 41 8 tseq.toNat }

/-- Requests of a queue of the QD1 that are outstanding. -/
def State.unitOut (s : State) (que : Nat) : List OutReq := s.qd.srcs.reqs.filter (fun o => o.que == que)

/-- Send a request with a free tag; which one is open, a free value (log entry 6). -/
def unitIssue (w : TagWait) (s : State) : State :=
  let used := (s.unitOut w.que).map (fun o => o.tag)
  let k := pickMany 1 ((List.range 512).filter (fun t => !(used.contains t))) s
  let tag := k.1.headD 0
  let n := useTag .qd w.que tag k.2
  let parts := w.parts.mapIdx (fun i ps => ({ part := i, pkts := ps.map (retag tag n.1) } : Part))
  let s := n.2.mapSrcs .qd (fun x => { x with
    reqs := x.reqs ++ [{ que := w.que, tag := tag, tseq := n.1, parts := parts, purpose := w.purpose }] })
  emits s (parts.flatMap (fun x => x.pkts.map Out.unitSend))

/-- Make a request: beyond the queue's limit it waits behind earlier ones (R68). -/
def unitReq (w : TagWait) (s : State) : State :=
  if (s.unitOut w.que).length < unitLimit w.que && !(s.qd.srcs.waits.any (fun x => x.que == w.que)) then
    unitIssue w s
  else s.mapSrcs .qd (fun x => { x with waits := x.waits ++ [w] })

/-- Tags have come free: the oldest waiting request of the queue is sent. -/
def unitPump (que : Nat) (s : State) : State :=
  match s.qd.srcs.waits.findIdx? (fun x => x.que == que) with
  | none => s
  | some i =>
    match s.qd.srcs.waits[i]? with
    | none => s
    | some w =>
      if (s.unitOut que).length < unitLimit que then
        unitIssue w (s.mapSrcs .qd (fun x => { x with waits := x.waits.eraseIdx i }))
      else s

/-- A posted packet of a unit: no tag. -/
def unitPost (p : Packet) (s : State) : State := emit s (.unitSend p)

/-- Nodes that a unit of the QD1 may reach (R36): end points of its rack, itself and its partner. -/
def State.unitReach (s : State) (n : BitVec 14) : Bool :=
  (decide (nodeRack n = s.qdRack) && slotIsEp (nodeSlot n)) || decide (n = s.qdNode) ||
  decide (n = s.partnerNode)

/-- The packets of a tile read or write, part by part (R58, R67). `h` carries everything but LEN, AUX
and WOFF; `data` is what a write carries. -/
def tileParts (h : Hdr) (g : Geom) (data : List Byte) : List (List Packet) :=
  (List.range ((g.total + 4095) / 4096)).map (fun j =>
    let g : Geom := { g with g3 := fset (fset g.g3 17 4 j) 21 4 ((g.total + 4095) / 4096 - 1) }
    let at_ := fun (b : Nat) => g.baseWin * 2 ^ 44 + g.byteOff b
    if h.opc == Opc.TRD then
      [Hdr.packet { h with geo := true, aux := 16 * j, woff := at_ (4096 * j) } (some g) none []]
    else
      (List.range ((g.partLen + 255) / 256)).map (fun k =>
        let d := slice data (4096 * j + 256 * k) (min 256 (g.partLen - 256 * k))
        Hdr.packet { h with geo := k == 0, aux := 16 * j + k, len := d.length,
                            woff := at_ (4096 * j + 256 * k) } (if k = 0 then some g else none) none d))

/-- The geometry of a whole tile: row length, rows, stride and base (R58). -/
def mkGeom (rowLen rows stride woff : Nat) : Geom :=
  { g0 := wd (rowLen + rows * 2 ^ 17), g1 := wd stride, g2 := wd woff, g3 := wd (rowLen * rows) }

/-! ### Responses (R57, R66, R76, R78) -/

/-- The part of a unit's request that a response answers. -/
def OutReq.unitPart (o : OutReq) (p : Packet) : Option Part :=
  let live := o.parts.filter (fun x => !x.answered)
  if o.parts.length ≤ 1 then live.head?
  else if p.opc == Opc.TRD && p.status == 0 then live.find? (fun x => x.part == p.aux / 16)
  else match live.find? (fun x => x.pkts.any (fun k => decide (k.woff = p.woff))) with
    | some x => some x
    | none => live.head?

/-- Send a part again with RTY = 1. -/
def unitResend (o : OutReq) (x : Part) (s : State) : State :=
  let ps := x.pkts.map Packet.resent
  emits (s.setReqOf .qd o (some (o.setPart x.part (fun y => { y with pkts := ps })))) (ps.map Out.unitSend)

/-- A part of a unit's request is answered; after the last, `done` uses the request. -/
def unitPartDone (done : OutReq → State → State) (o : OutReq) (x : Part) (st : BitVec 7) (woff : BitVec 50)
    (d : List (Nat × List Byte)) (s : State) : State :=
  let ok := decide (st = St.OK) || decide (st = St.OK_DUP)
  let o1 := o.setPart x.part (fun y => { y with answered := true })
  let o2 := { o1 with st := if ok || decide (o1.st ≠ 0) then o1.st else st,
                      woff := if ok || decide (o1.st ≠ 0) then o1.woff else woff, data := o1.data ++ d }
  if o2.parts.any (fun y => !y.answered) then s.setReqOf .qd o (some o2)
  else done o2 (unitPump o.que (s.setReqOf .qd o none))

/-- A response to a request of a unit of the QD1. -/
def unitResponse (done : OutReq → State → State) (o : OutReq) (p : Packet) (s : State) : State :=
  match o.unitPart p with
  | none => s
  | some x =>
    let req := x.pkts.headD p
    let ok := decide (p.status = St.OK) || decide (p.status = St.OK_DUP)
    let st := if ok && !p.e2eOk then St.CHECK else p.status
    if (st = St.COMPL ∨ st = St.CHECK) ∧ x.e2e < s.fl F.QD_TXN_TMO_E2E_MAX then
      let o' := o.setPart x.part (fun y => { y with e2e := y.e2e + 1 })
      unitResend o' { x with e2e := x.e2e + 1 } (s.setReqOf .qd o (some o'))
    else if st ≠ St.OK ∧ st ≠ St.OK_DUP then unitPartDone done o x st p.woff [] s
    else if req.opc == Opc.TRD then
      let k := p.aux % 16
      if x.got.contains k then s
      else
        let o := { o with data := o.data ++ [(4096 * x.part + 256 * k, p.data)] }
        let got := x.got ++ [k]
        if got.length < (((req.geom.getD default).partLen) + 255) / 256 then
          s.setReqOf .qd o (some (o.setPart x.part (fun y => { y with got := got })))
        else unitPartDone done o x St.OK 0 [] s
    else unitPartDone done o x St.OK 0 [(if req.opc == Opc.RDNA then req.off else 0, p.data)] s

/-- The reply timers of a unit's request expire (R76): reads and FENCE packets are resent, writes and
messages are not. -/
def unitTimeout (done : OutReq → State → State) (o : OutReq) (s : State) : State :=
  (o.parts.filter (fun x => !x.answered)).foldl (fun s x =>
    match s.reqOf .qd o.que o.tag o.tseq with
    | none => s
    | some o =>
      let opc := (x.pkts.headD default).opc
      let again := opc == Opc.LD || opc == Opc.TRD || opc == Opc.FENCE || opc == Opc.RDNA || opcIsReplayed opc
      if again ∧ x.rty < s.fl F.QD_TXN_TMO_RTY_MAX then
        let o' := o.setPart x.part (fun y => { y with rty := y.rty + 1 })
        unitResend o' { x with rty := x.rty + 1 } (s.setReqOf .qd o (some o'))
      else unitPartDone done o x (if opcIsReplayed opc then St.INDET else St.LOST)
        ((x.pkts.headD default).woff) [] s) s

/-- The bytes of a read whose pieces have come, in the order of their places. -/
def OutReq.bytes (o : OutReq) (n : Nat) : List Byte :=
  o.data.foldl (fun b d => patch b d.1 d.2) (List.replicate n 0)

/-! ### Sync records (R495) -/

/-- The fields of a wait that has ended. -/
structure SyncWait where
  kind : Nat
  start : Word
  wclass : Nat
  windex : Nat
  wsub : Nat := 0
  ctx : BitVec 16 := 0
  node : BitVec 14 := 0
  q : Nat := 0
  obj : Nat := 0
  deriving DecidableEq, Repr

/-- A sync record of a wait of a duration. -/
def SyncWait.record (w : SyncWait) (open_ : Bool) (dur : Nat) : EvRec :=
  { e0 := w.start
    e1 := wd (w.kind % 16 + b2n open_ * 16 + min dur (2 ^ 40 - 1) * 2 ^ 24)
    e2 := wd (w.wclass % 256 + w.windex % 256 * 2 ^ 8 + w.wsub % 65536 * 2 ^ 16 + w.ctx.toNat * 2 ^ 32)
    e3 := wd (w.node.toNat + w.q % 4096 * 2 ^ 14 + w.obj % 2 ^ 32 * 2 ^ 32) }

/-- A wait ends: recorded in the trace region when it lasted at least SYNC_MIN. -/
def State.syncEnd (s : State) (w : SyncWait) : State :=
  let dur := s.qd.aon.ns.toNat - w.start.toNat % 2 ^ 60
  if s.fl F.TR_CTL_SYNC_MIN * 10 ≤ dur then s.toRegion (w.record false dur) else s

end Sys2Proof.Machine
end

