-- ==== Sys2Proof/Machine/Directory.lean ====
section
/-! DEFINITION. The directory of a QD1 (R142-R149, R154-R170): set-up, requests, snoops, write-backs,
conversion, lost members and census. -/

namespace Sys2Proof.Machine

/-! ### Lines (R37, R142, R143) -/

/-- Line number a[63:7] of a packet. -/
def lineOf (p : Packet) : BitVec 57 := (p.fabric >>> 7).setWidth 57
/-- Line address. -/
def lineAddr (l : BitVec 57) : Word := (l.setWidth 64) <<< 7
/-- The hash of R143. -/
def lineHash (l : BitVec 57) : Nat :=
  let a := lineAddr l
  (fget a 7 17) ^^^ (fget a 24 17) ^^^ (fget a 41 17) ^^^ (fget a 58 6)
def dirSlice (l : BitVec 57) : Nat := lineHash l % 16
def dirSet (l : BitVec 57) : Nat := lineHash l / 16
/-- Key of a way of a line's set. -/
def dirKey (l : BitVec 57) (way : Nat) : Nat := 12 * (8192 * dirSlice l + dirSet l) + way
/-- Home plane of an index of HOME_MAP, as this QD1 follows the map (R37). -/
def State.homeOf (s : State) (i : Nat) : Nat := Tbl.get (fun i => i % 18) s.qd.dir.home i
/-- Home plane of a line. -/
def State.homePlane (s : State) (l : BitVec 57) : Nat := s.homeOf (homeIdx (lineAddr l))

/-! ### Hamlets and coherent windows (R136-R139) -/

/-- Slots of a hamlet by member index. -/
def State.hamlet (s : State) (h : Nat) : List Nat :=
  if s.flag (F.HAM_CFG_W2_VALID h) then
    (List.range (min 16 (s.fl (F.HAM_CFG_W2_NMEM h)))).map (fun i =>
      fget (s.rg (if i < 8 then R.HAM_CFG_W0 h else R.HAM_CFG_W1 h)) (8 * (i % 8)) 8)
  else []

namespace Cw
def slot (w : Word) : Nat := fget w 0 8
def win (w : Word) : Nat := fget w 8 6
def ham (w : Word) : Nat := fget w 14 4
def moesi (w : Word) : Bool := bitAt w 18
def valid (w : Word) : Bool := bitAt w 19
def gen (w : Word) : Byte := BitVec.ofNat 8 (fget w 20 8)
def ctx (w : Word) : BitVec 16 := BitVec.ofNat 16 (fget w 28 16)
def prot (w : Word) : Bool := bitAt w 50
def kslot (w : Word) : BitVec 6 := if prot w then BitVec.ofNat 6 (fget w 44 6) else 0
end Cw

/-- The valid COH_WIN entry that names the window of a fabric address: its index and word. -/
def State.cohWin (s : State) (a : Word) : Option (Nat × Word) :=
  if nodeRack (faNode a) ≠ s.qdRack then none
  else ((List.range 256).map (fun i => (i, s.rg (R.COH_WIN i)))).find? (fun x =>
    Cw.valid x.2 && Cw.slot x.2 == nodeSlot (faNode a) && Cw.win x.2 == faWin a)

/-- Effective mode of a window (R162): true for MOESI. -/
def State.effMode (s : State) (w : Word) : Bool :=
  Cw.moesi w || (s.flag F.DIR_CTL_AUTO_MO && decide (Cw.slot w < 144) &&
    (Tbl.at s.qd.links (Cw.slot w)).narrow)

/-- Whether a member's slots are well formed for a hamlet that becomes valid (R137). -/
def hamletOk (s : State) (h : Nat) (w0 w1 w2 : Word) : Bool :=
  let n := fget w2 0 5
  let l := (List.range n).map (fun i => fget (if i < 8 then w0 else w1) (8 * (i % 8)) 8)
  decide (1 ≤ n) && decide (n ≤ 16) && l.all (fun x => decide (x < 144)) && decide (l.Nodup) &&
  (List.range 9).all (fun k => k == h || l.all (fun x => !((s.hamlet k).contains x)))

/-- Write a word of a hamlet definition, or reject it (R137). -/
def hamWrite (h w : Nat) (v : Word) (ans : BitVec 7 → List Out) (s : State) : State :=
  let off := R.HAM_CFG_W0 h + 8 * w
  let was := s.flag (F.HAM_CFG_W2_VALID h)
  let clears := w == 2 && !(bitAt v 5) &&
    (List.range 256).all (fun i => !(Cw.valid (s.rg (R.COH_WIN i)) && Cw.ham (s.rg (R.COH_WIN i)) == h))
  let sets := w == 2 && bitAt v 5
  let v' := if w = 2 then v &&& 0x3F else v
  if w = 3 then emits s (ans St.OK)
  else if (was && !clears) || (sets && !(hamletOk s h (s.rg (R.HAM_CFG_W0 h)) (s.rg (R.HAM_CFG_W1 h)) v')) then
    emits (s.refused (Rg.dir 0) off v) (ans St.PERM)
  else emits (s.setRg off v') (ans St.OK)

/-- HAM_CFG_WRITE. -/
def execHamCfgWrite (src : RegSrc) (h : Fin 9) (w : Fin 4) (v : Word) (s : State) : Res :=
  .next (hamWrite h.val w.val v (regAns src) s)

/-- Write a coherent-window entry: one in use is kept (R138). -/
def cohWinWrite (i : Nat) (v : Word) (ans : BitVec 7 → List Out) (s : State) : State :=
  if Cw.valid (s.rg (R.COH_WIN i)) then emits (s.refused (Rg.dir 0) (R.COH_WIN i) v) (ans St.PERM)
  else emits (s.setRg (R.COH_WIN i) (v &&& 0x7FFFFFFFFFFFF)) (ans St.OK)

/-- COH_WIN_WRITE. -/
def execCohWinWrite (src : RegSrc) (i : Fin 256) (v : Word) (s : State) : Res :=
  .next (cohWinWrite i.val v (regAns src) s)

/-! ### Entries (R143-R145, R154) -/

namespace Hst
abbrev I : BitVec 3 := 0
abbrev S : BitVec 3 := 1
abbrev X : BitVec 3 := 2
abbrev O : BitVec 3 := 3
end Hst

def State.dent (s : State) (k : Nat) : DirEnt := Tbl.at s.qd.dir.ents k
def State.setDent (s : State) (k : Nat) (e : DirEnt) : State :=
  s.mapDir (fun d => { d with ents := Tbl.put d.ents k e })
/-- The key of a line's entry. -/
def State.dirWay (s : State) (l : BitVec 57) : Option Nat :=
  ((List.range 12).map (dirKey l)).find? (fun k => (s.dent k).valid && decide ((s.dent k).line = l))
/-- A line's entry; a line without one is in I. -/
def State.dirEntry (s : State) (l : BitVec 57) : DirEnt :=
  match s.dirWay l with
  | some k => s.dent k
  | none => { line := l }
/-- Change a line's entry, where it has one. -/
def State.mapDent (s : State) (l : BitVec 57) (f : DirEnt → DirEnt) : State :=
  match s.dirWay l with
  | some k => s.setDent k (f (s.dent k))
  | none => s
/-- Holders of a line, the owner among them. -/
def DirEnt.holders (e : DirEnt) : List Nat :=
  if e.hst = Hst.I then [] else (List.range 16).filter (fun i => e.shr.getLsbD i)
/-- Sharers: the holders but the owner. -/
def DirEnt.sharers (e : DirEnt) : List Nat :=
  if e.hst = Hst.S then e.holders else e.holders.filter (fun i => i != e.own.toNat)
def DirEnt.isOwner (e : DirEnt) (r : Nat) : Bool :=
  (decide (e.hst = Hst.X) || decide (e.hst = Hst.O)) && e.own.toNat == r
/-- A holder vector. -/
def shrOf (l : List Nat) : BitVec 16 := l.foldl (fun v i => v ||| (1#16 <<< i)) 0
def DirEnt.toI (e : DirEnt) : DirEnt := { e with hst := Hst.I, shr := 0, own := 0 }
def DirEnt.toS (e : DirEnt) (l : List Nat) : DirEnt :=
  if l.isEmpty then e.toI else { e with hst := Hst.S, shr := shrOf l, own := 0 }
def DirEnt.toX (e : DirEnt) (r : Nat) : DirEnt :=
  { e with hst := Hst.X, shr := shrOf [r], own := BitVec.ofNat 4 r }
def DirEnt.toO (e : DirEnt) (o : Nat) (l : List Nat) : DirEnt :=
  { e with hst := Hst.O, shr := shrOf (o :: l), own := BitVec.ofNat 4 o }
/-- A member's record is cleared. -/
def DirEnt.drop (e : DirEnt) (r : Nat) : DirEnt :=
  if e.isOwner r then (if e.hst = Hst.X then e.toI else e.toS e.sharers)
  else if e.hst = Hst.S then e.toS (e.holders.filter (· != r))
  else { e with shr := e.shr &&& ~~~ (1#16 <<< r) }
/-- State code of a directory state (R149). -/
def DirEnt.code (e : DirEnt) : Nat :=
  if e.hst = Hst.S then 1 else if e.hst = Hst.X then 3 else if e.hst = Hst.O then 4 else 0
/-- An entry in I leaves its way unless it keeps a reservation. -/
def DirEnt.settle (e : DirEnt) : DirEnt := if e.hst = Hst.I ∧ !e.nxv ∧ e.busy = 0 then default else e

/-- A record of the lost-write-back ring (R167). -/
def lwbRecord (l : BitVec 57) (e : DirEnt) (slot reason : Nat) (s : State) : State :=
  let wr := s.fl F.LWB_WR_IDX
  if (wr + 1) % 4096 = s.fl F.LWB_RD_IDX then s.count F.LWB_WR_OVF
  else
    let r : EvRec := { e0 := wd (l.toNat + e.ham.toNat * 2 ^ 57 + e.code % 8 * 2 ^ 61),
                       e1 := wd (slot + reason * 256), e2 := s.stamp, e3 := 0 }
    (s.mapDir (fun d => { d with lwb := Tbl.put d.lwb wr r })).setFl F.LWB_WR_IDX ((wr + 1) % 4096)

/-! ### Transactions (R146, R158) -/

def State.txnOf (s : State) (l : BitVec 57) : Option DirTxn := s.qd.dir.txns.find? (fun t => decide (t.line = l))
/-- A request for a line waits for an eviction (R145). -/
def State.awaits (s : State) (l : BitVec 57) : Bool :=
  s.qd.dir.txns.any (fun t => t.after && (match t.req with
    | some r => decide (lineOf r.2 = l)
    | none => false))
/-- The busy kind that stands in the entry. -/
def DirTxn.busyKind (t : DirTxn) : BitVec 4 :=
  if t.snoops.isEmpty && t.acks.isEmpty && t.wb == 1 then 3
  else if t.snoops.isEmpty && t.acks.isEmpty && t.wb == 2 then 4 else t.kind
/-- Write back a transaction. -/
def State.putTxn (s : State) (t : DirTxn) : State :=
  (s.mapDir (fun d => { d with txns := d.txns.map (fun x => if x.slice = t.slice ∧ x.idx = t.idx then t else x) })).mapDent
    t.line (fun e => { e with busy := t.busyKind })
/-- Open a transaction; none when the slice's table is full. Which free entry it takes is open, a free
value (log entry 6). -/
def State.txnStart (s : State) (l : BitVec 57) (kind : BitVec 4) (cw : Word) (f : DirTxn → DirTxn) :
    Option (DirTxn × State) :=
  let sl := dirSlice l
  let used := (s.qd.dir.txns.filter (fun t => t.slice == sl)).map (·.idx)
  let free := (List.range 64).filter (fun i => !(used.contains i))
  if free.isEmpty then none
  else
    let k := pickMany 1 free s
    let i := k.1.headD 0
    let n := Tbl.at k.2.qd.dir.tseq (64 * sl + i) + 1
    let t := f { slice := sl, idx := i, tseq := n, line := l, kind := kind, cw := cw }
    some (t, (k.2.mapDir (fun d => { d with tseq := Tbl.put d.tseq (64 * sl + i) n, txns := d.txns ++ [t] })).mapDent
      l (fun e => { e with busy := t.busyKind }))

/-! ### Messages (R146, R148) -/

/-- A packet of a transaction to a node about its line. -/
def txnPacket (s : State) (t : DirTxn) (dst : BitVec 14) (opc que aux : Nat) (rsp : Bool) (st : BitVec 7)
    (d : List Byte) (len : Nat) : Packet :=
  Hdr.packet { dst := dst, ctx := Cw.ctx t.cw, opc := opc, kslot := Cw.kslot t.cw, src := s.qdNode, cls := 1,
               rsp := rsp, gen := Cw.gen t.cw, que := que, woff := (faWoff (lineAddr t.line)).toNat, tag := t.idx,
               len := len, tseq := t.tseq, aux := aux, status := st } none none d
/-- Node of a member of the transaction's hamlet. -/
def State.memberNode (s : State) (t : DirTxn) (r : Nat) : BitVec 14 :=
  mkNode s.qdRack ((s.hamlet (Cw.ham t.cw)).getD r 0xFF)
/-- Member index of a node in the transaction's hamlet. -/
def State.memberOf (s : State) (cw : Word) (n : BitVec 14) : Option Nat :=
  if nodeRack n ≠ s.qdRack then none
  else (s.hamlet (Cw.ham cw)).findIdx? (fun x => x == nodeSlot n)
/-- The snoop of a transaction to a member. -/
def snoopPacket (s : State) (t : DirTxn) (r : Nat) : Packet :=
  txnPacket s t (s.memberNode t r) t.snpOpc (544 + t.slice) t.snpAux false 0 [] 0
def sendSnoops (t : DirTxn) (s : State) : State := emits s (t.snoops.map (fun r => .unitSend (snoopPacket s t r)))
/-- The read and the write of home memory. -/
def memLd (s : State) (t : DirTxn) : Packet :=
  txnPacket s t (faNode (lineAddr t.line)) Opc.LD (528 + t.slice) 0 false 0 [] 128
def memSta (s : State) (t : DirTxn) : Packet :=
  txnPacket s t (faNode (lineAddr t.line)) Opc.STA (528 + t.slice) 0 false 0 t.wbData 128
/-- WBOK to the giver. -/
def wbok (s : State) (t : DirTxn) : Packet :=
  txnPacket s t (s.memberNode t t.giver) Opc.CACK (544 + t.slice) 2 true t.wbStatus [] 0
/-- A coherence response to a request. -/
def cohAnswer (p : Packet) (opc aux : Nat) (st : BitVec 7) (d : List Byte) : Packet :=
  Hdr.packet { p.answerHdr st with opc := opc, aux := aux, len := d.length } none none d
/-- CNACK with a reason (R149). -/
def cnack (v : Via) (p : Packet) (reason : Nat) (s : State) : State := reply v (cohAnswer p Opc.CNACK reason 0 []) s
/-- CACK of a kind. -/
def cack (v : Via) (p : Packet) (kind : Nat) (s : State) : State := reply v (cohAnswer p Opc.CACK kind 0 []) s
/-- A request fails with a status. -/
def dirFail (v : Via) (p : Packet) (st : BitVec 7) (s : State) : State :=
  reply v (if p.opc == Opc.WBD then cohAnswer p Opc.CACK 2 st []
    else if p.opc == Opc.EVICT then cohAnswer p Opc.CACK 0 st []
    else cohAnswer p Opc.CDATA 0 st []) s
/-- The home end point has been declared lost (R160, R481). -/
def State.homeLost (s : State) (l : BitVec 57) : Bool :=
  let k := nodeSlot (faNode (lineAddr l))
  decide (k < 144) && bitAt (s.rg (R.FT_EPLOST (k / 64))) (k % 64)

/-! ### Serving a request on a stable line (R145, R155, R162, R164) -/

/-- CNACK BUSY; the first requester refused is reserved for (R164). -/
def nackBusy (v : Via) (p : Packet) (r : Option Nat) (s : State) : State :=
  cnack v p 0 (match r with
    | some m => s.mapDent (lineOf p) (fun e => if e.nxv then e else { e with nxt := BitVec.ofNat 4 m, nxv := true })
    | none => s)

/-- A way for a new entry: a free ordinary way, or the victim of an eviction (R145). -/
inductive WayFor where
  | have
  | free (k : Nat)
  | evict (k : Nat)
  | full

def State.wayFor (s : State) (l : BitVec 57) : WayFor :=
  if (s.dirWay l).isSome then .have
  else
    let ks := (List.range 11).map (dirKey l)
    match ks.find? (fun k => !(s.dent k).valid) with
    | some k => .free k
    | none =>
      let idle := ks.filter (fun k => (s.dent k).busy == 0)
      match idle.foldl (fun (b : Option Nat) k => match b with
          | none => some k
          | some j => if (s.dent k).age < (s.dent j).age then some k else some j) none with
      | some k => .evict k
      | none => .full

/-- Start a transaction that snoops, reads home memory, or both. -/
def serveTxn (v : Via) (p : Packet) (cw : Word) (kind : BitVec 4) (snpOpc snpAux : Nat) (snoops : List Nat)
    (mem : Bool) (grant : Nat) (upok : Bool) (s : State) : State :=
  match s.txnStart (lineOf p) kind cw (fun t => { t with
    req := some (v, p), snpOpc := snpOpc, snpAux := snpAux, snoops := snoops, memRead := mem,
    grant := grant, upok := upok }) with
  | none => cnack v p 1 s
  | some (t, s) =>
    let s := sendSnoops t s
    if mem then emit s (.unitSend (memLd s t)) else s

/-- Invalidate an entry's holders and free it; a request may wait for it. -/
def evictEntry (k : Nat) (cw : Word) (kind : BitVec 4) (req : Option (Via × Packet)) (s : State) : Option State :=
  let e := s.dent k
  match s.txnStart e.line kind cw (fun t => { t with
    req := req, after := req.isSome, snpOpc := Opc.SNPINV, snoops := e.holders, free := true }) with
  | none => none
  | some (t, s) => some (sendSnoops t s)

/-- A read, an ownership request or an upgrade whose entry has its place. -/
def serveGet (v : Via) (p : Packet) (cw : Word) (r : Option Nat) (s : State) : State :=
  let l := lineOf p
  let o := p.opc
  let m := r.getD 16
  let e0 := s.dirEntry l
  let isUp := o == Opc.UPGR
  let rdOwn := o == Opc.RDOWN || isUp
  let mo := b2n (s.effMode cw)
  -- an upgrade by a recorded holder
  if isUp ∧ e0.hst = Hst.S ∧ e0.holders.contains m then
    let l' := e0.holders.filter (· != m)
    if l'.isEmpty then cack v p 1 (s.mapDent l (fun e => e.toX m))
    else serveTxn v p cw 2 Opc.SNPINV 0 l' false 3 true s
  else if isUp ∧ e0.hst = Hst.O ∧ e0.holders.contains m then
    let l' := e0.holders.filter (· != m)
    if l'.isEmpty then cack v p 1 (s.mapDent l (fun e => e.toX m))
    else serveTxn v p cw 2 Opc.SNPINV 0 l' false 3 true s
  else if o ≠ Opc.RDNA ∧ !isUp ∧ e0.hst = Hst.O ∧ e0.isOwner m then
    let ev : Ev := { cat := Cat.INTEGRITY, obj := Obj.DIRENT, ctx := p.ctx, arg0 := lineAddr l, arg1 := wd m }
    cack v p 6 (s.event (Rg.dir (dirSlice l)) ev)
  else
    let clear := o ≠ Opc.RDNA ∧ (e0.hst = Hst.S ∨ e0.hst = Hst.X) ∧ e0.holders.contains m
    let e := if clear then e0.drop m else e0
    let s := if clear then s.mapDent l (fun x => x.drop m) else s
    let grant := if rdOwn then 3 else if o == Opc.RDNA then 0 else if e.hst = Hst.I then 2 else 1
    let own := [e.own.toNat]
    if e.hst = Hst.I then serveTxn v p cw 1 0 0 [] true grant false s
    else if e.hst = Hst.S then
      (if rdOwn then serveTxn v p cw 2 Opc.SNPINV 0 e.holders true grant false s
       else serveTxn v p cw 1 0 0 [] true grant false s)
    else if rdOwn then serveTxn v p cw 2 Opc.SNPINV 0 e.holders false grant false s
    else if o = Opc.RDNA then serveTxn v p cw 2 Opc.SNPNA 0 own false grant false s
    else serveTxn v p cw 2 Opc.SNPSH mo own false grant false s

/-- Serve a request on a stable line; its reservation ends with it. A line that the owner of an O line gives up
needs no conversion snoop: the write-back leaves it in S (R162, log entry 33). -/
def serve (v : Via) (p : Packet) (cw : Word) (r : Option Nat) (s : State) : State :=
  let l := lineOf p
  let m := r.getD 16
  let s := s.mapDent l (fun e => { e with age := s.qd.dir.clock, nxv := e.nxv && decide (r ≠ some e.nxt.toNat) })
  let s := s.mapDir (fun d => { d with clock := d.clock + 1, reserved := d.reserved.filter (fun x =>
    decide (x ≠ l) || (s.dirEntry l).nxv) })
  let e := s.dirEntry l
  let eff := s.effMode cw
  if e.valid ∧ e.mode ∧ !eff ∧ e.hst = Hst.O ∧ !(p.opc == Opc.WBD && e.isOwner m) then
    let own := e.own.toNat
    let set := fun (t : DirTxn) => { t with req := some (v, p), after := true, snpOpc := Opc.SNPSH, snpAux := 2,
                                            snoops := [own] }
    match s.txnStart l 5 cw set with
    | none => cnack v p 1 s
    | some (t, s) => sendSnoops t s
  else
    let s := s.mapDent l (fun e => { e with mode := eff })
    if p.opc = Opc.WBD then
      if e.isOwner m then
        let set := fun (t : DirTxn) => { t with wb := 1, giver := m, gone := [m], wbData := p.data,
                                                keep := bitAt (wd p.aux) 0 }
        match s.txnStart l 3 cw set with
        | none => cnack v p 1 s
        | some (t, s) => emit s (.unitSend (memSta s t))
      else cack v p 6 s
    else if p.opc = Opc.EVICT then
      if (e.hst = Hst.X ∧ e.isOwner m) ∨ (e.hst ≠ Hst.X ∧ e.sharers.contains m) then
        cack v p 0 (s.mapDent l (fun e => (e.drop m).settle))
      else cack v p 6 s
    else if p.opc = Opc.RDNA then serveGet v p cw r s
    else
      let fresh : DirEnt := { line := l, valid := true, mode := eff, ham := BitVec.ofNat 4 (Cw.ham cw),
                              age := s.qd.dir.clock }
      match s.wayFor l with
      | .have => serveGet v p cw r s
      | .free k =>
        serveGet v p cw r (s.setDent k fresh)
      | .full => cnack v p 3 s
      | .evict k =>
        match s.cohWin (lineAddr (s.dent k).line) with
        | none => serveGet v p cw r (s.setDent k fresh)
        | some w =>
          if (s.dent k).holders.isEmpty then
            serveGet v p cw r (s.setDent k fresh)
          else match evictEntry k w.2 6 (some (v, p)) s with
            | none => cnack v p 1 s
            | some s => s

/-! ### COH_CMD (R163) -/

/-- Entries of a window that a command has still to act on. -/
def State.cmdLeft (s : State) (i op : Nat) : List (Nat × DirEnt) :=
  let w := s.rg (R.COH_WIN i)
  s.qd.dir.ents.filter (fun x => x.2.valid && (match s.cohWin (lineAddr x.2.line) with
    | some c => c.1 == i
    | none => false) && (op == 2 || x.2.mode != s.effMode w))

/-- Act on every stable entry that the command in progress has still to convert or to flush. -/
def cohWalk (s : State) : State :=
  match s.qd.dir.cmd with
  | none => s
  | some (i, op, _) =>
    if op = 0 then s
    else
      let w := s.rg (R.COH_WIN i)
      (s.cmdLeft i op).foldl (fun s x =>
        let e := s.dent x.1
        if e.busy ≠ 0 then s
        else if op = 2 then
          if e.holders.isEmpty then (s.setDent x.1 default).count F.COH_CMD_STS_COUNT
          else match evictEntry x.1 w 6 none s with
            | none => s
            | some s => s.count F.COH_CMD_STS_COUNT
        else if e.mode ∧ e.hst = Hst.O then
          match s.txnStart e.line 5 w (fun t => { t with snpOpc := Opc.SNPSH, snpAux := 2, snoops := [e.own.toNat] }) with
          | none => s
          | some (t, s) => (sendSnoops t s).count F.COH_CMD_STS_COUNT
        else (s.setDent x.1 { e with mode := s.effMode w }).count F.COH_CMD_STS_COUNT) s

/-- Start a command of COH_CMD. -/
def cohCmd (op : Nat) (v : Word) (ans : BitVec 7 → List Out) (s : State) : State :=
  let i := fget v 0 8
  let mode := bitAt v 10
  if s.flag F.COH_CMD_STS_BUSY then emits (s.refused (Rg.dir 0) R.COH_CMD v) (ans St.PERM)
  else if op = 3 ∨ !(Cw.valid (s.rg (R.COH_WIN i))) then
    emits ((s.setFl F.COH_CMD_STS_STATUS St.DESC.toNat).setFl F.COH_CMD_STS_COUNT 0) (ans St.OK)
  else
    let s := ((s.setFl F.COH_CMD_STS_BUSY 1).setFl F.COH_CMD_STS_STATUS 0).setFl F.COH_CMD_STS_COUNT 0
    let s := if op = 2 then s else s.setFl (F.COH_WIN_MOESI i) (b2n mode)
    emits (cohWalk (s.mapDir (fun d => { d with cmd := some (i, op, mode) }))) (ans St.OK)

/-- SET_MODE. -/
def execSetMode (src : RegSrc) (v : Word) (s : State) : Res := .next (cohCmd 0 v (regAns src) s)
/-- SET_MODE_SWEEP. -/
def execSetModeSweep (src : RegSrc) (v : Word) (s : State) : Res := .next (cohCmd 1 v (regAns src) s)
/-- REMOVE_WINDOW. -/
def execRemoveWindow (src : RegSrc) (v : Word) (s : State) : Res := .next (cohCmd 2 v (regAns src) s)

/-- COH_CMD_DONE: nothing is left to convert or flush; a removed window's VALID is cleared. -/
def execCohCmdDone (s : State) : Res :=
  .next (
    let s := cohWalk s
    match s.qd.dir.cmd with
    | none => s
    | some (i, op, _) =>
      if op ≠ 0 ∧ !(s.cmdLeft i op).isEmpty then s
      else
        let s := (s.mapDir (fun d => { d with cmd := none })).setFl F.COH_CMD_STS_BUSY 0
        if op = 2 then s.setFl (F.COH_WIN_VALID i) 0 else s)

/-! ### Arrival (R147, R159) -/

/-- The checks of R147: the window's word and the requester's member index. A unit of this QD1 is no
member and may read (R161). -/
def dirCheck (s : State) (v : Via) (p : Packet) : Except (BitVec 7) (Nat × Word × Option Nat) :=
  match s.cohWin p.fabric with
  | none => .error St.NOWIN
  | some (i, w) =>
    if p.gen ≠ Cw.gen w then .error St.STALE
    else if p.ctx ≠ Cw.ctx w then .error St.CTX
    else
      let unit := decide (v = .unit) && p.src == s.qdNode && p.opc == Opc.RDNA
      match s.memberOf w p.src with
      | none => if unit && (!(Cw.prot w) || decide (p.kslot = Cw.kslot w)) then .ok (i, w, none) else .error St.PERM
      | some m => if Cw.prot w && decide (p.kslot ≠ Cw.kslot w) then .error St.PERM else .ok (i, w, some m)

/-- An index whose lines this QD1 does not serve: under census, or homed elsewhere (R168, R478). -/
def State.underCensus (s : State) (l : BitVec 57) : Bool :=
  let i := homeIdx (lineAddr l)
  (match s.qd.dir.census with
   | some c => c.mask.getLsbD i
   | none => false) ||
  decide (s.homeOf i ≠ s.qdPlane) || s.qd.dir.late.any (fun x => decide (x.1 = l)) ||
  (!s.qd.dir.noticed.isEmpty && decide (i % 18 = s.qdPlane))

/-- Whether a request is the one that a transaction serves or holds (R159). -/
def DirTxn.same (t : DirTxn) (p : Packet) : Bool :=
  match t.req with
  | some r => decide (r.2.key = p.key)
  | none => false

/-! ### Grants and ends (R155-R158) -/

/-- The stable state that a transaction leaves. -/
def DirTxn.final (t : DirTxn) (mem : Option Nat) (e : DirEnt) : DirEnt :=
  let base := t.gone.foldl (fun e r => e.drop r) e
  let base := if t.keep then (if base.hst = Hst.I then base.toS [t.giver] else { base with
    shr := base.shr ||| (1#16 <<< t.giver) }) else base
  let e' :=
    if t.kind = 5 then
      (if base.hst = Hst.O then { base with hst := Hst.S, own := 0, mode := false } else { base with mode := false })
    else match t.req, mem with
      | some q, some m =>
        if t.after || !t.granted then base
        else if q.2.opc = Opc.RDNA then base
        else if q.2.opc = Opc.RDSH then
          (if base.hst = Hst.I then (if t.grant = 2 then base.toX m else base.toS [m])
           else if base.hst = Hst.S then { base with shr := base.shr ||| (1#16 <<< m) }
           else if base.hst = Hst.X then
             (if t.dirty && bitAt (wd t.snpAux) 0 then base.toO base.own.toNat [m]
              else base.toS (base.holders ++ [m]))
           else { base with shr := base.shr ||| (1#16 <<< m) })
        else base.toX m
      | _, _ => base
  { e' with busy := 0 }

/-- Member index of a transaction's requester. -/
def State.txnMember (s : State) (t : DirTxn) : Option Nat :=
  match t.req with
  | some q => s.memberOf t.cw q.2.src
  | none => none

/-- A transaction ends: the line is stable, and free when its home has gone back to another plane (R478); its
reservation begins to run; a request that waited for it is served. -/
def finishTxn (t : DirTxn) (s : State) : State :=
  let s := s.mapDir (fun d => { d with txns := d.txns.filter (fun x => !(x.slice == t.slice && x.idx == t.idx)) })
  let m := s.txnMember t
  let s := if t.free ∨ s.homePlane t.line ≠ s.qdPlane then s.mapDent t.line (fun _ => default) else s.mapDent t.line (fun e => (t.final m e).settle)
  let s := if (s.dirEntry t.line).nxv then s.mapDir (fun d => { d with reserved := t.line :: d.reserved.filter (· ≠ t.line) })
    else s
  let s := match t.req with
    | some (v, p) =>
      if t.after then
        (match dirCheck s v p with
         | .error st => dirFail v p st s
         | .ok (_, w, r) => if (s.txnOf (lineOf p)).isSome then nackBusy v p r s else serve v p w r s)
      else s
    | none => s
  cohWalk s

/-- Answer a transaction's request as soon as it can be (R155, R156); a grant that no snoop gave data for
reads home memory. -/
def tryGrant (t : DirTxn) (s : State) : DirTxn × State :=
  match t.req with
  | none => (t, s)
  | some (v, p) =>
    if t.after || t.granted || t.failed || !t.snoops.isEmpty then (t, s)
    else if t.upok then ({ t with granted := true }, cack v p 1 s)
    else match t.data with
      | some d => ({ t with granted := true }, reply v (cohAnswer p Opc.CDATA t.grant 0 d) s)
      | none =>
        if t.memRead then (t, s)
        else if s.homeLost t.line then ({ t with failed := true }, dirFail v p St.LOST s)
        else ({ t with memRead := true }, emit s (.unitSend (memLd s t)))

/-- A transaction has advanced. -/
def advance (t : DirTxn) (s : State) : State :=
  let r := tryGrant t s
  let t := r.1
  if t.snoops.isEmpty && t.acks.isEmpty && !t.memRead && t.wb == 0 &&
      (t.req.isNone || t.after || t.granted || t.failed) then finishTxn t r.2
  else r.2.putTxn t

/-- A giver's dirty data is written back (R157). -/
def startWb (t : DirTxn) (r : Nat) (d : List Byte) (s : State) : DirTxn × State :=
  let t := { t with wb := 1, giver := r, wbData := d, memTries := 0, memE2e := 0 }
  (t, emit s (.unitSend (memSta s t)))

/-- A coherence request reaches the directory. -/
def dirRequest (opc : Nat) (v : Via) (p : Packet) (s : State) : State :=
  if v.isSv || p.rsp || p.opc ≠ opc || s.fenced || (p.opc == Opc.RDNA && bitAt (wd p.aux) 0) then s
  else match rxForm [p] with
  | some st => dirFail v p st (if st = St.DESC then s else pktEvent v st p s)
  | none => match dirCheck s v p with
  | .error st => dirFail v p st s
  | .ok (i, w, r) =>
    let l := lineOf p
    let m := r.getD 16
    if s.underCensus l then cnack v p 2 s
    else if (match s.qd.dir.cmd with
      | some c => c.1 == i && c.2.1 == 2
      | none => false) && (s.txnOf l).isNone then nackBusy v p r s
    else match s.txnOf l with
    | some t =>
      if t.same p then s
      else if p.opc = Opc.WBD ∧ t.snoops.contains m then
        let t := { t with snoops := t.snoops.filter (· != m), acks := t.acks ++ [m], gone := t.gone ++ [m],
                          data := some p.data, dirty := true }
        let x := startWb t m p.data s
        advance x.1 x.2
      else if p.opc = Opc.EVICT ∧ t.snoops.contains m then
        advance { t with snoops := t.snoops.filter (· != m), acks := t.acks ++ [m], gone := t.gone ++ [m] }
          (cack v p 0 s)
      else nackBusy v p r s
    | none =>
      let e := s.dirEntry l
      if e.busy = 7 then
        if p.opc = Opc.WBD ∧ e.own.toNat = m then
          match s.txnStart l 7 w (fun t => { t with wb := 1, giver := m, wbData := p.data, keep := bitAt (wd p.aux) 0 }) with
          | none => cnack v p 1 s
          | some (t, s) => emit s (.unitSend (memSta s t))
        else if p.opc = Opc.WBD ∨ p.opc = Opc.EVICT then nackBusy v p r s
        else cnack v p 2 s
      else if s.awaits l then
        (if s.qd.dir.txns.any (fun t => t.same p) then s else nackBusy v p r s)
      else if e.nxv ∧ s.qd.dir.reserved.contains l ∧ r ≠ some e.nxt.toNat ∧ p.opc ≠ Opc.WBD ∧ p.opc ≠ Opc.EVICT then
        cnack v p 4 s
      else if s.homeLost l ∧ e.hst = Hst.I ∧ p.opc ≠ Opc.WBD ∧ p.opc ≠ Opc.EVICT then dirFail v p St.LOST s
      else serve v p w r s

/-- RDSH. -/
def execRdsh (v : Via) (p : Packet) (s : State) : Res := .next (dirRequest Opc.RDSH v p s)
/-- RDOWN. -/
def execRdown (v : Via) (p : Packet) (s : State) : Res := .next (dirRequest Opc.RDOWN v p s)
/-- RDNA. -/
def execRdna (v : Via) (p : Packet) (s : State) : Res := .next (dirRequest Opc.RDNA v p s)
/-- UPGR. -/
def execUpgr (v : Via) (p : Packet) (s : State) : Res := .next (dirRequest Opc.UPGR v p s)
/-- WBD. -/
def execWbd (v : Via) (p : Packet) (s : State) : Res := .next (dirRequest Opc.WBD v p s)
/-- EVICT. -/
def execEvict (v : Via) (p : Packet) (s : State) : Res := .next (dirRequest Opc.EVICT v p s)

/-! ### Answers to the directory (R146, R157, R165) -/

/-- The transaction that a coherence response answers. -/
def State.txnFor (s : State) (p : Packet) : Option DirTxn :=
  s.qd.dir.txns.find? (fun t => 544 + t.slice == p.que.toNat && t.idx == p.tag.toNat && decide (t.tseq = p.tseq))

/-- The dirty data of an answer is a write-back (R157). -/
def DirTxn.givesUp (t : DirTxn) : Bool :=
  t.snpOpc == Opc.SNPINV || (t.snpOpc == Opc.SNPSH && (t.snpAux == 0 || bitAt (wd t.snpAux) 1))

/-- A snoop is answered with data. -/
def dirCdata (p : Packet) (s : State) : State :=
  match s.txnFor p with
  | none => s
  | some t =>
    match s.memberOf t.cw p.src with
    | none => s
    | some m =>
      if t.acks.contains m then advance { t with acks := t.acks.filter (· != m) } s
      else if !(t.snoops.contains m) then s
      else if p.status ≠ 0 then advance { t with snoops := t.snoops.filter (· != m) } s
      else if !p.e2eOk then
        (if t.resends < s.fl F.QD_TXN_TMO_E2E_MAX then
          (emit s (.unitSend (snoopPacket s t m).resent)).putTxn { t with resends := t.resends + 1 }
         else advance { t with snoops := t.snoops.filter (· != m) } s)
      else
        let d := bitAt (wd p.aux) 3
        let t := { t with snoops := t.snoops.filter (· != m), data := some p.data, dirty := t.dirty || d,
                          gone := if t.snpOpc = Opc.SNPINV then t.gone ++ [m] else t.gone }
        if d && t.givesUp then
          let x := startWb t m p.data s
          advance x.1 x.2
        else advance t s

/-- SNPACK or WBDONE reaches the directory. -/
def dirCack (p : Packet) (s : State) : State :=
  match s.txnFor p with
  | none => s
  | some t =>
    match s.memberOf t.cw p.src with
    | none => s
    | some m =>
      if p.aux % 16 = 3 then
        (if t.wb = 2 ∧ t.giver = m then advance { t with wb := 0 } s else s)
      else if p.aux % 16 = 4 then
        (if t.acks.contains m then advance { t with acks := t.acks.filter (· != m) } s
         else if t.snoops.contains m then
          advance { t with snoops := t.snoops.filter (· != m),
                           gone := if p.aux / 16 % 8 = 0 ∨ p.aux / 16 % 8 = 5 ∨ t.snpOpc = Opc.SNPINV then t.gone ++ [m] else t.gone } s
         else s)
      else s

/-- Home memory answers a directory slice: the line that it fills, or the end of a write-back (R157, R159). -/
def dirMemReply (sl tag : Nat) (st : BitVec 7) (d : List Byte) (s : State) : State :=
  match s.qd.dir.txns.find? (fun t => t.slice == sl && t.idx == tag) with
  | none => s
  | some t =>
    let ok := decide (st = St.OK) || decide (st = St.OK_DUP)
    if !t.memRead ∧ t.wb ≠ 1 then s
    else if (st = St.COMPL ∨ st = St.CHECK) ∧ t.memE2e < s.fl F.QD_TXN_TMO_E2E_MAX then
      (emit s (.unitSend (if t.memRead then memLd s t else memSta s t).resent)).putTxn
        { t with memE2e := t.memE2e + 1 }
    else if t.memRead then
      if ok then advance { t with memRead := false, data := some (t.data.getD (slice d 0 128)) } s
      else
        let s := match t.req with
          | some (v, p) => if t.granted || t.after then s else dirFail v p st s
          | none => s
        advance { t with memRead := false, failed := true } s
    else
      let s := if ok then s else lwbRecord t.line (s.dirEntry t.line) ((s.hamlet (Cw.ham t.cw)).getD t.giver 0xFF) 3 s
      let t := { t with wb := 2, wbStatus := if ok then 0 else st, resends := 0 }
      (emit s (.unitSend (wbok s t))).putTxn t

/-- DIRECTORY_MEMORY_REPLY. -/
def execDirectoryMemoryReply (o : MemReply) (s : State) : Res :=
  .next (dirMemReply o.slice.val o.tag.toNat o.status o.data s)

/-- The reply timer of a directory access to home memory expires (R76, R157). -/
def dirMemTimeout (sl tag : Nat) (s : State) : State :=
  match s.qd.dir.txns.find? (fun t => t.slice == sl && t.idx == tag) with
  | none => s
  | some t =>
    if !t.memRead ∧ t.wb ≠ 1 then s
    else if t.memTries < s.fl F.QD_TXN_TMO_RTY_MAX then
      (emit s (.unitSend (if t.memRead then memLd s t else memSta s t).resent)).putTxn
        { t with memTries := t.memTries + 1 }
    else if t.memRead then
      let s := match t.req with
        | some (v, p) => if t.granted || t.after then s else dirFail v p St.LOST s
        | none => s
      advance { t with memRead := false, failed := true } s
    else
      let s := lwbRecord t.line (s.dirEntry t.line) ((s.hamlet (Cw.ham t.cw)).getD t.giver 0xFF) 3 s
      let t := { t with wb := 2, wbStatus := St.LOST, resends := 0 }
      (emit s (.unitSend (wbok s t))).putTxn t

/-! ### A member that vanishes (R165, R166) -/

/-- A member awaited by a transaction is lost for its line. -/
def lostInTxn (t : DirTxn) (m reason : Nat) (s : State) : State :=
  let slot := (s.hamlet (Cw.ham t.cw)).getD m 0xFF
  if s.txnMember t = some m ∧ !t.after then
    -- the requester: the transaction is dropped; what it had started runs out
    advance { t with req := none, data := none, upok := false } s
  else if t.wb ≠ 0 ∧ t.giver = m then
    advance { t with wb := 0, gone := t.gone ++ [m], acks := t.acks.filter (· != m), keep := false } s
  else if t.snoops.contains m then
    let s := if (s.dirEntry t.line).isOwner m then lwbRecord t.line (s.dirEntry t.line) slot reason s else s
    advance { t with snoops := t.snoops.filter (· != m), gone := t.gone ++ [m] } s
  else if t.acks.contains m then advance { t with acks := t.acks.filter (· != m) } s
  else s.putTxn { t with gone := t.gone ++ [m] }

/-- Snoops whose answers are discarded: no transaction awaits them (R166). -/
def looseInv (l : BitVec 57) (cw : Word) (ms : List Nat) (s : State) : State :=
  match s.txnStart l 0 cw (fun t => { t with snpOpc := Opc.SNPINV, snoops := ms }) with
  | none => s
  | some (t, s) =>
    (sendSnoops t s).mapDir (fun d => { d with txns := d.txns.filter (fun x => !(x.slice == t.slice && x.idx == t.idx)) })

/-- A member named by a stable entry is lost. -/
def lostInEntry (k m reason : Nat) (s : State) : State :=
  let e := s.dent k
  if e.hst = Hst.I ∧ e.busy ≠ 7 then s
  else
    match s.cohWin (lineAddr e.line) with
    | none => s
    | some w =>
      let slot := (s.hamlet (Cw.ham w.2)).getD m 0xFF
      if e.busy = 7 ∧ e.own.toNat = m then s.setDent k ({ e with busy := 0, own := 0 }.settle)
      else if e.isOwner m then
        let s := lwbRecord e.line e slot reason s
        let s := if e.sharers.isEmpty then s else looseInv e.line w.2 e.sharers s
        s.setDent k (e.toI.settle)
      else if e.holders.contains m then s.setDent k ((e.drop m).settle)
      else s

/-- Every window of a lost home end point raises one event; holders of its lines are invalidated and the
requests that wait fail. -/
def lostHome (slot : Nat) (s : State) : State :=
  let node := mkNode s.qdRack slot
  let s := s.qd.dir.txns.foldl (fun s t =>
    if faNode (lineAddr t.line) ≠ node then s
    else
      let s := match t.req with
        | some (v, p) => if t.granted || t.failed then s else dirFail v p St.LOST s
        | none => s
      ((looseInv t.line t.cw (t.snoops ++ (s.dirEntry t.line).holders).eraseDups s).mapDir (fun d => { d with
        txns := d.txns.filter (fun x => !(x.slice == t.slice && x.idx == t.idx)) })).mapDent t.line (fun _ => default)) s
  let s := s.qd.dir.ents.foldl (fun s x =>
    if faNode (lineAddr x.2.line) ≠ node then s
    else match s.cohWin (lineAddr x.2.line) with
      | none => s.setDent x.1 default
      | some w => (looseInv x.2.line w.2 x.2.holders s).setDent x.1 default) s
  (List.range 256).foldl (fun s i =>
    let w := s.rg (R.COH_WIN i)
    if Cw.valid w && Cw.slot w == slot then
      s.event (Rg.dir 0) { cat := Cat.FAULT, obj := Obj.EP, ctx := Cw.ctx w, status := St.LOST, arg0 := wd slot,
                           arg1 := wd (Cw.win w) }
    else s) s

/-- The directory acts on a lost end point within every entry that names it. -/
def memberLost (slot : Nat) (s : State) : State :=
  let s := lostHome slot s
  (List.range 9).foldl (fun s h =>
    match (s.hamlet h).findIdx? (fun x => x == slot) with
    | none => s
    | some m =>
      let s := (s.qd.dir.txns.filter (fun t => Cw.ham t.cw == h)).foldl (fun s t =>
        match s.txnOf t.line with
        | some t => lostInTxn t m 1 s
        | none => s) s
      (s.qd.dir.ents.filter (fun x => x.2.ham.toNat == h && (s.txnOf x.2.line).isNone)).foldl (fun s x =>
        lostInEntry x.1 m 1 s) s) s

/-- A snoop or a WBOK times out: resent up to RTY_MAX times, then its target is lost for the line with
reason 2 (R165). -/
def dirTimeout (que tag : Nat) (s : State) : State :=
  match s.qd.dir.txns.find? (fun t => 544 + t.slice == que && t.idx == tag) with
  | none => s
  | some t =>
    let out := t.snoops ++ t.acks
    if out.isEmpty ∧ t.wb ≠ 2 then s
    else if t.resends < s.fl F.QD_TXN_TMO_RTY_MAX then
      let s := emits s (out.map (fun r => .unitSend (snoopPacket s t r).resent))
      let s := if t.wb = 2 then emit s (.unitSend (wbok s t).resent) else s
      s.putTxn { t with resends := t.resends + 1 }
    else
      (out ++ (if t.wb = 2 then [t.giver] else [])).foldl (fun s m =>
        match s.txnOf t.line with
        | some t => lostInTxn t m 2 s
        | none => s) s

/-- RESERVATION_EXPIRE. -/
def execReservationExpire (line : BitVec 57) (s : State) : Res :=
  .next (
    if s.qd.dir.reserved.contains line ∧ (s.txnOf line).isNone then
      (s.mapDir (fun d => { d with reserved := d.reserved.filter (· ≠ line) })).mapDent line (fun e =>
        { e with nxv := false, nxt := 0 }.settle)
    else s)

/-- DIRECTORY_SCRUB: a corrected entry keeps its content; an uncorrectable one loses its line for every
holder it names (R144, R484). The address is that of the entry in the directory's memory. -/
def execDirectoryScrub (f : EccFinding) (s : State) : Res :=
  .next (
    let k := f.addr / 16
    let sl := k / (12 * 8192)
    if 16 ≤ sl then s
    else
      let s := s.event (Rg.dir sl) { cat := Cat.INTEGRITY, obj := Obj.DIRENT, arg0 := wd f.addr, arg1 := f.found }
      let s := s.score 6 sl (if f.correctable then 1 else 512)
      if f.correctable then s
      else
        let e := s.dent k
        if !e.valid then s
        else match s.txnOf e.line with
          | some _ => e.holders.foldl (fun s m => match s.txnOf e.line with
              | some t => lostInTxn t m 1 s
              | none => lostInEntry k m 1 s) s
          | none => e.holders.foldl (fun s m => lostInEntry k m 1 s) s)

/-! ### Census (R168-R170) -/

/-- Slots of every member of every valid hamlet, with their member indices. -/
def State.members (s : State) : List (Nat × Nat) :=
  (List.range 9).flatMap (fun h => (s.hamlet h).mapIdx (fun i x => (x, i)))

/-- The census snoop to a member. -/
def censusSnoop (s : State) (c : Census) (x : Nat × Nat) : Packet :=
  Hdr.packet { dst := mkNode s.qdRack x.1, ctx := 0, opc := Opc.SNPCEN, src := s.qdNode, cls := 1, que := 560,
               tag := x.2, len := 18, tseq := s.qd.dir.censusCount, aux := c.lost } none none
    (bytesOf 18 c.mask.toNat)

/-- Build the entry of a reported line: member index and state code of each report (R170). -/
def buildLine (l : BitVec 57) (rs : List (Nat × Nat)) (s : State) : State :=
  match s.cohWin (lineAddr l) with
  | none => s
  | some (_, w) =>
    let way := (((List.range 12).map (dirKey l)).find? (fun k => !(s.dent k).valid))
    match way with
    | none =>
      let s := s.mapDir (fun d => { d with late := d.late.filter (fun x => decide (x.1 ≠ l)) ++ [(l, rs)] })
      match s.wayFor l with
      | .evict k => (match s.cohWin (lineAddr (s.dent k).line) with
          | some v => (evictEntry k v.2 6 none s).getD s
          | none => s)
      | _ => s
    | some k =>
      let with_ := fun (cs : List Nat) => (rs.filter (fun r => cs.contains r.2)).map (·.1)
      let ex := with_ [2, 3]
      let ow := with_ [4]
      let owners := (List.range 16).filter (fun i => ex.contains i || ow.contains i)
      let sh := with_ [1]
      let wi := (rs.filter (fun r => r.2 == 5 || r.2 == 6)).head?
      let e : DirEnt := { line := l, valid := true, mode := s.effMode w || !ow.isEmpty,
                          ham := BitVec.ofNat 4 (Cw.ham w), age := s.qd.dir.clock }
      match owners with
      | o :: rest =>
        let s := s.setDent k (if ex.contains o then e.toX o else e.toO o sh)
        rest.foldl (fun s m =>
          looseInv l w [m] (lwbRecord l (s.dirEntry l) ((s.hamlet (Cw.ham w)).getD m 0xFF) 4 s)) s
      | [] =>
        match wi with
        | some g => s.setDent k { (e.toS sh) with busy := 7, own := BitVec.ofNat 4 g.1 }
        | none => if sh.isEmpty then s else s.setDent k (e.toS sh)

/-- Every member has reported or been passed over: the entries are built. -/
def censusEnd (s : State) : State :=
  match s.qd.dir.census with
  | none => s
  | some c =>
    if !c.waiting.isEmpty then s
    else
      let s := s.mapDir (fun d => { d with census := none, noticed := [] })
      let lines := (c.reports.map (fun r => (r.2.setWidth 57 : BitVec 57))).eraseDups
      lines.foldl (fun s l =>
        match s.cohWin (lineAddr l) with
        | none => s
        | some (_, w) =>
          let rs := (c.reports.filter (fun r => decide ((r.2.setWidth 57 : BitVec 57) = l))).filterMap (fun r =>
            ((s.hamlet (Cw.ham w)).findIdx? (fun x => x == r.1)).map (fun m => (m, fget r.2 57 3)))
          buildLine l rs s) s

/-- Start a census for indices that have moved to this plane. A census that runs starts anew with both sets
of indices. -/
def startCensus (lost : Nat) (mask : BitVec 144) (s : State) : State :=
  if mask = 0 then s
  else
    let old := match s.qd.dir.census with
      | some c => c.mask
      | none => 0
    let c : Census := { lost := lost, mask := mask ||| old, waiting := s.members.map (·.1) }
    let s := s.mapDir (fun d => { d with census := some c, censusCount := d.censusCount + 1 })
    censusEnd (emits s (s.members.map (fun x => .unitSend (censusSnoop s c x))))

/-- A census report (R169). -/
def censusReport (p : Packet) (s : State) : State :=
  match s.qd.dir.census with
  | none => s
  | some c =>
    let slot := nodeSlot p.src
    if p.tseq ≠ s.qd.dir.censusCount ∨ nodeRack p.src ≠ s.qdRack ∨ !(c.waiting.contains slot) then s
    else
      let rs := (wordsOf (p.data.length / 8) p.data).map (fun w => (slot, w))
      let c := { c with reports := c.reports ++ rs,
                        waiting := if bitAt (wd p.aux) 7 then c.waiting.filter (· != slot) else c.waiting }
      censusEnd (s.mapDir (fun d => { d with census := some c }))

/-- CENSUS_TIMEOUT: a member that has not sent LAST is taken to hold nothing, and an event is raised. -/
def execCensusTimeout (slot : Fin 144) (s : State) : Res :=
  .next (
    match s.qd.dir.census with
    | none => s
    | some c =>
      if !(c.waiting.contains slot.val) then s
      else
        let s := s.event (Rg.dir 0) { cat := Cat.TIMEOUT, obj := Obj.EP, arg0 := wd slot.val,
                                      arg1 := wd (s.fl F.DIR_CTL_CEN_TMO * 1000) }
        let c := { c with waiting := c.waiting.filter (· != slot.val),
                          reports := c.reports.filter (fun r => r.1 != slot.val) }
        censusEnd (s.mapDir (fun d => { d with census := some c })))

/-- WAY11_MIGRATE: entries of way 11 move to free ordinary ways, and lines still waiting for a way are
built (R163, R170). -/
def execWay11Migrate (s : State) : Res :=
  .next (
    let s := if s.flag F.DIR_CTL_RWMIG then
        (s.qd.dir.ents.filter (fun x => x.1 % 12 == 11 && x.2.valid)).foldl (fun s x =>
          match ((List.range 11).map (fun i => x.1 / 12 * 12 + i)).find? (fun k => !(s.dent k).valid) with
          | some k => (s.setDent k x.2).setDent x.1 default
          | none => s) s
      else s
    s.qd.dir.late.foldl (fun s x =>
      buildLine x.1 x.2 (s.mapDir (fun d => { d with late := d.late.filter (fun y => decide (y.1 ≠ x.1)) }))) s)

/-! ### Planes that leave and enter LIVE (R38, R168, R477, R478) -/

/-- HOME_MAP follows R38 for a plane lost: the indices that come to this plane. -/
def homeLeave (d : Nat) (s : State) : BitVec 144 × State :=
  let l := rewriteMap s.homeOf (fun p => bitAt (s.rg R.FT_LIVE) p) d
  let mine := (List.range 144).filter (fun i => decide (s.homeOf i = d) && decide (l.getD i 0 = s.qdPlane))
  (mine.foldl (fun m i => m ||| (1#144 <<< i)) 0,
   s.mapDir (fun x => { x with home := (List.range 144).foldl (fun t i => Tbl.set (fun i => i % 18) t i (l.getD i 0)) [] }))

/-- The indices of a plane that comes back return to it; this QD1 frees their stable entries (R478). -/
def homeReturn (d : Nat) (s : State) : State :=
  let s := s.mapDir (fun x => { x with home := (List.range 144).foldl (fun t i =>
    if i % 18 = d then Tbl.set (fun i => i % 18) t i d else t) x.home })
  if d = s.qdPlane then s
  else s.mapDir (fun x => { x with ents := x.ents.filter (fun e =>
    decide (homeIdx (lineAddr e.2.line) % 18 ≠ d) || e.2.busy != 0) })

end Sys2Proof.Machine
end

