-- ==== Sys2Proof/Machine/Agent.lean ====
section
/-! DEFINITION. The coherence agent of a Svapo block (R131, R150-R153, R165, R169, R382-R385) and the
relay of RdNoAlloc. -/

namespace Sys2Proof.Machine

/-! ### Lines -/

def State.agLine (s : State) (l : BitVec 57) : AgLine := Tbl.at s.sv.lines l.toNat
def State.mapAg (s : State) (l : BitVec 57) (f : AgLine → AgLine) : State :=
  s.mapSv (fun v => { v with lines := Tbl.mod v.lines l.toNat (fun x =>
    let y := f x
    if y.st = .i then default else y) })
/-- Set of a line in the agent's cache (R382). -/
def agSet (l : BitVec 57) : Nat :=
  let a := lineAddr l
  (fget a 7 11) ^^^ (fget a 18 11)
/-- Lines held in a set. -/
def State.agInSet (s : State) (k : Nat) : List (Nat × AgLine) :=
  s.sv.lines.filter (fun x => agSet (BitVec.ofNat 57 x.1) == k)
def AgState.stable : AgState → Bool
  | .i => true
  | .s => true
  | .e => true
  | .m => true
  | .o => true
  | _ => false
/-- A load is a hit (R151). -/
def AgState.loadHit : AgState → Bool
  | .s => true
  | .e => true
  | .m => true
  | .o => true
  | .sm => true
  | .om => true
  | .ws => true
  | _ => false
/-- A store or atomic is a hit. -/
def AgState.storeHit : AgState → Bool
  | .e => true
  | .m => true
  | _ => false
/-- A write-back is pending. -/
def AgState.pendingWb : AgState → Bool
  | .wi => true
  | .ws => true
  | .wim => true
  | _ => false
/-- State code of a snoop acknowledgement (R149, R151). -/
def AgState.ackCode : AgState → Nat
  | .s => 1
  | .sm => 1
  | .e => 2
  | .m => 3
  | .o => 4
  | .om => 4
  | .wi => 5
  | .wim => 5
  | .ws => 6
  | _ => 0

/-! ### Requests of the agent -/

/-- Outstanding requests for a line. -/
def State.agReqs (s : State) (l : BitVec 57) : List OutReq :=
  s.sv.srcs.reqs.filter (fun o => match o.purpose with
    | .agent x => decide (x = l)
    | _ => false)

/-- The packet of a request for a line. -/
def agPacket (s : State) (l : BitVec 57) (x : AgLine) (opc tag : Nat) (tseq : Byte) (aux : Nat) : Packet :=
  let d := if opc = Opc.WBD then slice x.data 0 128 else []
  Hdr.packet { dst := faNode (lineAddr l), ctx := x.ctx, opc := opc, kslot := x.kslot, src := s.svNode, cls := 1,
               gen := x.gen, que := 32, woff := (faWoff (lineAddr l)).toNat, tag := tag, len := d.length, tseq := tseq,
               aux := aux } none none d

/-- Send a request for a line to its home plane; none when no tag is free or until the home plane has been in
LIVE. -/
def agSend (l : BitVec 57) (x : AgLine) (opc aux : Nat) (s : State) : Option State :=
  let pl := s.homeMap (homeIdx (lineAddr l))
  if 256 ≤ (s.outOf 32).length ∨ !(s.svLive pl) then none
  else match s.freeTag 32 with
  | none => none
  | some (tag, s) =>
    let u := useTag .sv 32 tag s
    let p := agPacket s l x opc tag u.1 aux
    some (svTx pl p (u.2.mapSrcs .sv (fun y => { y with reqs := y.reqs ++
      [{ que := 32, tag := tag, tseq := u.1, parts := [{ pkts := [p], plane := pl }], purpose := .agent l }] })))

/-- Replace a stable line: EVICT for S and E, WBD for M and O (R151). -/
def agReplace (l : BitVec 57) (s : State) : State :=
  let x := s.agLine l
  match x.st with
  | .s => match agSend l x Opc.EVICT 0 s with
    | some s => s.mapAg l (fun x => { x with st := .ci })
    | none => s
  | .e => match agSend l x Opc.EVICT 0 s with
    | some s => s.mapAg l (fun x => { x with st := .ci })
    | none => s
  | .m => match agSend l x Opc.WBD 0 s with
    | some s => s.mapAg l (fun x => { x with st := .wi })
    | none => s
  | .o => match agSend l x Opc.WBD 0 s with
    | some s => s.mapAg l (fun x => { x with st := .wi })
    | none => s
  | _ => s

/-! ### Accesses (R131, R151, R383) -/

/-- Bytes that an access touches. -/
def rqoTouch (r : Rqo) : Nat := if r.opc.toNat == Opc.CAS then r.len.toNat / 2 else r.len.toNat
/-- Lines of an access. -/
def accLines (r : Rqo) (fa : Word) : List (BitVec 57) :=
  let a := fa.toNat
  (List.range ((a + max 1 (rqoTouch r) - 1) / 128 - a / 128 + 1)).map (fun i => BitVec.ofNat 57 (a / 128 + i))
/-- Stores and atomics need the line in M. -/
def accWrites (r : Rqo) : Bool := r.opc.toNat != Opc.LD
/-- The access of an outstanding request. -/
def OutReq.acc (o : OutReq) : Option (Rqo × Word) :=
  match o.purpose with
  | .access r fa => some (r, fa)
  | _ => none

/-- An earlier access of the queue goes first: writes keep their order among themselves and behind earlier
loads of the same bytes, and a load waits for an earlier write of the same bytes (R119-R121, R131). -/
def accBlocked (s : State) (o : OutReq) (r : Rqo) (fa : Word) : Bool :=
  let earlier := s.sv.srcs.reqs.takeWhile (fun x => !(x.que == o.que && x.tag == o.tag && x.tseq == o.tseq))
  (earlier.filter (fun x => x.que == o.que)).any (fun x => match x.acc with
    | none => false
    | some (q, fb) =>
      let meet := overlap 1 fa.toNat (rqoTouch r) fb.toNat (rqoTouch q)
      if accWrites r then accWrites q || meet else accWrites q && meet)

/-- Generation, key slot and key of the aperture of an access. -/
def accKey (s : State) (r : Rqo) : Byte × BitVec 6 :=
  match s.apMatch r.addr.toNat with
  | none => (0, 0)
  | some i =>
    let w := s.apW3 i
    (BitVec.ofNat 8 (fget w 16 8), if bitAt w 30 then BitVec.ofNat 6 (fget w 24 6) else 0)

/-- An access ends: an RSO completion, or the sticky error of a posted one. -/
def accDone (o : OutReq) (r : Rqo) (st : BitVec 7) (data : List Byte) (s : State) : State :=
  let s := (endAcquire o.que o.tag (s.setReqOf .sv o none)).mapSv (fun v => { v with
    accs := v.accs.filter (fun a => !(a.1 == o.que && a.2 == o.tag)) })
  let s := if opcIsPosted r.opc.toNat then (if st = 0 then s else setSticky o.que st 0 s)
    else rso r st 0 data s
  pumpQ o.que s

/-- New bytes of an access over the old bytes of its lines, and the data returned. -/
def accApply (r : Rqo) (off : Nat) (buf : List Byte) : List Byte × List Byte :=
  let o := r.opc.toNat
  let n := rqoTouch r
  let old := slice buf off n
  if o = Opc.LD then (buf, old)
  else if o = Opc.ST ∨ o = Opc.STA then (patch buf off r.data, [])
  else if o = Opc.STM ∨ o = Opc.STMA then
    (patch buf off ((List.range 64).map (fun i =>
      if bitAt r.be i then r.data.getD i 0 else old.getD i 0)), [])
  else (patch buf off (opBytes o r.aux.toNat old r.data), if atomReturns o r.aux.toNat then old else [])

/-- Perform an access whose lines are all held as it needs. -/
def accPerform (o : OutReq) (r : Rqo) (fa : Word) (s : State) : State :=
  let ls := accLines r fa
  let k := accKey s r
  let key := s.svKey k.2
  let first := wd (fa.toNat / 128 * 128)
  let crypt := fun (dec : Bool) (d : List Byte) =>
    if k.2 = 0 then d else xtsData dec key k.1 (fun i => first + wd (64 * i)) d
  let buf := crypt true (ls.flatMap (fun l => slice (s.agLine l).data 0 128))
  let res := accApply r (fa.toNat % 128) buf
  let s := s.mapSv (fun v => { v with agClock := v.agClock + 1 })
  let s := if accWrites r then
      let out := crypt false res.1
      (ls.mapIdx (fun i l => (i, l))).foldl (fun s x => s.mapAg x.2 (fun y => { y with
        st := .m, data := slice out (128 * x.1) 128, age := s.sv.agClock })) s
    else ls.foldl (fun s l => s.mapAg l (fun y => { y with age := s.sv.agClock })) s
  accDone o r St.OK res.2 s

/-- Ask for what an access misses: RDSH or RDOWN for a line not held, UPGR for one held in S or O. A line
not held needs a free way of its set. While the agent is being flushed it asks for nothing. -/
def accMiss (r : Rqo) (q : Nat) (l : BitVec 57) (s : State) : State :=
  let x := s.agLine l
  let k := accKey s r
  if s.sv.flushing then s
  else match x.st with
  | .i =>
    if 16 ≤ (s.agInSet (agSet l)).length then s
    else
      let x : AgLine := { st := if accWrites r then .im else .is, ctx := s.qctx q, gen := k.1, kslot := k.2,
                          age := s.sv.agClock }
      match agSend l x (if accWrites r then Opc.RDOWN else Opc.RDSH) 0 s with
      | some s => s.mapAg l (fun _ => x)
      | none => s
  | .s => if accWrites r then (match agSend l x Opc.UPGR 0 s with
      | some s => s.mapAg l (fun x => { x with st := .sm })
      | none => s) else s
  | .o => if accWrites r then (match agSend l x Opc.UPGR 0 s with
      | some s => s.mapAg l (fun x => { x with st := .om })
      | none => s) else s
  | _ => s

/-- Treat an access that has reached the agent. -/
def accTry (q tag : Nat) (s : State) : State :=
  match s.sv.srcs.reqs.find? (fun o => o.que == q && o.tag == tag) with
  | none => s
  | some o =>
    match o.acc with
    | none => s
    | some (r, fa) =>
      if accBlocked s o r fa then s
      else
        let ls := accLines r fa
        let hit := fun (l : BitVec 57) =>
          if accWrites r then (s.agLine l).st.storeHit else (s.agLine l).st.loadHit
        if ls.all hit then accPerform o r fa s
        else ls.foldl (fun s l =>
          if (if accWrites r then (s.agLine l).st.storeHit else (s.agLine l).st.loadHit) then s
          else accMiss r q l s) s

/-- Go on with a FLUSH: every stable line leaves; it ends when none is held (R384). -/
def flushStep (s : State) : State :=
  if !s.sv.flushing then s
  else if s.sv.lines.isEmpty then
    (s.mapSv (fun v => { v with flushing := false })).setSrf SR.SV_CA_CTL 8 1 0
  else s.sv.lines.foldl (fun s x => agReplace (BitVec.ofNat 57 x.1) s) s

/-- Write-backs that a census has announced and that waited for a tag go to the new home (R68, R169). -/
def owedWbs (s : State) : State :=
  (s.sv.lines.filter (fun x => x.2.owes)).foldl (fun s x =>
    let l : BitVec 57 := BitVec.ofNat 57 x.1
    let paid := fun (s : State) => s.mapAg l (fun y => { y with owes := false })
    if !x.2.st.pendingWb then paid s
    else match agSend l x.2 Opc.WBD (b2n (decide (x.2.st = .ws))) s with
      | some s => paid s
      | none => s) s

/-- Treat every waiting access again, in order of arrival. -/
def agPump (s : State) : State :=
  let s := flushStep (owedWbs s)
  s.sv.accs.foldl (fun s a => accTry a.1 a.2 s) s

/-- An access reaches the agent; one that waits there is treated again (R150). -/
def accArrive (write : Bool) (q tag : Nat) (s : State) : State :=
  match s.sv.srcs.reqs.find? (fun o => o.que == q && o.tag == tag) with
  | none => s
  | some o =>
    match o.acc with
    | none => s
    | some (r, _) =>
      if accWrites r != write then s
      else if s.sv.accs.contains (q, tag) then accTry q tag s
      else accTry q tag (s.mapSv (fun v => { v with accs := v.accs ++ [(q, tag)] }))

/-- AGENT_LOAD. -/
def execAgentLoad (q : Fin 32) (tag : BitVec 9) (s : State) : Res := .next (accArrive false q.val tag.toNat s)
/-- AGENT_STORE. -/
def execAgentStore (q : Fin 32) (tag : BitVec 9) (s : State) : Res := .next (accArrive true q.val tag.toNat s)

/-- An access that waits at the agent needs a way of a set. -/
def State.agNeeds (s : State) (k : Nat) : Bool :=
  s.sv.accs.any (fun a => match (s.sv.srcs.reqs.find? (fun o => o.que == a.1 && o.tag == a.2)).bind OutReq.acc with
    | some (r, fa) => (accLines r fa).any (fun l => agSet l == k && decide ((s.agLine l).st = .i))
    | none => false)

/-- AGENT_REPLACE: the least recently used stable line of a full set leaves (R382). While maps are being
restored, only for an access that is outstanding (R477, log entry 72). -/
def execAgentReplace (line : BitVec 57) (s : State) : Res :=
  .next (
    let set := s.agInSet (agSet line)
    let x := s.agLine line
    if x.st = .i ∨ !x.st.stable ∨ set.length < 16 ∨ (s.sv.restoring ≠ 0 ∧ !(s.agNeeds (agSet line))) ∨
        set.any (fun y => y.2.st.stable && decide (y.2.age < x.age)) then s
    else agReplace line s)

/-- CA_FLUSH: a write of FLUSH. -/
def caFlush (s : State) : State :=
  if !s.sv.ca || s.sv.inReset then s
  else flushStep ((s.mapSv (fun v => { v with flushing := true })).setSrf SR.SV_CA_CTL 8 1 1)

/-- CA_FLUSH. -/
def execCaFlush (s : State) : Res := .next (caFlush s)

/-! ### Responses (R152) -/

/-- A response that the agent's state does not expect (R152). -/
def agDiscard (p : Packet) (s : State) : State :=
  s.svEvent 0xFF { cat := Cat.INTEGRITY, obj := Obj.PACKET, ctx := p.ctx, status := p.status,
                   arg0 := wd p.woff.toNat, arg1 := p.w0 }

/-- State after an error, and after the end of a write-back or an eviction. -/
def AgState.fallBack : AgState → AgState
  | .sm => .s
  | .om => .o
  | .ws => .s
  | .wim => .im
  | _ => .i

/-- The access whose miss caused a request fails with its status (R152). -/
def failAccess (l : BitVec 57) (st : BitVec 7) (s : State) : State :=
  match s.sv.accs.findSome? (fun a =>
    match s.sv.srcs.reqs.find? (fun o => o.que == a.1 && o.tag == a.2) with
    | none => none
    | some o => match o.acc with
      | some (r, fa) => if (accLines r fa).contains l then some (o, r) else none
      | none => none) with
  | some x => accDone x.1 x.2 st [] s
  | none => s

/-- A request for a line ends with an error. An ownership request that fails while a write-back of the line is
pending leaves the write-back (log entry 33). -/
def agError (o : OutReq) (l : BitVec 57) (st : BitVec 7) (s : State) : State :=
  let s := s.setReqOf .sv o none
  let was := (s.agLine l).st
  let wb := o.parts.any (fun z => z.pkts.any (fun k => k.opc == Opc.WBD))
  let owner := decide (was = .wim) && !wb
  let s := s.mapAg l (fun x => { x with st := if owner then .wi else x.st.fallBack })
  let s := if owner then failAccess l st s else match was with
    | .is => failAccess l st s
    | .im => failAccess l st s
    | .sm => failAccess l st s
    | .om => failAccess l st s
    | _ => s
  agPump s

/-- The agent's request with a packet sent again: RTY = 1. -/
def agResend (o : OutReq) (f : Part → Part) (s : State) : State :=
  let o' := { o with parts := o.parts.map f }
  let s := s.setReqOf .sv o (some o')
  o'.parts.foldl (fun s x => x.pkts.foldl (fun s p => svTx x.plane p s) s) s

/-- CDATA that answers a request of the agent. -/
def agCdata (o : OutReq) (l : BitVec 57) (p : Packet) (s : State) : State :=
  let x := s.agLine l
  let g := p.aux % 8
  let e2e := (o.parts.headD { pkts := [] }).e2e
  if p.status = 0 ∧ !p.e2eOk ∧ e2e < s.srf SR.SV_TXN_TMO 19 3 then
    agResend o (fun y => { y with e2e := y.e2e + 1, pkts := y.pkts.map Packet.resent }) s
  else if p.status ≠ 0 ∨ !p.e2eOk then agError o l (if p.status ≠ 0 then p.status else St.CHECK) s
  else
    let take := fun (st : AgState) => agPump ((s.setReqOf .sv o none).mapAg l (fun x => { x with st := st, data := p.data }))
    match x.st, g with
    | .is, 1 => take .s
    | .is, 2 => take .e
    | .im, 3 => take .m
    | .sm, 3 => take .m
    | .om, 3 => take .m
    | _, _ => agDiscard p s

/-- Lines that a snoop or a WBOK can mean. The packet carries no home node, so the agent takes the line it
holds with that window and offset, home plane, slice, context and generation; among several it is
open, a free value (log entry 33). -/
def agResolve (pl : Nat) (p : Packet) (f : AgLine → Bool) (s : State) : Option (BitVec 57) × State :=
  let c := (s.sv.lines.filter (fun x =>
    let l : BitVec 57 := BitVec.ofNat 57 x.1
    f x.2 && decide (faWoff (lineAddr l) = p.woff) && s.homeMap (homeIdx (lineAddr l)) == pl &&
    544 + dirSlice l == p.que.toNat && decide (x.2.ctx = p.ctx) && decide (x.2.gen = p.gen))).map (·.1)
  match c with
  | [] => (none, s)
  | [k] => (some (BitVec.ofNat 57 k), s)
  | _ => let r := pickMany 1 c s
         (r.1.head?.map (fun k => BitVec.ofNat 57 k), r.2)

/-- CACK that reaches the agent. -/
def agCack (plane : Fin 18) (p : Packet) (s : State) : State :=
  let kind := p.aux % 16
  if 544 ≤ p.que.toNat then
    if kind ≠ 2 then s
    else
      let r := agResolve plane.val p (fun x => x.st.pendingWb) s
      let done := cohAnswer p Opc.CACK 3 0 []
      match r.1 with
      | some l =>
        let s := r.2.mapSrcs .sv (fun y => { y with reqs := y.reqs.filter (fun o => !(match o.purpose with
          | .agent x => decide (x = l) && o.parts.any (fun z => z.pkts.any (fun k => k.opc == Opc.WBD))
          | _ => false)) })
        agPump (svTx plane.val done (s.mapAg l (fun x => { x with st := x.st.fallBack })))
      | none => if p.rty then svTx plane.val done s else agDiscard p s
  else match s.reqOf .sv p.que.toNat p.tag.toNat p.tseq with
  | none => s
  | some o =>
    match o.purpose with
    | .agent l =>
      let x := s.agLine l
      let upTo := fun (st : AgState) => agPump ((s.setReqOf .sv o none).mapAg l (fun x => { x with st := st }))
      if p.status ≠ 0 then agError o l p.status s
      else match kind, x.st with
        | 1, .sm => upTo .m
        | 1, .om => upTo .m
        | 0, .ci => upTo .i
        | 6, .ci => upTo .i
        | 6, .wi => upTo .i
        | 6, .ws => upTo .s
        | 6, .wim => upTo .im
        | _, _ => agDiscard p s
    | _ => s

/-- CDATA of a relayed read goes on to the unit that asked, with its QUE, TAG and TSEQ (R385). -/
def relayDone (o : OutReq) (pl : Nat) (req : Packet) (p : Packet) (s : State) : State :=
  svTx pl (cohAnswer req Opc.CDATA p.aux p.status p.data) (s.setReqOf .sv o none)

/-- A CNACK: the request waits for its resend interval (R384). -/
def execCnack (plane : Fin 18) (p : Packet) (s : State) : Res :=
  .next (
    if !p.rsp ∨ p.opc ≠ Opc.CNACK then s
    else if !p.complOk then pktEvent (.plane plane) St.COMPL p s
    else match s.reqOf .sv p.que.toNat p.tag.toNat p.tseq with
    | none => s
    | some o => s.setReqOf .sv o (some { o with parts := o.parts.map (fun x => { x with answered := true }) }))

/-- The request that a line's state asks for (R152). -/
def AgState.resendOpc (st : AgState) (old : Nat) : Nat :=
  match st with
  | .is => Opc.RDSH
  | .im => Opc.RDOWN
  | .sm => Opc.UPGR
  | .om => Opc.UPGR
  | _ => old

/-- AGENT_NACK_RESEND: the nacked requests of a line are sent again; a relayed read too. -/
def execAgentNackResend (line : BitVec 57) (s : State) : Res :=
  .next ((s.sv.srcs.reqs.filter (fun o => o.parts.any (fun x => x.answered))).foldl (fun s o =>
    match o.purpose with
    | .agent l =>
      if l ≠ line then s
      else
        let x := s.agLine l
        let pl := s.homeMap (homeIdx (lineAddr l))
        agResend o (fun y =>
          let old := y.pkts.headD default
          { y with answered := false, plane := pl,
                   pkts := [(agPacket s l x (x.st.resendOpc old.opc) o.tag o.tseq old.aux).resent] }) s
    | .relay _ req =>
      if lineOf req ≠ line then s
      else
        let pl := s.homeMap (homeIdx (lineAddr line))
        agResend o (fun y => { y with answered := false, plane := pl, pkts := y.pkts.map Packet.resent }) s
    | _ => s) s)

/-! ### Snoops (R151, R153) -/

/-- The answer of a state to a snoop: state code, dirty, whether it carries data, and the next state. -/
def snoopAnswer (opc aux : Nat) (st : AgState) : Nat × Bool × Bool × AgState :=
  let conv := bitAt (wd aux) 1
  let mo := bitAt (wd aux) 0
  if opc = Opc.SNPSH then
    match st with
    | .e => (2, false, true, .s)
    | .m => (3, true, true, if mo then .o else .ws)
    | .o => (4, true, true, if conv then .ws else .o)
    | .om => (4, true, true, .om)
    | st => (st.ackCode, false, false, st)
  else if opc = Opc.SNPINV then
    match st with
    | .s => (1, false, false, .i)
    | .e => (2, false, true, .i)
    | .m => (3, true, true, .wi)
    | .o => (4, true, true, .wi)
    | .sm => (1, false, false, .im)
    | .om => (4, true, true, .wim)
    | .ws => (6, false, false, .wi)
    | st => (st.ackCode, false, false, st)
  else
    match st with
    | .e => (2, false, true, .e)
    | .m => (3, true, true, .m)
    | .o => (4, true, true, .o)
    | .om => (4, true, true, .om)
    | st => (st.ackCode, false, false, st)

/-- A snoop reaches the agent. -/
def snoop (opc : Nat) (plane : Fin 18) (p : Packet) (s : State) : State :=
  let via := Via.plane plane
  if p.rsp ∨ p.opc ≠ opc ∨ s.sv.inReset then s
  else match rxForm [p] with
  | some st => reply via (cohAnswer p Opc.CACK 4 st []) (if st = St.DESC then s else pktEvent via st p s)
  | none =>
    if p.dst ≠ s.svNode ∨ !s.sv.ca then reply via (cohAnswer p Opc.CACK 4 St.ABSENT []) s
    else
      let r := agResolve plane.val p (fun x => decide (x.st ≠ .is) && decide (x.st ≠ .im) && decide (x.st ≠ .ci)) s
      let s := r.2
      match r.1 with
      | none => reply via (cohAnswer p Opc.CACK 4 0 []) s
      | some l =>
        let x := s.agLine l
        let a := snoopAnswer opc p.aux x.st
        let k := if p.rty ∧ x.st.pendingWb then cohAnswer p Opc.CDATA (5 + 8) 0 (slice x.data 0 128)
          else if a.2.2.1 then cohAnswer p Opc.CDATA (a.1 + b2n a.2.1 * 8) 0 (slice x.data 0 128)
          else cohAnswer p Opc.CACK (4 + a.1 * 16) 0 []
        agPump (reply via k (s.mapAg l (fun x => { x with st := a.2.2.2 })))

/-- SNPSH. -/
def execSnpsh (plane : Fin 18) (p : Packet) (s : State) : Res := .next (snoop Opc.SNPSH plane p s)
/-- SNPINV. -/
def execSnpinv (plane : Fin 18) (p : Packet) (s : State) : Res := .next (snoop Opc.SNPINV plane p s)
/-- SNPNA. -/
def execSnpna (plane : Fin 18) (p : Packet) (s : State) : Res := .next (snoop Opc.SNPNA plane p s)

/-- State code of a line in a census report; none when it is not reported (R169). -/
def AgState.census : AgState → Option Nat
  | .s => some 1
  | .sm => some 1
  | .e => some 2
  | .m => some 3
  | .o => some 4
  | .om => some 4
  | .wi => some 5
  | .wim => some 5
  | .ws => some 6
  | _ => none

/-- The CENREP packets of reports: up to 32 each, LAST on the final one. -/
def cenreps (p : Packet) (rs : List Word) : List Packet :=
  let l := chunksOf 32 (rs.length + 1) rs
  let l := if l.isEmpty then [[]] else l
  l.mapIdx (fun i c => cohAnswer p Opc.CACK (5 + (if i + 1 = l.length then 128 else 0)) 0 (c.flatMap wordBytes))

/-- SNPCEN: the reports, then every pending write-back again to the new home. -/
def execSnpcen (plane : Fin 18) (p : Packet) (s : State) : Res :=
  .next (
    let via := Via.plane plane
    if p.rsp ∨ p.opc ≠ Opc.SNPCEN ∨ s.sv.inReset then s
    else match rxForm [p] with
    | some st => reply via (cohAnswer p Opc.CACK (5 + 128) st []) (if st = St.DESC then s else pktEvent via st p s)
    | none =>
      if p.dst ≠ s.svNode ∨ !s.sv.ca then reply via (cohAnswer p Opc.CACK (5 + 128) St.ABSENT []) s
      else
        let mask := natOf p.data
        let hit := s.sv.lines.filter (fun x =>
          let i := homeIdx (lineAddr (BitVec.ofNat 57 x.1))
          mask / 2 ^ i % 2 == 1 && s.homeMap i == plane.val)
        let rs := hit.filterMap (fun x => x.2.st.census.map (fun c => wd (x.1 % 2 ^ 57 + c * 2 ^ 57)))
        let s := (cenreps p rs).foldl (fun s k => reply via k s) s
        hit.foldl (fun s x =>
          let l : BitVec 57 := BitVec.ofNat 57 x.1
          if !x.2.st.pendingWb then s
          else
            let s := s.mapSrcs .sv (fun y => { y with reqs := y.reqs.filter (fun o => !(match o.purpose with
              | .agent k => decide (k = l) && o.parts.any (fun z => z.pkts.any (fun q => q.opc == Opc.WBD))
              | _ => false)) })
            match agSend l x.2 Opc.WBD (b2n (decide (x.2.st = .ws))) s with
            | some s => s
            | none => s.mapAg l (fun y => { y with owes := true })) s)

/-! ### Relayed reads (R385) -/

/-- RELAYED_RDNA: sent again with RLY = 0 on QUE 33 to the home plane; beyond 64 it is answered CNACK. -/
def execRelayedRdna (plane : Fin 18) (p : Packet) (s : State) : Res :=
  .next (
    let via := Via.plane plane
    if p.rsp ∨ p.opc ≠ Opc.RDNA ∨ !(bitAt (wd p.aux) 0) ∨ s.sv.inReset then s
    else match rxForm [p] with
    | some st => reply via (cohAnswer p Opc.CDATA 0 st []) (if st = St.DESC then s else pktEvent via st p s)
    | none =>
      let pl := s.homeMap (homeIdx p.fabric)
      if p.dst ≠ s.svNode then reply via (cohAnswer p Opc.CDATA 0 St.ABSENT []) s
      else if 64 ≤ (s.outOf 33).length then reply via (cohAnswer p Opc.CNACK 1 0 []) s
      else match s.freeTag 33 with
      | none => reply via (cohAnswer p Opc.CNACK 1 0 []) s
      | some (tag, s) =>
        let u := useTag .sv 33 tag s
        let k := Hdr.packet { p.hdr with src := s.svNode, que := 33, tag := tag, tseq := u.1, aux := 0, rty := false }
        svTx pl k (u.2.mapSrcs .sv (fun y => { y with reqs := y.reqs ++
          [{ que := 33, tag := tag, tseq := u.1, parts := [{ pkts := [k], plane := pl }],
             purpose := .relay plane.val p }] })))

/-! ### Timeouts (R165) -/

/-- A coherence request of the block times out: WBD is resent without limit, with an event after each
RTY_MAX + 1 attempts; any other up to RTY_MAX times. -/
def svCohTimeout (que tag : Nat) (s : State) : State :=
  match s.sv.srcs.reqs.find? (fun o => o.que == que && o.tag == tag) with
  | none => s
  | some o =>
    let x := o.parts.headD { pkts := [] }
    let max := s.srf SR.SV_TXN_TMO 16 3
    let wb := x.pkts.any (fun p => p.opc == Opc.WBD)
    if x.answered || !(s.svPortUp x.plane) then s
    else match o.purpose with
    | .agent l =>
      if wb then
        let s := if (x.rty + 1) % (max + 1) = 0 then
            s.svEvent 0xFF { cat := Cat.TIMEOUT, obj := Obj.DIRENT, arg0 := lineAddr l, arg1 := wd (x.rty + 1) }
          else s
        agResend o (fun y => { y with rty := y.rty + 1, pkts := y.pkts.map Packet.resent }) s
      else if x.rty < max then agResend o (fun y => { y with rty := y.rty + 1, pkts := y.pkts.map Packet.resent }) s
      else agError o l St.LOST s
    | .relay pl req =>
      if x.rty < max then agResend o (fun y => { y with rty := y.rty + 1, pkts := y.pkts.map Packet.resent }) s
      else svTx pl (cohAnswer req Opc.CDATA 0 St.LOST []) (s.setReqOf .sv o none)
    | _ => s

/-- COHERENCE_TIMEOUT. -/
def execCoherenceTimeout (d : Side) (que : BitVec 10) (tag : BitVec 9) (s : State) : Res :=
  .next (match d with
    | .qd => if s.fenced then s else dirTimeout que.toNat tag.toNat s
    | .sv => svCohTimeout que.toNat tag.toNat s)

end Sys2Proof.Machine
end

