-- ==== Sys2Proof/Machine/Mill.lean ====
section
/-! DEFINITION. A mill: its registers (R294), instruction formats (R296), the fetch of the instruction
at PC, exceptions (R324, R325), stopping (R270, R289, R321), grid addresses (R262) and the accesses that
scalar, vector and atomic instructions make (R266-R270, R301). -/

namespace Sys2Proof.Machine

/-! ### Registers (R294) -/

def State.mill (s : State) (m : Nat) : Mill := Tbl.at s.qd.grid.mills m
def State.mapGrid (s : State) (f : Grid → Grid) : State := s.mapQd (fun q => { q with grid := f q.grid })
def State.mapMill (s : State) (m : Nat) (f : Mill → Mill) : State :=
  s.mapGrid (fun g => { g with mills := Tbl.mod g.mills m f })

/-- An s register; s0 reads as zero. -/
def Mill.sr (x : Mill) (i : Nat) : Word := if i = 0 then 0 else Tbl.at x.s i
/-- Write an s register; a write to s0 is ignored. -/
def Mill.setSr (x : Mill) (i : Nat) (v : Word) : Mill := if i = 0 then x else { x with s := Tbl.put x.s i v }
/-- A p register; p0 reads as all ones. -/
def Mill.pr (x : Mill) (i : Nat) : BitVec 32 := if i = 0 then ~~~ 0 else Tbl.at x.p i
/-- Write a p register; a write to p0 is ignored. -/
def Mill.setPr (x : Mill) (i : Nat) (v : BitVec 32) : Mill :=
  if i = 0 then x else { x with p := Tbl.put x.p i v }
/-- A v register. -/
def Mill.vr (x : Mill) (i : Nat) : BitVec 1024 := Tbl.at x.v i
/-- Write a v register. -/
def Mill.setVr (x : Mill) (i : Nat) (v : BitVec 1024) : Mill := { x with v := Tbl.put x.v i v }
/-- Lane `i` of a vector. -/
def lane (v : BitVec 1024) (i : Nat) : BitVec 32 := v.extractLsb' (32 * i) 32
/-- The vector of 32 lanes. -/
def ofLanes (f : Nat → BitVec 32) : BitVec 1024 :=
  BitVec.ofNat 1024 ((List.range 32).foldr (fun i n => n * 2 ^ 32 + (f i).toNat) 0)
/-- The 128 bytes of a vector. -/
def vecBytes (v : BitVec 1024) : List Byte := bytesOf 128 v.toNat
/-- The vector that 128 bytes spell. -/
def vecOf (d : List Byte) : BitVec 1024 := BitVec.ofNat 1024 (natOf (slice d 0 128))
/-- Tag of an accumulator: true for INT32. -/
def Mill.tag (x : Mill) (n : Nat) : Bool := x.tags.getLsbD n
/-- Set the tag of an accumulator. -/
def Mill.setTag (x : Mill) (n : Nat) (b : Bool) : Mill :=
  { x with tags := if b then x.tags ||| (1#4 <<< n) else x.tags &&& ~~~ (1#4 <<< n) }
/-- A counter of the DMA engine. -/
def Mill.counter (x : Mill) (c : Nat) : BitVec 32 × BitVec 7 := Tbl.at x.cnt c
/-- An endpoint. -/
def Mill.qe (x : Mill) (q : Nat) : QEnd := Tbl.at x.qs q
/-- Change an endpoint. -/
def Mill.mapQe (x : Mill) (q : Nat) (f : QEnd → QEnd) : Mill := { x with qs := Tbl.mod x.qs q f }

/-! ### Instruction words (R296) -/

def encA (maj : Nat) (f : FmtA) (fn : Nat) : BitVec 32 :=
  BitVec.ofNat 32 (maj * 2 ^ 26 + f.da.val * 2 ^ 21 + f.sa.val * 2 ^ 16 + f.sb.val * 2 ^ 11 + fn % 2048)
def encI (maj : Nat) (f : FmtI) : BitVec 32 :=
  BitVec.ofNat 32 (maj * 2 ^ 26 + f.da.val * 2 ^ 21 + f.sa.val * 2 ^ 16 + f.imm.toNat)
def encB (maj : Nat) (f : FmtB) : BitVec 32 :=
  BitVec.ofNat 32 (maj * 2 ^ 26 + f.sa.val * 2 ^ 21 + f.sb.val * 2 ^ 16 + f.off.toNat)
def encJ (maj : Nat) (off : BitVec 26) : BitVec 32 := BitVec.ofNat 32 (maj * 2 ^ 26 + off.toNat)
def encV (maj : Nat) (f : FmtV) (fn : Nat) : BitVec 32 :=
  BitVec.ofNat 32 (maj * 2 ^ 26 + f.vd.val * 2 ^ 21 + f.va.val * 2 ^ 16 + f.vb.val * 2 ^ 11 +
    f.pm.val * 2 ^ 8 + fn % 256)
def encT (maj : Nat) (f : FmtT) : BitVec 32 :=
  BitVec.ofNat 32 (maj * 2 ^ 26 + f.acc.val * 2 ^ 24 + f.sa.val * 2 ^ 19 + f.sb.val * 2 ^ 14 + f.pay.toNat)

/-- Whether a word has a major opcode and a function code that R297 to R320 list. -/
def wordListed (w : BitVec 32) : Bool :=
  let n := w.toNat
  let maj := n / 2 ^ 26
  let fa := n % 2048
  let fv := n % 256
  if maj = 0x00 then decide (fa ≤ 0x17)
  else if maj ≤ 0x0E then true
  else if 0x10 ≤ maj ∧ maj ≤ 0x13 then true
  else if maj = 0x14 then decide (fa ≤ 3)
  else if 0x18 ≤ maj ∧ maj ≤ 0x1F then true
  else if maj = 0x20 then
    decide (fv ≤ 0x0C) || (decide (0x10 ≤ fv) && decide (fv ≤ 0x12)) ||
      (decide (0x20 ≤ fv) && decide (fv ≤ 0x24))
  else if maj = 0x21 then decide (fv % 64 ≤ 8) || (decide (0x10 ≤ fv % 64) && decide (fv % 64 ≤ 0x12))
  else if maj = 0x22 ∨ maj = 0x23 then true
  else if maj = 0x24 then decide (fv ≤ 1)
  else if maj = 0x25 then decide (fv ≤ 5)
  else if maj = 0x26 ∨ maj = 0x28 then true
  else if maj = 0x29 then decide (n / 2048 % 8 ≤ 5)
  else if maj = 0x30 then decide (fa / 8 ≤ 4)
  else if maj = 0x34 then decide (fa / 16 ≤ 5)
  else if maj = 0x38 then decide (n / 64 % 4 ≤ 3)
  else if maj = 0x39 then decide (fa ≤ 8)
  else false

/-! ### Allotments (R285) -/

/-- STATE of an allotment. -/
def State.alState (s : State) (a : Nat) : Nat := s.fl (F.ALLOT_STS_W0_STATE a)
/-- The allotment's entry beside its status words. -/
def State.allot (s : State) (a : Nat) : Allot := Tbl.at s.qd.grid.allots a
/-- Change an allotment's entry. -/
def State.mapAllot (s : State) (a : Nat) (f : Allot → Allot) : State :=
  s.mapGrid (fun g => { g with allots := Tbl.mod g.allots a f })
/-- A mill of an allotment. -/
def State.inAllot (s : State) (a m : Nat) : Bool :=
  let x0 := s.fl (F.ALLOT_STS_W0_X0 a)
  let y0 := s.fl (F.ALLOT_STS_W0_Y0 a)
  decide (s.alState a ≠ 0) && decide (m < 256) && decide (x0 ≤ m % 16) &&
  decide (m % 16 ≤ x0 + s.fl (F.ALLOT_STS_W0_WM1 a)) && decide (y0 ≤ m / 16) &&
  decide (m / 16 ≤ y0 + s.fl (F.ALLOT_STS_W0_HM1 a))
/-- The mills of an allotment. -/
def State.millsOf (s : State) (a : Nat) : List Nat := (List.range 256).filter (fun m => s.inAllot a m)
/-- The allotment of a mill. -/
def State.allotOf (s : State) (m : Nat) : Option Nat := (List.range 64).find? (fun a => s.inAllot a m)
/-- The context of a mill's allotment. -/
def State.millCtx (s : State) (m : Nat) : BitVec 16 :=
  match s.allotOf m with
  | some a => BitVec.ofNat 16 (s.fl (F.ALLOT_STS_W0_CTX a))
  | none => 0
/-- Common share of an allotment: base and size in bytes. -/
def State.shareOf (s : State) (a : Nat) : Nat × Nat :=
  (s.fl (F.ALLOT_STS_W1_CBASE a) * 65536, s.fl (F.ALLOT_STS_W1_CSIZE a) * 65536)

/-! ### Scratch -/

/-- Bytes of a mill's scratch. -/
def State.scratch (s : State) (m off n : Nat) : List Byte :=
  (List.range n).map (fun i => Tbl.at s.qd.grid.scratch (m * 2 ^ 21 + off + i))
/-- Write bytes into a table from a key on. -/
def putBytes (t : Tbl Byte) (k : Nat) : List Byte → Tbl Byte
  | [] => t
  | b :: bs => putBytes (Tbl.put t k b) (k + 1) bs
/-- Write bytes of a mill's scratch. -/
def State.setScratch (s : State) (m off : Nat) (d : List Byte) : State :=
  s.mapGrid (fun g => { g with scratch := putBytes g.scratch (m * 2 ^ 21 + off) d })
/-- Bytes of the common scratch. -/
def State.common (s : State) (off n : Nat) : List Byte :=
  (List.range n).map (fun i => Tbl.at s.qd.grid.common (off + i))
/-- Write bytes of the common scratch. -/
def State.setCommon (s : State) (off : Nat) (d : List Byte) : State :=
  s.mapGrid (fun g => { g with common := putBytes g.common off d })

/-- The captured operand of a TMMA after a write from outside the stream: each 64-byte row that the write
touches is used old or new, a free value (R316, log entry 6). -/
def mixRows (base : Nat) (cap : List Byte) (off : Nat) (d : List Byte) (s : State) : List Byte × State :=
  ((List.range ((cap.length + 63) / 64)).foldl (fun (r : List Byte × State) k =>
    let row := base / 64 * 64 + 64 * k
    if off < row + 64 ∧ row < off + d.length then
      let f := draw 1 r.2
      if f.1 = 0 then (r.1, f.2)
      else
        let lo := max off (max row base)
        let hi := min (off + d.length) (min (row + 64) (base + cap.length))
        (patch r.1 (lo - base) ((d.drop (lo - off)).take (hi - lo)), f.2)
    else r) (cap, s))

/-- A DMA or mesh-receive write of a mill's scratch (R267, R316). -/
def State.extScratch (s : State) (m off : Nat) (d : List Byte) : State :=
  let r := (s.mill m).tmma.foldl (fun (r : List Tmma × State) t =>
    let a := mixRows t.aAddr t.a off d r.2
    let b := mixRows t.bAddr t.b off d a.2
    (r.1 ++ [{ t with a := a.1, b := b.1 }], b.2)) ([], s)
  (r.2.mapMill m (fun x => { x with tmma := r.1 })).setScratch m off d

/-! ### Grid addresses (R262) -/

/-- Where a grid address leads. -/
inductive Target where
  | scratch (m off : Nat)
  | common (off : Nat)
  | setBits (off : Nat)
  | clearBits (off : Nat)
  | lease (w off : Nat)
  deriving DecidableEq, Repr

/-- The target of `n` bytes at a grid address for a mill of allotment `a`; none when unreachable. -/
def State.reach (s : State) (a m addr n : Nat) : Option Target :=
  let sh := s.shareOf a
  let inShare := fun (o : Nat) => decide (sh.1 ≤ o) && decide (o + n ≤ sh.1 + sh.2)
  if addr + n ≤ 0x200000 then some (.scratch m addr)
  else if 0x100000000 ≤ addr ∧ addr + n ≤ 0x120000000 then
    let o := addr - 0x100000000
    let k := o / 2 ^ 21
    if s.inAllot a k ∧ o % 2 ^ 21 + n ≤ 2 ^ 21 then some (.scratch k (o % 2 ^ 21)) else none
  else if 0x200000000 ≤ addr ∧ addr + n ≤ 0x204000000 then
    (if inShare (addr - 0x200000000) then some (.common (addr - 0x200000000)) else none)
  else if 0x210000000 ≤ addr ∧ addr + n ≤ 0x214000000 then
    (if s.qd.variant = .qd19 ∧ inShare (addr - 0x210000000) then some (.setBits (addr - 0x210000000))
     else none)
  else if 0x220000000 ≤ addr ∧ addr + n ≤ 0x224000000 then
    (if s.qd.variant = .qd19 ∧ inShare (addr - 0x220000000) then some (.clearBits (addr - 0x220000000))
     else none)
  else if 0x230000000 + 1024 * a ≤ addr ∧ addr + n ≤ 0x230000000 + 1024 * a + 1024 then
    some (.lease ((addr - 0x230000000) / 16) (addr % 16))
  else none

/-- The 16 bytes of a lease word (R270). -/
def State.leaseBytes (s : State) (w : Nat) : List Byte :=
  let l := Tbl.at s.qd.grid.lease w
  wordBytes l.value ++ wordBytes (wd (l.holder.toNat + b2n l.held * 256))

/-- Read at a target. A load through an alias returns the plain bytes (R269). -/
def State.gridRead (s : State) (t : Target) (n : Nat) : List Byte :=
  match t with
  | .scratch m o => s.scratch m o n
  | .common o => s.common o n
  | .setBits o => s.common o n
  | .clearBits o => s.common o n
  | .lease w o => slice ((s.leaseBytes w) ++ (List.range 64).flatMap (fun k => s.leaseBytes (w + 1 + k))) o n

/-- Write at a target other than a lease word; the alias ranges set or clear bits (R269). -/
def State.gridWrite (s : State) (ext : Bool) (t : Target) (d : List Byte) : State :=
  match t with
  | .scratch m o => if ext then s.extScratch m o d else s.setScratch m o d
  | .common o => s.setCommon o d
  | .setBits o => s.setCommon o (List.zipWith (fun a b => a ||| b) (s.common o d.length) d)
  | .clearBits o => s.setCommon o (List.zipWith (fun a b => a &&& ~~~ b) (s.common o d.length) d)
  | .lease _ _ => s

/-- First offset beyond the read-only region of an allotment (R330). -/
def State.textEnd (s : State) (a : Nat) : Nat := roundUp ((s.allot a).textOff + (s.allot a).textLen) 64

/-- Whether a write at a target is permitted: not into the read-only region, not to a lease word. -/
def State.writable (s : State) (a : Nat) : Target → Bool
  | .scratch _ o => decide (s.textEnd a ≤ o)
  | .lease _ _ => false
  | _ => true

/-! ### Stopping -/

/-- Clear lease words: VALUE and HELD go to zero, the expiry is counted and an event raised (R270). -/
def clearLeases (cat : Nat) (arg1 : Nat) (p : Nat → Lease → Bool) (s : State) : State :=
  (s.qd.grid.lease.filter (fun l => l.2.held && p l.1 l.2)).foldl (fun s l =>
    (((s.mapGrid (fun g => { g with lease := Tbl.put g.lease l.1 default })).count F.GRID_STS_LEASE_EXP).event
      (Rg.mill l.2.holder.toNat) { cat := cat, obj := Obj.LEASE, arg0 := wd l.1, arg1 := wd arg1 })) s

/-- The sync record of a wait of a mill (R495). -/
def millSync (m kind wsub q obj : Nat) (node : BitVec 14) (s : State) : State :=
  s.syncEnd { kind := kind, start := (s.mill m).since, wclass := 9, windex := m, wsub := wsub,
              ctx := s.millCtx m, node := node, q := q, obj := obj }

/-- The mill reaches an instruction boundary: a debug halt that was asked for, or the end of a step
(R327, R328). -/
def millBoundary (m : Nat) (s : State) : State :=
  let x := s.mill m
  if x.run ≠ .running then s
  else if x.haltReq then
    s.mapMill m (fun x => { x with dhalt := true, reason := 0, haltReq := false, stepping := false })
  else if x.stepping then s.mapMill m (fun x => { x with dhalt := true, reason := 1, stepping := false })
  else s

/-- An instruction completes: PC and RETIRED advance and the wait ends. -/
def millNext (m : Nat) (pc : BitVec 21) (s : State) : State :=
  millBoundary m (s.mapMill m (fun x => { x with pc := pc, retired := x.retired + 1, wait := .none, pass := false }))

/-- PC of the instruction after the one at PC. -/
def State.nextPc (s : State) (m : Nat) : BitVec 21 := (s.mill m).pc + 4

/-- Every waiting BAR of an allotment returns a result (R321). -/
def releaseBar (a : Nat) (ans : Nat) (last : Nat) (s : State) : State :=
  (s.millsOf a).foldl (fun s m =>
    match (s.mill m).wait with
    | .bar da =>
      let s := millSync m 0 0 last a s.qdNode s
      millNext m (s.nextPc m) (s.mapMill m (fun x => x.setSr da (wd ans)))
    | _ => s) (s.mapAllot a (fun x => { x with arrived := [] }))

/-- A mill stops: its leases are released and the barrier of its allotment breaks (R270, R321). -/
def millStop (m : Nat) (how : MRun) (s : State) : State :=
  let s := s.mapMill m (fun x => { x with run := how, wait := .none, haltReq := false, stepping := false })
  let s := clearLeases Cat.INFO 0 (fun _ l => decide (l.holder.toNat = m)) s
  match s.allotOf m with
  | none => s
  | some a => releaseBar a 1 m (s.mapAllot a (fun x => { x with broken := true }))

/-- A fault stops the mill: FAULTS rises, and the first that carries a status gives START its (R285,
R289, R325). -/
def millFault (m : Nat) (s : State) : State :=
  let st := (s.mill m).estat
  let s := match s.allotOf m with
    | none => s
    | some a => (s.count (F.ALLOT_STS_W1_FAULTS a)).mapAllot a (fun x =>
        { x with firstSt := if x.firstSt = 0 then st else x.firstSt })
  millStop m .faulted s

/-! ### Exceptions (R324, R325) -/

namespace Exc
abbrev ILLEGAL : Nat := 1
abbrev ACCESS : Nat := 2
abbrev ALIGN : Nat := 3
abbrev FETCH : Nat := 4
abbrev TFMT : Nat := 5
abbrev BRK : Nat := 6
abbrev QERR : Nat := 7
abbrev DMAFAIL : Nat := 8
abbrev ABORT : Nat := 9
abbrev DOUBLE : Nat := 10
end Exc

/-- An exception at PC: the handler is entered, or the mill stops with a fault. ABORT is never
handled, and an exception inside the handler is DOUBLE. -/
def millExc (m code : Nat) (eaddr : Word) (estat : BitVec 7) (s : State) : State :=
  let x := s.mill m
  let s := s.mapMill m (fun x => { x with
    epc := x.pc, eaddr := eaddr, estat := estat, wait := .none, pass := false,
    cause := BitVec.ofNat 7 (if x.inh then Exc.DOUBLE else code),
    first := if x.inh then BitVec.ofNat 7 code else x.first })
  if x.handler ≠ 0 ∧ !x.inh ∧ code ≠ Exc.ABORT then
    millBoundary m (s.mapMill m (fun x => { x with inh := true, pc := x.handler }))
  else millFault m s

/-! ### Running an instruction -/

/-- What an instruction does. -/
inductive MRes where
  /-- It completes and PC advances. -/
  | done (s : State)
  /-- It completes and PC goes to a target. -/
  | jump (s : State) (target : Word)
  /-- It raises an exception and has no effect. -/
  | exc (code : Nat) (eaddr : Word) (estat : BitVec 7 := 0)
  /-- It waits. -/
  | wait (w : MWait) (s : State)
  /-- It finds that an earlier remote store to an address failed (R301). -/
  | observed (addr : Nat)
  /-- It has ended the program or halted the mill; PC stays. -/
  | stopped (s : State)
  /-- It cannot issue yet; nothing changes. -/
  | stall

/-- Whether an instruction can be fetched at an offset (R303, R330). -/
def State.inText (s : State) (a pc : Nat) : Bool :=
  let x := s.allot a
  decide (x.textOff ≤ pc) && decide (pc + 4 ≤ x.textOff + x.textLen) && pc % 4 == 0

/-- Carry out the outcome of an instruction of mill `m` in allotment `a`. A jump outside the text section
raises FETCH at its target. -/
def finishInstr (a m : Nat) (s : State) : MRes → State
  | .done t => millNext m (s.nextPc m) t
  | .jump t target =>
    let t := t.mapMill m (fun x => { x with pc := BitVec.ofNat 21 target.toNat, wait := .none, pass := false,
                                            retired := x.retired + 1 })
    if target.toNat < 2 ^ 21 ∧ t.inText a target.toNat then millBoundary m t
    else millExc m Exc.FETCH target 0 t
  | .exc code eaddr estat => millExc m code eaddr estat s
  | .observed addr => millExc m Exc.ACCESS (wd addr) 0 (s.mapMill m (fun x => { x with storeFail := none }))
  | .wait w t => t.mapMill m (fun x => { x with
      since := if x.wait = .none then t.stamp else x.since, wait := w })
  | .stopped t => t
  | .stall => s

/-- Whether an enabled instruction breakpoint names an offset (R327). -/
def Mill.breaks (x : Mill) : Bool :=
  (bitAt x.ibp0 0 && decide (fget x.ibp0 2 19 * 4 = x.pc.toNat)) ||
  (bitAt x.ibp1 0 && decide (fget x.ibp1 2 19 * 4 = x.pc.toNat))

/-- A VQ1 response is awaited. -/
def MWait.inFlight : MWait → Bool
  | .load _ _ _ => true
  | .vload _ => true
  | .atom _ => true
  | _ => false

/-- Run the instruction of a word on a mill: it runs when the mill runs, its allotment is not
halting, and the word stands at PC. A
mill that cannot fetch there, or that finds a word no instruction has, takes the exception; a word
that is another instruction makes the command do nothing (log entry 9). -/
def runInstr (m : Nat) (w : BitVec 32) (body : Nat → State → MRes) (s : State) : State :=
  let x := s.mill m
  match s.allotOf m with
  | none => s
  | some a =>
    if x.run ≠ .running ∨ x.dhalt ∨ x.wait.inFlight ∨ 4 ≤ s.alState a then s
    else if x.breaks ∧ !x.pass then
      s.mapMill m (fun x => { x with dhalt := true, reason := 3, stepping := false })
    else if !(s.inText a x.pc.toNat) then millExc m Exc.FETCH (wd x.pc.toNat) 0 s
    else
      let f := natOf (s.scratch m x.pc.toNat 4)
      if f = w.toNat then finishInstr a m s (body a s)
      else if wordListed (BitVec.ofNat 32 f) then s
      else millExc m Exc.ILLEGAL 0 0 s

/-- An instruction that writes an s register. -/
def putS (m da : Nat) (v : Word) (s : State) : MRes := .done (s.mapMill m (fun x => x.setSr da v))

/-- An instruction whose reserved fields must be zero. -/
def needZero (ok : Bool) (r : MRes) : MRes := if ok then r else .exc Exc.ILLEGAL 0

/-! ### Accesses to grid addresses (R301, R302, R309) -/

/-- Destination number of a target, none for the mill's own scratch (R274). -/
def Target.dest (m : Nat) : Target → Option Nat
  | .scratch k _ => if k = m then none else some k
  | .common o => some (256 + o / 64 % 64)
  | .setBits o => some (256 + o / 64 % 64)
  | .clearBits o => some (256 + o / 64 % 64)
  | .lease _ _ => some 320

/-- Issue a VQ0 request. -/
def sendVq0 (m : Nat) (r : MeshReq) (s : State) : State :=
  s.mapMill m (fun x => { x with vq0 := x.vq0 ++ [r] })

/-- A failed remote store is observed by a remote access or FENCE: ACCESS with its address (R301). -/
def observe (m : Nat) (s : State) (f : Unit → MRes) : MRes :=
  match (s.mill m).storeFail with
  | some addr => .observed addr
  | none => f ()

/-- A load of `n` bytes at a grid address: own scratch at once, anything else over the mesh. -/
def loadAt (a m : Nat) (addr : Word) (n align : Nat) (w : MWait) (use : List Byte → State → State) (s : State) :
    MRes :=
  if addr.toNat % align ≠ 0 then .exc Exc.ALIGN addr
  else match s.reach a m addr.toNat n with
    | none => .exc Exc.ACCESS addr
    | some t =>
      match t.dest m with
      | none => .done (use (s.gridRead t n) s)
      | some d => observe m s (fun _ =>
          .wait w (sendVq0 m { dst := d, addr := addr.toNat, op := .load, len := n, data := [] } s))

/-- A store of bytes at a grid address. A remote store retires when it is issued. -/
def storeAt (a m : Nat) (addr : Word) (d : List Byte) (align : Nat) (s : State) : MRes :=
  if addr.toNat % align ≠ 0 then .exc Exc.ALIGN addr
  else match s.reach a m addr.toNat d.length with
    | none => .exc Exc.ACCESS addr
    | some t =>
      match t, t.dest m with
      | .lease _ _, _ => .exc Exc.ACCESS addr
      | _, none => if s.writable a t then .done (s.gridWrite false t d) else .exc Exc.ACCESS addr
      | _, some k => observe m s (fun _ =>
          .done (sendVq0 m { dst := k, addr := addr.toNat, op := .store, len := d.length, data := d } s))

/-- The new value of a scratch atomic (R266). -/
def atomValue (op : MeshOp) (n old new : Nat) : Nat :=
  match op with
  | .add => (old + new) % 2 ^ (8 * n)
  | _ => new

/-- A scratch atomic of `n` bytes (R302). -/
def atomAt (a m da : Nat) (addr : Word) (op : MeshOp) (n : Nat) (v : Word) (s : State) : MRes :=
  if addr.toNat % n ≠ 0 then .exc Exc.ALIGN addr
  else match s.reach a m addr.toNat n with
    | none => .exc Exc.ACCESS addr
    | some t =>
      let req := fun (d : Nat) => observe m s (fun _ =>
        MRes.wait (.atom da) (sendVq0 m { dst := d, addr := addr.toNat, op := op, len := n, data := bytesOf n v.toNat } s))
      match t, t.dest m with
      | .lease _ o, _ => if op = .swap ∧ n = 8 ∧ o = 0 then req 320 else .exc Exc.ACCESS addr
      | .setBits _, _ => .exc Exc.ACCESS addr
      | .clearBits _, _ => .exc Exc.ACCESS addr
      | _, none =>
        if s.writable a t then
          let old := natOf (s.gridRead t n)
          putS m da (wd old) (s.gridWrite false t (bytesOf n (atomValue op n old (v.toNat % 2 ^ (8 * n)))))
        else .exc Exc.ACCESS addr
      | _, some d => req d

/-- The value that a load writes. -/
def loadValue (signed : Bool) (n : Nat) (d : List Byte) : Word :=
  if signed then BitVec.ofInt 64 (sext (8 * n) (natOf d)) else wd (natOf d)

/-- Address of an I-format access. -/
def ea (x : Mill) (f : FmtI) : Word := x.sr f.sa.val + f.imm.signExtend 64

end Sys2Proof.Machine
end

