-- ==== Sys2Proof/Machine/MillTensor.lean ====
section
/-! DEFINITION. The tensor instructions of the mills (R311-R316). -/

namespace Sys2Proof.Machine

/-! ### Accumulators -/

/-- An element of an accumulator. -/
def Mill.accAt (x : Mill) (n i j : Nat) : BitVec 32 := Tbl.at x.acc (1024 * n + 32 * i + j)

/-- The 4 KiB of an accumulator, row-major. -/
def Mill.accBytes (x : Mill) (n : Nat) : List Byte :=
  (List.range 1024).flatMap (fun k => bytesOf 4 (Tbl.at x.acc (1024 * n + k)).toNat)

/-- Write every element of an accumulator. -/
def Mill.setAcc (x : Mill) (n : Nat) (f : Nat → BitVec 32) : Mill :=
  { x with acc := (List.range 1024).foldl (fun t k => Tbl.put t (1024 * n + k) (f k)) x.acc }

/-- A row of an accumulator as a vector. -/
def Mill.accRow (x : Mill) (n i : Nat) : BitVec 1024 := ofLanes (fun j => x.accAt n i j)

/-- Write a row of an accumulator. -/
def Mill.setRow (x : Mill) (n i : Nat) (v : BitVec 1024) : Mill :=
  { x with acc := (List.range 32).foldl (fun t j => Tbl.put t (1024 * n + 32 * i + j) (lane v j)) x.acc }

/-- A TMMA that has not completed targets an accumulator (R316). -/
def Mill.accBusy (x : Mill) (n : Nat) : Bool := x.tmma.any (fun t => t.acc == n)

/-! ### Operands (R312, R314) -/

/-- Formats that the tensor unit takes. -/
def tensorFmt (fmt : Nat) : Bool := decide (1 ≤ fmt) && decide (fmt ≤ 10)

/-- Products that each output takes at a time (R312). -/
def tensorG (fmt : Nat) : Nat :=
  if fmt ≤ 2 then 1 else if fmt ≤ 6 then 2 else if fmt ≤ 9 then 4 else 2

/-- Bytes of the element array of an operand, and of the whole operand with its scales. -/
def operandElems (fmt k : Nat) : Nat := 32 * k * afmtBits fmt / 8
def operandBytes (fmt kb : Nat) : Nat :=
  if afmtMx fmt then roundUp (operandElems fmt (32 * kb)) 64 + 32 * kb else operandElems fmt (32 * kb)

/-- An element of an operand as an exact number: its place in the element array and the place of its
scale. -/
def operandNum (fmt kb : Nat) (d : List Byte) (e sc : Nat) : Num :=
  let c := bitsAt d (e * afmtBits fmt) (afmtBits fmt)
  if afmtMx fmt then
    let x := natOf (slice d (roundUp (operandElems fmt (32 * kb)) 64 + sc) 1)
    if x = 0xFF then .nan
    else match (afmtFp fmt).dec c with
      | .fin s m g => .fin s m (g + Int.ofNat x - 127)
      | n => n
  else if fmt = 10 then numOf (sext 8 c) 0 false
  else (afmtFp fmt).dec c

/-- Element (i, k) of A. -/
def Tmma.aNum (t : Tmma) (i k : Nat) : Num :=
  operandNum t.fmt t.kb t.a (i * (32 * t.kb) + k) (i * t.kb + k / 32)

/-- Element (k, j) of B, stored as K rows of 32, or as 32 rows of K when transposed. -/
def Tmma.bNum (t : Tmma) (k j : Nat) : Num :=
  if t.trb then operandNum t.fmt t.kb t.b (j * (32 * t.kb) + k) (j * t.kb + k / 32)
  else operandNum t.fmt t.kb t.b (32 * k + j) (32 * (k / 32) + j)

/-- An INT8 element as an integer. -/
def numInt : Num → Int
  | .fin neg m _ => if neg then -Int.ofNat m else Int.ofNat m
  | _ => 0

/-- One output element: its products in ascending order, in groups, one rounding for each group
(R313). -/
def Tmma.output (t : Tmma) (acc : BitVec 32) (i j : Nat) : BitVec 32 :=
  let g := tensorG t.fmt
  (List.range (32 * t.kb / g)).foldl (fun (a : BitVec 32) n =>
    let ks := (List.range g).map (fun u => g * n + u)
    if t.fmt = 10 then
      a + BitVec.ofInt 32 (ks.foldl (fun s k => s + numInt (t.aNum i k) * numInt (t.bNum k j)) 0)
    else
      BitVec.ofNat 32 (Fp.f32.enc .rne false
        (ks.foldl (fun s k => s.add ((t.aNum i k).mul (t.bNum k j))) (Fp.f32.dec a.toNat)))) acc

/-- The effect of a TMMA on the accumulators. -/
def tmmaApply (t : Tmma) (x : Mill) : Mill :=
  (x.setAcc t.acc (fun k => t.output (if t.zero then 0 else Tbl.at x.acc (1024 * t.acc + k)) (k / 32) (k % 32))).setTag
    t.acc (decide (t.fmt = 10))

/-! ### TMMA (R311, R316) -/

/-- Offset in the mill's own scratch of `n` bytes. -/
def ownBytes (s : State) (a m : Nat) (addr : Word) (n : Nat) : Option Nat :=
  match s.reach a m addr.toNat n with
  | some (.scratch k o) => if k = m then some o else none
  | _ => none

/-- TMMA: it captures its operands and retires when it is issued. -/
def execTmma (m : Fin 256) (f : FmtT) (s : State) : Res :=
  .next (runInstr m.val (encT 0x28 f) (fun a s =>
    let x := s.mill m.val
    let pay := f.pay.toNat
    let fmt := pay / 1024
    let kb := if pay % 256 = 0 then 256 else pay % 256
    let zero := pay / 256 % 2 == 1
    let aAddr := x.sr f.sa.val
    let bAddr := x.sr f.sb.val
    let n := operandBytes fmt kb
    if !(tensorFmt fmt) then .exc Exc.ILLEGAL 0
    else if aAddr.toNat % 64 ≠ 0 then .exc Exc.ALIGN aAddr
    else if bAddr.toNat % 64 ≠ 0 then .exc Exc.ALIGN bAddr
    else match ownBytes s a m.val aAddr n, ownBytes s a m.val bAddr n with
      | none, _ => .exc Exc.ACCESS aAddr
      | _, none => .exc Exc.ACCESS bAddr
      | some ao, some bo =>
        if x.accBusy f.acc.val ∨ 2 ≤ x.tmma.length then .stall
        else if !zero && (x.tag f.acc.val != decide (fmt = 10)) then .exc Exc.TFMT 0
        else
          let t : Tmma := { acc := f.acc.val, fmt := fmt, trb := pay / 512 % 2 == 1, zero := zero, kb := kb,
                            aAddr := ao, bAddr := bo, a := s.scratch m.val ao n, b := s.scratch m.val bo n }
          .done (s.mapMill m.val (fun x => { x with tmma := x.tmma ++ [t] }))) s)

/-- TFENCE: wait until the tensor unit is idle. -/
def tfenceTry (m : Nat) (s : State) : MRes :=
  if (s.mill m).tmma.isEmpty then .done s else .wait .tfence s

/-- TMMA_COMPLETE: the oldest TMMA's accumulator becomes readable, and a waiting TFENCE goes on when none
is left. -/
def execTmmaComplete (m : Fin 256) (s : State) : Res :=
  .next (
    match (s.mill m.val).tmma with
    | [] => s
    | t :: rest =>
      let s := s.mapMill m.val (fun x => { tmmaApply t x with tmma := rest })
      if (s.mill m.val).wait = .tfence ∧ rest = [] ∧ !(s.mill m.val).dhalt then millNext m.val (s.nextPc m.val) s
      else s)

/-! ### TMOV (R315) -/

/-- The word of a TMOV operation: its code stands in PAY [13:11]. -/
def encTmov (f : FmtT) (op : Nat) : BitVec 32 :=
  encT 0x29 { f with pay := BitVec.ofNat 14 (op * 2048 + f.pay.toNat % 2048) }

/-- Run a TMOV operation when PAY [9:0] is zero and no TMMA targets the accumulator. -/
def tmov (m : Nat) (f : FmtT) (op : Nat) (body : Nat → State → MRes) (s : State) : State :=
  runInstr m (encTmov f op) (fun a s =>
    needZero (f.pay.toNat % 1024 == 0)
      (if (s.mill m).accBusy f.acc.val then .stall else body a s)) s

/-- INT of a TMOV. -/
def tmovInt (f : FmtT) : Bool := f.pay.toNat / 1024 % 2 == 1

/-- Bytes of the mill's own scratch that a TMOV moves: a multiple of 64 (R315). -/
def tmovAddr (m a n : Nat) (f : FmtT) (write : Bool) (s : State) (use : Nat → MRes) : MRes :=
  let addr := (s.mill m).sr f.sa.val
  if addr.toNat % 64 ≠ 0 then .exc Exc.ALIGN addr
  else match ownBytes s a m addr n with
    | none => .exc Exc.ACCESS addr
    | some o => if write && decide (o < s.textEnd a) then .exc Exc.ACCESS addr else use o

/-- TZERO. -/
def execTzero (m : Fin 256) (f : FmtT) (s : State) : Res :=
  .next (tmov m.val f 0 (fun _ s =>
    .done (s.mapMill m.val (fun x => (x.setAcc f.acc.val (fun _ => 0)).setTag f.acc.val (tmovInt f)))) s)

/-- TLD. -/
def execTld (m : Fin 256) (f : FmtT) (s : State) : Res :=
  .next (tmov m.val f 1 (fun a s => tmovAddr m.val a 4096 f false s (fun o =>
    let d := s.scratch m.val o 4096
    .done (s.mapMill m.val (fun x => (x.setAcc f.acc.val (fun k =>
      BitVec.ofNat 32 (natOf (slice d (4 * k) 4)))).setTag f.acc.val (tmovInt f))))) s)

/-- TST. -/
def execTst (m : Fin 256) (f : FmtT) (s : State) : Res :=
  .next (tmov m.val f 2 (fun a s => tmovAddr m.val a 4096 f true s (fun o =>
    .done (s.setScratch m.val o ((s.mill m.val).accBytes f.acc.val)))) s)

/-- TSTB: an INT tag raises TFMT. -/
def execTstb (m : Fin 256) (f : FmtT) (s : State) : Res :=
  .next (tmov m.val f 3 (fun a s =>
    if (s.mill m.val).tag f.acc.val then .exc Exc.TFMT 0
    else tmovAddr m.val a 2048 f true s (fun o =>
      .done (s.setScratch m.val o ((List.range 1024).flatMap (fun k => bytesOf 2
        (Fp.bf16.enc .rne false (Fp.f32.dec (Tbl.at (s.mill m.val).acc (1024 * f.acc.val + k)).toNat))))))) s)

/-- TROW. -/
def execTrow (m : Fin 256) (f : FmtT) (s : State) : Res :=
  .next (tmov m.val f 4 (fun _ s =>
    .done (s.mapMill m.val (fun x =>
      x.setVr f.sb.val (x.accRow f.acc.val ((x.sr f.sa.val).toNat % 32))))) s)

/-- TWROW. -/
def execTwrow (m : Fin 256) (f : FmtT) (s : State) : Res :=
  .next (tmov m.val f 5 (fun _ s =>
    .done (s.mapMill m.val (fun x =>
      x.setRow f.acc.val ((x.sr f.sa.val).toNat % 32) (x.vr f.sb.val)))) s)

end Sys2Proof.Machine
end

