-- ==== Sys2Proof/Machine/MillQueue.lean ====
section
/-! DEFINITION. Queue endpoints (R275-R278, R317), DMA commands and counters (R318), control words
(R295, R319), SYS (R320, R321), the mesh (R270, R273, R274, R301) and messages from the fabric (R277). -/

namespace Sys2Proof.Machine

/-! ### Queue endpoints (R275, R317) -/

def QEnd.mode (e : QEnd) : Nat := fget e.cfg 0 3
def QEnd.pmill (e : QEnd) : Nat := fget e.cfg 3 8
def QEnd.pq (e : QEnd) : Nat := fget e.cfg 11 3

/-- The word of a QOP. -/
def encQ (f : FmtA) (op ep : Nat) : BitVec 32 := encA 0x30 f (op * 8 + ep)

/-- A configuration word that an endpoint takes: reserved modes and bits are not taken, a fabric message
has class 0 to 2, and both ends of a channel lie in one allotment (R275, R276, log entry 28). -/
def qcfgOk (s : State) (a : Nat) (w : Word) : Bool :=
  let mode := fget w 0 3
  decide (mode ≤ 4) && fget w 38 26 == 0 && (mode != 4 || decide (fget w 36 2 ≤ 2)) &&
  (!(mode == 1 || mode == 2) || s.inAllot a (fget w 3 8))

/-- QCFG: entries, credits and completions of the endpoint are discarded. -/
def execQcfg (m : Fin 256) (f : FmtA) (ep : Fin 8) (s : State) : Res :=
  .next (runInstr m.val (encQ f 0 ep.val) (fun a s =>
    let w := (s.mill m.val).sr f.sa.val
    needZero (f.da.val == 0)
      (if qcfgOk s a w then
        .done (s.mapMill m.val (fun x => x.mapQe ep.val (fun e =>
          { cfg := w, credits := if fget w 0 3 = 2 then 8 else 0, epoch := e.epoch + 1 })))
      else .exc Exc.QERR 0)) s)

/-- The packet of a fabric message of an endpoint. The spec names no window, offset or generation for it:
free values (log entry 29). -/
def fabricMsg (s : State) (m : Nat) (e : QEnd) (d : List Byte) : Packet × State :=
  let o := draw 50 s
  let g := draw 8 o.2
  (Hdr.packet { dst := BitVec.ofNat 14 (fget e.cfg 14 14), ctx := s.millCtx m, opc := Opc.MSG, src := s.qdNode,
                cls := BitVec.ofNat 2 (fget e.cfg 36 2), gen := g.1, que := m, woff := o.1.toNat,
                aux := fget e.cfg 28 8, len := d.length } none none d, g.2)

/-- A FENCE or an ACQLD that has started holds back every later request of the mill's queue (R123, R126). -/
def Mill.dmaHolds (x : Mill) : Bool :=
  x.dmas.any (fun d => fget (d.words.getD 5 0) 0 3 == 3 || fget (d.words.getD 5 0) 0 3 == 5)

/-- QSEND of `n` bytes at a scratch address. -/
def sendTry (a m ep sa sb : Nat) (s : State) : MRes :=
  let x := s.mill m
  let e := x.qe ep
  let n := (x.sr sb).toNat
  let addr := x.sr sa
  if !(e.mode == 2 || e.mode == 4) ∨ n = 0 ∨ 256 < n then .exc Exc.QERR 0
  else match ownBytes s a m addr n with
    | none => .exc Exc.ACCESS addr
    | some o =>
      let d := s.scratch m o n
      if e.mode = 2 then
        if e.credits = 0 then .wait (.send ep sa sb) s
        else
          let s := if x.wait = .send ep sa sb then millSync m 2 ep e.pmill 1 s.qdNode s else s
          .done (sendVq0 m { dst := e.pmill, addr := m * 8 + ep, op := .message e.pq, len := n, data := d }
            (s.mapMill m (fun x => x.mapQe ep (fun e => { e with credits := e.credits - 1 }))))
      else if 256 ≤ (s.unitOut m).length ∨ 64 ≤ e.outst + e.comps.length ∨ x.dmaHolds then .wait (.send ep sa sb) s
      else
        let p := fabricMsg s m e d
        .done (unitReq { que := m, purpose := .unit Un.MMSG m ep e.epoch, parts := [[p.1]] }
          (p.2.mapMill m (fun x => x.mapQe ep (fun e => { e with outst := e.outst + 1 }))))

/-- QSEND. -/
def execQsend (m : Fin 256) (f : FmtA) (ep : Fin 8) (s : State) : Res :=
  .next (runInstr m.val (encQ f 1 ep.val) (fun a s => sendTry a m.val ep.val f.sa.val f.sb.val s) s)

/-- A fabric message's completion is posted to its endpoint, unless that was configured anew (R317). -/
def postCompletion (m ep epoch : Nat) (st : BitVec 7) (s : State) : State :=
  s.mapMill m (fun x => x.mapQe ep (fun e =>
    if e.epoch = epoch then { e with outst := e.outst - 1, comps := e.comps ++ [st] } else e))

/-- QRECV: the oldest entry, its payload and its information word. -/
def recvTry (a m ep sa da : Nat) (s : State) : MRes :=
  let x := s.mill m
  let e := x.qe ep
  let addr := x.sr sa
  if !(e.mode == 1 || e.mode == 3) then .exc Exc.QERR 0
  else if addr.toNat % 64 ≠ 0 then .exc Exc.ALIGN addr
  else match e.entries with
    | [] => match ownBytes s a m addr 1 with
      | none => .exc Exc.ACCESS addr
      | some _ => .wait (.recv ep sa da) s
    | k :: rest => match ownBytes s a m addr k.data.length with
      | none => .exc Exc.ACCESS addr
      | some o =>
        if o < s.textEnd a then .exc Exc.ACCESS addr
        else
          let n := k.data.length
          let info := wd (n % 512 + b2n k.fabric * 512 + k.src % 2 ^ 14 * 2 ^ 10 +
            (if k.fabric then k.que % 1024 * 2 ^ 24 else 0))
          let s := if x.wait = .recv ep sa da then
            millSync m 1 ep (if k.fabric then k.que else k.src) n
              (if k.fabric then BitVec.ofNat 14 k.src else s.qdNode) s
            else s
          let s := (s.setScratch m o k.data).mapMill m (fun x =>
            (x.mapQe ep (fun e => { e with entries := rest })).setSr da info)
          .done (if e.mode = 1 then
            s.mapMill e.pmill (fun y => y.mapQe e.pq (fun z => { z with back := z.back + 1 }))
            else s)

/-- QRECV. -/
def execQrecv (m : Fin 256) (f : FmtA) (ep : Fin 8) (s : State) : Res :=
  .next (runInstr m.val (encQ f 2 ep.val) (fun a s => recvTry a m.val ep.val f.sa.val f.da.val s) s)

/-- QPOLL. -/
def execQpoll (m : Fin 256) (f : FmtA) (ep : Fin 8) (s : State) : Res :=
  .next (runInstr m.val (encQ f 3 ep.val) (fun _ s =>
    let e := (s.mill m.val).qe ep.val
    if e.mode = 1 ∨ e.mode = 3 then putS m.val f.da.val (wd e.entries.length) s
    else if e.mode = 2 then putS m.val f.da.val (wd e.credits) s
    else if e.mode = 4 then putS m.val f.da.val (wd e.comps.length) s
    else .exc Exc.QERR 0) s)

/-- QSTAT. -/
def execQstat (m : Fin 256) (f : FmtA) (ep : Fin 8) (s : State) : Res :=
  .next (runInstr m.val (encQ f 4 ep.val) (fun _ s =>
    let e := (s.mill m.val).qe ep.val
    if e.mode ≠ 4 then .exc Exc.QERR 0
    else match e.comps with
      | [] => putS m.val f.da.val (wd (e.outst % 256 * 256)) s
      | c :: rest =>
        putS m.val f.da.val (wd (c.toNat + 128 + e.outst % 256 * 256))
          (s.mapMill m.val (fun x => x.mapQe ep.val (fun e => { e with comps := rest })))) s)

/-! ### DMA commands and counters (R283, R318) -/

/-- The word of a DMA instruction. -/
def encD (f : FmtA) (op c : Nat) : BitVec 32 := encA 0x34 f (op * 16 + c)

/-- DMAQ: the descriptor enters the command queue; a queue that holds 64 stalls the stream. -/
def execDmaq (m : Fin 256) (f : FmtA) (c : Fin 16) (s : State) : Res :=
  .next (runInstr m.val (encD f 0 c.val) (fun a s =>
    let x := s.mill m.val
    let addr := x.sr f.sa.val
    needZero (f.da.val == 0)
      (if addr.toNat % 64 ≠ 0 then .exc Exc.ALIGN addr
      else match ownBytes s a m.val addr 64 with
        | none => .exc Exc.ACCESS addr
        | some o =>
          if 64 ≤ x.dmaq.length then .stall
          else .done (s.mapMill m.val (fun x => { x with dmaq := x.dmaq ++ [wordsOf 8 (s.scratch m.val o 64)] })))) s)

/-- DWAIT and DWAITF. -/
def dwaitTry (m c sb da : Nat) (raise : Bool) (s : State) : MRes :=
  let x := s.mill m
  let k := x.counter c
  if k.1.toNat < (x.sr sb).toNat then .wait (.dwait c sb da raise) s
  else
    let s := if x.wait = .dwait c sb da raise then millSync m 4 c m (x.sr sb).toNat x.lastNode s else s
    if raise ∧ k.2 ≠ 0 then .exc Exc.DMAFAIL 0 k.2
    else putS m da (wd k.2.toNat) s

/-- DWAIT. -/
def execDwait (m : Fin 256) (f : FmtA) (c : Fin 16) (s : State) : Res :=
  .next (runInstr m.val (encD f 1 c.val) (fun _ s => dwaitTry m.val c.val f.sb.val f.da.val false s) s)

/-- DREAD. -/
def execDread (m : Fin 256) (f : FmtA) (c : Fin 16) (s : State) : Res :=
  .next (runInstr m.val (encD f 2 c.val) (fun _ s =>
    let k := (s.mill m.val).counter c.val
    putS m.val f.da.val (wd (k.1.toNat + k.2.toNat * 2 ^ 32)) s) s)

/-- DCLR. -/
def execDclr (m : Fin 256) (f : FmtA) (c : Fin 16) (s : State) : Res :=
  .next (runInstr m.val (encD f 3 c.val) (fun _ s =>
    .done (s.mapMill m.val (fun x => { x with cnt := Tbl.put x.cnt c.val (0, 0) }))) s)

/-- DLOG. -/
def execDlog (m : Fin 256) (f : FmtA) (c : Fin 16) (s : State) : Res :=
  .next (runInstr m.val (encD f 4 c.val) (fun a s =>
    let x := s.mill m.val
    let addr := x.sr f.sa.val
    match x.errs with
    | [] => putS m.val f.da.val 0 s
    | e :: rest => match ownBytes s a m.val addr 24 with
      | none => .exc Exc.ACCESS addr
      | some o =>
        if o < s.textEnd a then .exc Exc.ACCESS addr
        else putS m.val f.da.val (wd rest.length)
          ((s.setScratch m.val o (bytesOf 8 e.1.toNat ++ wordBytes e.2.1 ++ bytesOf 8 e.2.2.toNat)).mapMill m.val
            (fun x => { x with errs := rest }))) s)

/-- DWAITF. -/
def execDwaitf (m : Fin 256) (f : FmtA) (c : Fin 16) (s : State) : Res :=
  .next (runInstr m.val (encD f 5 c.val) (fun _ s => dwaitTry m.val c.val f.sb.val f.da.val true s) s)

/-! ### Control words (R295, R319) -/

/-- A control word; none for a reserved one. CYCLE counts mill clocks, which the model does not have: a
free value (log entry 6). -/
def controlWord (s : State) (a m k : Nat) : Option (Word × State) :=
  let x := s.mill m
  let f := fun (g : Nat → Fld) => s.fl (g a)
  match k with
  | 0 => some (wd (m + a * 2 ^ 8 + (m % 16 - f F.ALLOT_STS_W0_X0) * 2 ^ 14 + (m / 16 - f F.ALLOT_STS_W0_Y0) * 2 ^ 18 +
      f F.ALLOT_STS_W0_WM1 * 2 ^ 22 + f F.ALLOT_STS_W0_HM1 * 2 ^ 26), s)
  | 1 => some (x.arg, s)
  | 2 => some (wd (s.qdNode.toNat + s.qdPlane * 2 ^ 14), s)
  | 3 => some (if (s.shareOf a).2 = 0 then 0 else wd (0x200000000 + (s.shareOf a).1), s)
  | 4 => some (wd (s.shareOf a).2, s)
  | 5 => some (wd (0x230000000 + 1024 * a), s)
  | 8 => some (wd (x.cause.toNat + b2n x.inh * 128), s)
  | 9 => some (wd x.epc.toNat, s)
  | 10 => some (x.eaddr, s)
  | 11 => some (wd x.handler.toNat, s)
  | 12 => some (wd (x.estat.toNat + x.first.toNat * 128), s)
  | 16 => let d := draw 64 s; some d
  | 17 => some (wd s.qd.aon.ns.toNat, s)
  | 18 => some (x.retired, s)
  | _ => if 24 ≤ k ∧ k ≤ 31 then some ((x.qe (k - 24)).cfg, s) else none

/-- Write a control word; none where a field marked RO would be written (R295, log entry 30). -/
def setControl (m k : Nat) (v : Word) (s : State) : Option State :=
  if v.toNat < 2 ^ 21 then
    if k = 9 then some (s.mapMill m (fun x => { x with epc := v.setWidth 21 }))
    else if k = 11 then some (s.mapMill m (fun x => { x with handler := v.setWidth 21 }))
    else none
  else none

/-- The word of a CSR instruction: the operation stands in IMM16 [7:6]. -/
def encCsr (f : FmtI) (op : Nat) : BitVec 32 :=
  encI 0x38 { f with imm := BitVec.ofNat 16 (f.imm.toNat / 256 * 256 + op * 64 + f.imm.toNat % 64) }

/-- Run a CSR operation: `new` gives the word written from the old one and sSA. -/
def csr (m : Nat) (f : FmtI) (op : Nat) (new : Option (Word → Word → Word)) (s : State) : State :=
  runInstr m (encCsr f op) (fun a s =>
    let k := f.imm.toNat % 64
    needZero (f.imm.toNat / 256 == 0)
      (match controlWord s a m k with
      | none => .exc Exc.ILLEGAL (wd k)
      | some (old, t) =>
        let put := fun (t : State) => if op = 1 then MRes.done t else putS m f.da.val old t
        match new with
        | none => put t
        | some g => match setControl m k (g old ((s.mill m).sr f.sa.val)) t with
          | none => .exc Exc.ILLEGAL (wd k)
          | some t => put t)) s

/-- CSR operation 0. -/
def execCsrRead (m : Fin 256) (f : FmtI) (s : State) : Res := .next (csr m.val f 0 none s)
/-- CSR operation 1. -/
def execCsrWrite (m : Fin 256) (f : FmtI) (s : State) : Res := .next (csr m.val f 1 (some (fun _ v => v)) s)
/-- CSR operation 2. -/
def execCsrSwap (m : Fin 256) (f : FmtI) (s : State) : Res := .next (csr m.val f 2 (some (fun _ v => v)) s)
/-- CSR operation 3. -/
def execCsrSet (m : Fin 256) (f : FmtI) (s : State) : Res := .next (csr m.val f 3 (some (fun k v => k ||| v)) s)

/-! ### SYS (R320, R321) -/

/-- Run a SYS function whose unused fields must be zero. -/
def sys (m : Nat) (f : FmtA) (fn : Nat) (ok : Bool) (body : Nat → State → MRes) (s : State) : State :=
  runInstr m (encA 0x39 f fn) (fun a s => needZero ok (body a s)) s

/-- DA, SA and SB are zero. -/
def noRegs (f : FmtA) : Bool := f.da.val == 0 && f.sa.val == 0 && f.sb.val == 0

/-- NOP. -/
def execSysNop (m : Fin 256) (f : FmtA) (s : State) : Res := .next (sys m.val f 0 (noRegs f) (fun _ s => .done s) s)

/-- FENCE: every earlier VQ0 request has been answered; a failed store is observed. -/
def fenceTry (m : Nat) (s : State) : MRes :=
  let x := s.mill m
  if !x.vq0.isEmpty ∨ !x.vq1.isEmpty then .wait .fence s else observe m s (fun _ => .done s)

/-- FENCE. -/
def execSysFence (m : Fin 256) (f : FmtA) (s : State) : Res :=
  .next (sys m.val f 1 (noRegs f) (fun _ s => fenceTry m.val s) s)

/-- HALT: the program ends normally. -/
def execSysHalt (m : Fin 256) (f : FmtA) (s : State) : Res :=
  .next (sys m.val f 2 (noRegs f) (fun _ s =>
    .stopped (millStop m.val .ended (s.mapMill m.val (fun x => { x with retired := x.retired + 1 })))) s)

/-- BRK: a debug halt after it when BRK_EN is 1 (log entry 31), else the BRK exception. -/
def execBrk (m : Fin 256) (f : FmtA) (s : State) : Res :=
  .next (sys m.val f 3 (noRegs f) (fun _ s =>
    if (s.mill m.val).brkEn then
      .stopped (s.mapMill m.val (fun x => { x with pc := x.pc + 4, retired := x.retired + 1, dhalt := true,
                                                   reason := 2, stepping := false, pass := false }))
    else .exc Exc.BRK 0) s)

/-- ERET. -/
def execEret (m : Fin 256) (f : FmtA) (s : State) : Res :=
  .next (sys m.val f 4 (noRegs f) (fun _ s =>
    if (s.mill m.val).inh then
      .jump (s.mapMill m.val (fun x => { x with inh := false })) (wd (s.mill m.val).epc.toNat)
    else .exc Exc.ILLEGAL 0) s)

/-- Error statuses that R70 lists. -/
def listedError (st : BitVec 7) : Bool :=
  [St.NOWIN, St.STALE, St.CTX, St.PERM, St.UNMAPPED, St.BOUNDS, St.KEY, St.COMPL, St.CHECK, St.DATA, St.LOST,
   St.INDET, St.ABORT, St.ABSENT, St.DESC].contains st

/-- ABORT. -/
def execSysAbort (m : Fin 256) (f : FmtA) (s : State) : Res :=
  .next (sys m.val f 5 (f.da.val == 0 && f.sb.val == 0) (fun _ s =>
    let v : BitVec 7 := ((s.mill m.val).sr f.sa.val).setWidth 7
    .exc Exc.ABORT 0 (if listedError v then v else St.ABORT)) s)

/-- BAR: the last mill to arrive releases every mill of the allotment; a broken barrier returns 1. -/
def execBar (m : Fin 256) (f : FmtA) (s : State) : Res :=
  .next (sys m.val f 6 (f.sa.val == 0 && f.sb.val == 0) (fun a s =>
    if (s.allot a).broken then putS m.val f.da.val 1 s
    else
      let l := if (s.allot a).arrived.contains m.val then (s.allot a).arrived else (s.allot a).arrived ++ [m.val]
      let s := s.mapAllot a (fun x => { x with arrived := l })
      if (s.millsOf a).all (fun k => l.contains k) then
        putS m.val f.da.val 0 (releaseBar a 0 m.val (s.mapMill m.val (fun x => { x with wait := .none })))
      else .wait (.bar f.da.val) s) s)

/-- WAITT: wait until TIME reaches sSA. -/
def waittTry (m sa : Nat) (s : State) : MRes :=
  if ((s.mill m).sr sa).toNat ≤ s.qd.aon.ns.toNat then .done s else .wait (.waitt sa) s

/-- WAITT. -/
def execWaitt (m : Fin 256) (f : FmtA) (s : State) : Res :=
  .next (sys m.val f 7 (f.da.val == 0 && f.sb.val == 0) (fun _ s => waittTry m.val f.sa.val s) s)

/-- TFENCE. -/
def execTfence (m : Fin 256) (f : FmtA) (s : State) : Res :=
  .next (sys m.val f 8 (noRegs f) (fun _ s => tfenceTry m.val s) s)

/-- Attempt again the instruction that a mill waits at. -/
def millRetry (m : Nat) (s : State) : State :=
  let x := s.mill m
  match s.allotOf m with
  | none => s
  | some a =>
    if x.run ≠ .running ∨ x.dhalt ∨ 4 ≤ s.alState a then s
    else match x.wait with
      | .send ep sa sb => finishInstr a m s (sendTry a m ep sa sb s)
      | .recv ep sa da => finishInstr a m s (recvTry a m ep sa da s)
      | .dwait c sb da r => finishInstr a m s (dwaitTry m c sb da r s)
      | .waitt sa => finishInstr a m s (waittTry m sa s)
      | .fence => finishInstr a m s (fenceTry m s)
      | .tfence => finishInstr a m s (tfenceTry m s)
      | _ => s

/-- WAITT_EXPIRE: TIME has reached the value that WAITT waits for. -/
def execWaittExpire (m : Fin 256) (s : State) : Res :=
  .next (
    match (s.mill m.val).wait with
    | .waitt _ => millRetry m.val s
    | _ => s)

/-! ### The mesh (R270, R273, R274, R301) -/

/-- A swap on a lease word: the VALUE before it, and the word after it (R270). -/
def leaseSwap (m : Nat) (v : Word) (l : Lease) : Lease :=
  if l.held then
    if l.holder.toNat = m then (if v = 0 then {} else { l with value := v }) else l
  else if v = 0 then { l with value := 0 }
  else { value := v, held := true, holder := BitVec.ofNat 8 m }

/-- Perform a VQ0 request at its destination: whether it failed, and the bytes it returns. -/
def meshPerform (a m : Nat) (r : MeshReq) (s : State) : Bool × List Byte × State :=
  match s.reach a m r.addr r.len with
  | none => (true, [], s)
  | some t =>
    match r.op with
    | .load => (false, s.gridRead t r.len, s)
    | .store => if s.writable a t then (false, [], s.gridWrite true t r.data) else (true, [], s)
    | .message _ => (true, [], s)
    | op =>
      match t with
      | .lease w _ =>
        let l := Tbl.at s.qd.grid.lease w
        let t := Tbl.put s.qd.grid.lease w (leaseSwap m (wd (natOf r.data)) l)
        (false, wordBytes l.value, s.mapGrid (fun g => { g with lease := t }))
      | t =>
        if s.writable a t then
          let old := s.gridRead t r.len
          (false, old, s.gridWrite true t (bytesOf r.len (atomValue op r.len (natOf old) (natOf r.data))))
        else (true, [], s)

/-- The first VQ0 request that is or is not a message and that no earlier request of the mill to its
destination precedes (R274): its place. -/
def firstVq0 (msg : Bool) (l : List MeshReq) : Option Nat :=
  (List.range l.length).find? (fun i => match l[i]? with
    | none => false
    | some r => (match r.op with
        | .message _ => msg
        | _ => !msg) && (l.take i).all (fun q => q.dst != r.dst))

/-- MESH_REQUEST: a request of a mill is performed and answered on VQ1. -/
def execMeshRequest (src : Fin 256) (s : State) : Res :=
  .next (
    let m := src.val
    let l := (s.mill m).vq0
    match firstVq0 false l, s.allotOf m with
    | some i, some a =>
      match l[i]? with
      | none => s
      | some r =>
        let p := meshPerform a m r s
        p.2.2.mapMill m (fun x => { x with vq0 := x.vq0.eraseIdx i,
                                           vq1 := x.vq1 ++ [⟨r.op, r.addr, p.1, p.2.1⟩] })
    | _, _ => s)

/-- A load or atomic that waits for its response ends. -/
def endRemote (m : Nat) (r : MeshRsp) (use : Mill → Mill) (s : State) : State :=
  if r.fail then millExc m Exc.ACCESS (wd r.addr) 0 s
  else millNext m (s.nextPc m) (s.mapMill m use)

/-- MESH_RESPONSE: the oldest response of a mill. -/
def execMeshResponse (m : Fin 256) (s : State) : Res :=
  .next (
    match (s.mill m.val).vq1 with
    | [] => s
    | r :: rest =>
      let s := s.mapMill m.val (fun x => { x with vq1 := rest })
      let isStore := match r.op with
        | .store => true
        | .message _ => true
        | _ => false
      if isStore then
        millRetry m.val (if r.fail ∧ (s.mill m.val).storeFail = none then
          s.mapMill m.val (fun x => { x with storeFail := some r.addr }) else s)
      else match (s.mill m.val).wait with
        | .load da n sg => endRemote m.val r (fun x => x.setSr da (loadValue sg n r.data)) s
        | .vload vd => endRemote m.val r (fun x => x.setVr vd (vecOf r.data)) s
        | .atom da => endRemote m.val r (fun x => x.setSr da (wd (natOf r.data))) s
        | _ => s)

/-- A message enters an endpoint, and a QRECV that waits there proceeds. -/
def enqueueMsg (m ep : Nat) (k : MsgEnt) (s : State) : State :=
  millRetry m (s.mapMill m (fun x =>
    { x.mapQe ep (fun e => { e with entries := e.entries ++ [k] }) with msgIn := x.msgIn + 1 }))

/-- MESH_MESSAGE: a message of a mill arrives. An endpoint that does not name the sender takes none: the
request fails (log entry 28). -/
def execMeshMessage (src : Fin 256) (s : State) : Res :=
  .next (
    let m := src.val
    let l := (s.mill m).vq0
    match firstVq0 true l, s.allotOf m with
    | some i, some a =>
      match l[i]? with
      | none => s
      | some r =>
        match r.op with
        | .message ep =>
          let e := (s.mill r.dst).qe ep
          let ok := s.inAllot a r.dst && e.mode == 1 && e.pmill == m && e.pq == r.addr % 8
          if ok ∧ 8 ≤ e.entries.length then s
          else
            let s := s.mapMill m (fun x => { x with vq0 := x.vq0.eraseIdx i,
                                                    vq1 := x.vq1 ++ [⟨r.op, r.addr, !ok, []⟩] })
            if ok then enqueueMsg r.dst ep { fabric := false, src := m, que := 0, data := r.data } s else s
        | _ => s
    | _, _ => s)

/-- MESSAGE_CREDIT_RETURN: a credit reaches the sender, and a QSEND that waits for it may proceed. -/
def execMessageCreditReturn (m : Fin 256) (q : Fin 8) (s : State) : Res :=
  .next (
    let e := (s.mill m.val).qe q.val
    if e.back = 0 then s
    else millRetry m.val (s.mapMill m.val (fun x => x.mapQe q.val (fun e =>
      { e with back := e.back - 1, credits := if e.mode = 2 then min 8 (e.credits + 1) else e.credits }))))

/-- LEASE_EXPIRE: the lease of a word that is held ends (R270). -/
def execLeaseExpire (w : Fin 4096) (s : State) : Res :=
  .next (if s.qd.boot.gp then s
    else clearLeases Cat.TIMEOUT (s.fl F.GRID_CTL_LEASE_TMO * 1000) (fun k _ => k == w.val) s)

/-! ### Messages from the fabric (R277) -/

/-- The first failing check on a message to a mill. -/
def millMsgCheck (p : Packet) (s : State) : Option (BitVec 7) :=
  let m := p.off % 256
  if p.off / 256 ≠ 0 ∨ 7 < p.aux then some St.DESC
  else if millCount s.qd.variant ≤ m ∨ !(s.unitOn 0 0) ∨ s.qd.boot.gp then some St.ABSENT
  else if p.kslot ≠ 0 then some St.PERM
  else
    let e := (s.mill m).qe p.aux
    if e.mode ≠ 3 then some St.NOWIN
    else if p.ctx ≠ s.millCtx m then some St.CTX
    else if 8 ≤ e.entries.length then some St.LOST
    else none

/-- MILL_MSG_RECEIVE: a message to window 50. It is entered in the Ledger in arrival order (R505). -/
def execMillMsgReceive (v : Via) (p : Packet) (s : State) : Res :=
  .next (
    if v.isSv ∨ p.rsp ∨ p.win ≠ 50 ∨ p.opc ≠ Opc.MSG ∨ s.fenced then s
    else match rxForm [p] with
      | some st => rxFail v [p] p st s
      | none =>
        if s.bankFor v p.dst ≠ some .own then failPkt v p St.LOST none s
        else
          let m := p.off % 256
          match millMsgCheck p s with
          | some st =>
            let ev : Ev := { cat := Cat.RESOURCE, obj := Obj.MSGQ, ctx := p.ctx, status := st,
                             arg0 := wd (m * 8 + p.aux), arg1 := 8 }
            let s := if st = St.LOST then
              (s.event (Rg.mill m) ev).mapMill m (fun x => { x with msgRefused := x.msgRefused + 1 }) else s
            failPkt v p st none s
          | none =>
            let s := s.journal Lg.MSG p.ctx 0x09 m
              (bytesOf 2 m ++ bytesOf 2 p.aux ++ bytesOf 2 p.src.toNat ++ bytesOf 2 p.que.toNat ++
                bytesOf 2 p.len ++ List.replicate 6 0 ++ p.data)
            reply v (p.answer St.OK)
              (enqueueMsg m p.aux { fabric := true, src := p.src.toNat, que := p.que.toNat, data := p.data } s))

end Sys2Proof.Machine
end

