-- ==== Sys2Proof/Machine/Watch.lean ====
section
/-! DEFINITION. Tensor watch (R501-R503). -/

namespace Sys2Proof.Machine

/-- An output item that may be watched: kind, context, key, index, allotment and counter (KIND 2), format,
element count, element bytes, scale bytes and whether its context is protected. -/
structure WatchItem where
  kind : Nat
  ctx : BitVec 16
  key : Nat
  index : Nat
  allot : Nat := 0
  cnt : Nat := 0
  fmt : Nat
  n : Nat
  data : List Byte
  scales : List Byte := []
  prot : Bool := false
  deriving DecidableEq, Repr

/-- The values of an item's elements (R207, R208, R210, R221). -/
def WatchItem.values (w : WatchItem) : List Num :=
  if afmtFloat w.fmt then (List.range w.n).map (afmtNum w.fmt w.data w.scales)
  else if w.fmt = 14 then match gwinDec ((w.n + 15) / 16) w.data with
    | some as => (as.take w.n).map Acc.num
    | none => []
  else (List.range w.n).map (fun i => (afmtElem w.fmt w.data w.scales i).num)

/-- Order of finite values with −0 below +0. -/
def numBelow (a b : Num) : Bool :=
  a.lt b || (!(b.lt a) && (match a, b with
    | .fin s _ _, .fin t _ _ => s && !t
    | _, _ => false))

/-- A positive rational rounded by RNE to FP32: n ÷ d times 2^e, by its leading bits and a sticky bit. -/
def f32Ratio (neg : Bool) (n d : Nat) (e : Int) : Nat :=
  let k := Nat.log2 d + 64
  let q := n * 2 ^ k / d
  let m := 2 * q + b2n (decide (n * 2 ^ k % d ≠ 0))
  Fp.f32.enc .rne false (.fin neg m (e - Int.ofNat k - 1))

/-- The integer square root by its bits from `k` down. -/
def rootBits (n : Nat) : Nat → Nat → Nat
  | 0, r => r
  | k + 1, r => rootBits n k (if (r + 2 ^ k) * (r + 2 ^ k) ≤ n then r + 2 ^ k else r)

/-- The square root of n times 2^e rounded by RNE to FP32. -/
def f32Root (n : Nat) (e : Int) : Nat :=
  if n = 0 then 0
  else
    let odd := if e % 2 = 0 then 0 else 1
    let v := n * 2 ^ odd * 2 ^ 128
    let r := rootBits v (Nat.log2 v / 2 + 1) 0
    let m := 2 * r + b2n (decide (r * r ≠ v))
    Fp.f32.enc .rne false (.fin false m ((e - Int.ofNat odd) / 2 - 64 - 1))

/-- N, NNAN, NINF, MIN, MAX, MEAN and L2 of an item (R503). -/
def watchStats (vs : List Num) : List Nat :=
  let fin := vs.filter (fun v => match v with
    | .fin _ _ _ => true
    | _ => false)
  let nan := (vs.filter (fun v => decide (v = .nan))).length
  let inf := vs.length - fin.length - nan
  match fin with
  | [] => let q := Fp.f32.nanCode
          [0, nan, inf, q, q, q, q]
  | v :: rest =>
    let lo := rest.foldl (fun a b => if numBelow b a then b else a) v
    let hi := rest.foldl (fun a b => if numBelow a b then b else a) v
    let enc := Fp.f32.enc .rne false
    let sum := fin.foldl Num.add (.fin true 0 0)
    let sq := fin.foldl (fun (a b : Num) => a.add (b.mul b)) (.fin false 0 0)
    let mean := match sum with
      | .fin s m e => if m = 0 then Fp.f32.signBit s else f32Ratio s m fin.length e
      | n => enc n
    let l2 := match sq with
      | .fin _ m e => f32Root m e
      | n => enc n
    [fin.length, nan, inf, enc lo, enc hi, mean, l2]

/-- Formats whose elements the bytes of a mill's write give by themselves. -/
def fmtPlain (f : Nat) : Bool := !(afmtMx f) && decide (f ≤ 13)

/-- The statistics of an item. A mill's write holds no MX scales and no element count of a GWIN stream, and
the spec gives no meaning to the reserved format: free values (log entry 34). -/
def watchNumbers (w : WatchItem) (s : State) : List Nat × State :=
  if w.prot then (List.replicate 7 0, s)
  else if w.kind = 2 ∧ !(fmtPlain w.fmt) then
    (List.range 7).foldl (fun (r : List Nat × State) _ =>
      let d := draw 32 r.2
      (r.1 ++ [d.1.toNat], d.2)) ([], s)
  else (watchStats w.values, s)

/-- Watch an item by one entry. An item that finds the digest engine busy is skipped: which one does is
open, a free value (log entry 34). -/
def watchBy (w : WatchItem) (i : Nat) (s : State) : State :=
  let on := s.flag (F.TW_ENTRY_W0_EN i) && s.fl (F.TW_ENTRY_W0_CTX i) == w.ctx.toNat &&
    s.fl (F.TW_ENTRY_W0_KIND i) == w.kind && w.index % 2 ^ s.fl (F.TW_ENTRY_W1_SLOG2 i) == 0 &&
    (if w.kind = 2 then s.fl (F.TW_ENTRY_W0_ALLOT i) == w.allot && s.fl (F.TW_ENTRY_W0_CNT i) == w.cnt
     else s.fl (F.TW_ENTRY_W1_KEY i) == w.key || s.fl (F.TW_ENTRY_W1_KEY i) == 0xFFFFFFFF)
  if !on then s
  else
    let b := draw 1 s
    if b.1 = 1 then b.2.count F.TW_SKIP_SKIP
    else
      let w := if w.kind = 2 then { w with fmt := b.2.fl (F.TW_ENTRY_W0_FMT i) } else w
      let w := if w.kind = 2 then { w with n := w.data.length * 8 / max 1 (afmtBits w.fmt) } else w
      let st := watchNumbers w b.2
      let s := st.2
      let body := wordBytes s.stamp ++ bytesOf 4 w.key ++ bytesOf 4 w.index ++ bytesOf 2 w.ctx.toNat ++
        bytesOf 1 (i + w.kind * 16) ++ bytesOf 1 (b2n w.prot) ++ st.1.flatMap (bytesOf 4) ++
        bytesOf 16 (Config.sha3 (w.data ++ w.scales)).toNat
      let s := (List.range 8).foldl (fun s k => s.setRg (R.TW_LAST (8 * i + k)) (wordAt body (8 * k))) s
      let s := s.compare Lg.WATCH (fun r => slice r 8 11 == slice body 8 11) (fun r => slice r 19 45 == slice body 19 45)
      if s.flag F.LG_CTL_EN then s.lgWrite Lg.WATCH w.ctx (if w.kind = 2 then 0x09 else 0x08) 0 body else s

/-- Watch an item by every entry that selects it. While TWATCH is gated nothing is watched (R423), and on
the QD1-5 KINDs 1 and 2 watch nothing. -/
def State.watch (s : State) (w : WatchItem) : State :=
  if !(s.flag F.CLK_ENABLE_TWATCH) ∨ (s.qd.variant = .qd15 ∧ w.kind ≠ 0) then s
  else (List.range 16).foldl (fun s i => watchBy w i s) s

end Sys2Proof.Machine
end

