-- ==== Sys2Proof/Machine/Dma.lean ====
section
/-! DEFINITION. The DMA engine of a mill (R279-R283). -/

namespace Sys2Proof.Machine

/-! ### The descriptor (R279) -/

namespace Td
def srca (w : List Word) : Word := w.getD 0 0
def dsta (w : List Word) : Word := w.getD 1 0
def rowLen (w : List Word) : Nat := fget (w.getD 2 0) 0 17
def rows (w : List Word) : Nat := fget (w.getD 2 0) 17 17
def sstride (w : List Word) : Nat := fget (w.getD 3 0) 0 44
def dstride (w : List Word) : Nat := fget (w.getD 4 0) 0 44
def kind (w : List Word) : Nat := fget (w.getD 5 0) 0 3
def cls (w : List Word) : BitVec 2 := BitVec.ofNat 2 (fget (w.getD 5 0) 3 2)
def gen (w : List Word) : Byte := BitVec.ofNat 8 (fget (w.getD 5 0) 5 8)
def prot (w : List Word) : Bool := bitAt (w.getD 5 0) 13
def strm (w : List Word) : Bool := bitAt (w.getD 5 0) 14
def cnt (w : List Word) : Nat := fget (w.getD 5 0) 15 4
def step (w : List Word) : Nat := fget (w.getD 6 0) 0 44
def user (w : List Word) : Word := w.getD 7 0
/-- Bytes moved. -/
def total (w : List Word) : Nat := rowLen w * rows w
abbrev READ := 0
abbrev WRITE := 1
abbrev COPY := 2
abbrev FENCE := 3
abbrev RELST := 4
abbrev ACQLD := 5
/-- The kind moves a tile. -/
def tile (w : List Word) : Bool := decide (kind w ≤ 2)
/-- The fabric address that the descriptor names. -/
def fa (w : List Word) : Word := if kind w = WRITE ∨ kind w = RELST then dsta w else srca w
/-- The kind names a fabric address. -/
def fabric (w : List Word) : Bool := !(kind w == COPY || kind w == FENCE)
/-- The fabric side of a tile as a geometry. -/
def geom (w : List Word) : Geom :=
  mkGeom (rowLen w) (rows w) (if kind w = WRITE then dstride w else sstride w) (faWoff (fa w)).toNat
/-- The opcode of its fabric requests. -/
def opc (w : List Word) : Nat :=
  match kind w with
  | 0 => Opc.TRD
  | 1 => Opc.TWR
  | 4 => Opc.STA
  | _ => Opc.LD
end Td

/-- The rules of R279 and R280 on a descriptor's words, and of R61 to R64 on its requests. -/
def descOk (w : List Word) : Bool :=
  let k := Td.kind w
  decide (k ≤ 5) && fget (w.getD 2 0) 34 30 == 0 && fget (w.getD 5 0) 19 45 == 0 &&
  (if k ≤ 2 then
    fget (w.getD 3 0) 44 20 == 0 && fget (w.getD 4 0) 44 20 == 0 && fget (w.getD 6 0) 44 20 == 0 &&
    decide (1 ≤ Td.rowLen w) && decide (Td.rowLen w ≤ 65536) && decide (1 ≤ Td.rows w) &&
    decide (Td.rows w ≤ 65536) && decide (Td.total w ≤ 65536) &&
    (decide (Td.rows w = 1) || (decide (Td.rowLen w ≤ Td.sstride w) && decide (Td.rowLen w ≤ Td.dstride w)))
  else if k = Td.FENCE then true
  else
    Td.rowLen w == 8 && Td.rows w == 1 && clsOk (Td.opc w) (Td.cls w) &&
    sizeOk (Td.opc w) 0 8 (faOff (Td.fa w)) (faWin (Td.fa w)))

/-- Targets of the rows of a grid side; none when a row cannot be reached. -/
def rowTargets (s : State) (a m : Nat) (base : Word) (rowLen rows stride : Nat) : Option (List Target) :=
  (List.range rows).mapM (fun r => s.reach a m (base.toNat + r * stride) rowLen)

/-- The targets that a descriptor reads in the grid, and those that it writes. -/
def descTargets (s : State) (a m : Nat) (w : List Word) : Option (List Target × List Target) :=
  let src := rowTargets s a m (Td.srca w) (Td.rowLen w) (Td.rows w) (Td.sstride w)
  let dst := rowTargets s a m (Td.dsta w) (Td.rowLen w) (Td.rows w) (Td.dstride w)
  match Td.kind w with
  | 0 => dst.map (fun d => ([], d))
  | 1 => src.map (fun x => (x, []))
  | 2 => src.bind (fun x => dst.map (fun d => (x, d)))
  | 3 => some ([], [])
  | 4 => src.map (fun x => (x, []))
  | _ => dst.map (fun d => ([], d))

/-- The status with which a descriptor that is not performed completes (R280, R282, R444). -/
def descStatus (s : State) (a m : Nat) (w : List Word) : BitVec 7 :=
  if !(descOk w) then St.DESC
  else if Td.prot w ∧ !(s.flag (F.ALLOT_STS_W0_PROT a)) then St.DESC
  else match descTargets s a m w with
    | none => St.DESC
    | some (_, ts) =>
      if ts.any (fun t => !(s.writable a t)) then St.DESC
      else if Td.fabric w ∧ !(s.unitReach (faNode (Td.fa w))) then St.LOST
      else if Td.fabric w ∧ Td.prot w ∧ !(s.keyAtSource .own (s.fl (F.ALLOT_STS_W0_KSLOT a))) then St.KEY
      else St.OK

/-! ### Requests -/

/-- Key slot that a descriptor's requests carry. -/
def descSlot (s : State) (a : Nat) (w : List Word) : BitVec 6 :=
  if Td.prot w then BitVec.ofNat 6 (s.fl (F.ALLOT_STS_W0_KSLOT a)) else 0

/-- Header of the fabric requests of a descriptor. -/
def descHdr (s : State) (a m : Nat) (w : List Word) (opc ord : Nat) : Hdr :=
  { dst := faNode (Td.fa w), ctx := BitVec.ofNat 16 (s.fl (F.ALLOT_STS_W0_CTX a)), opc := opc,
    kslot := descSlot s a w, src := s.qdNode, cls := Td.cls w, gen := Td.gen w, que := m, ord := ord,
    woff := (faWoff (Td.fa w)).toNat }

/-- Data of a tile enciphered or deciphered at its fabric side (R379). -/
def descCrypt (s : State) (a : Nat) (dec : Bool) (w : List Word) (d : List Byte) : List Byte :=
  if Td.prot w then
    xtsData dec (s.keySlot .own (descSlot s a w).toNat).key (Td.gen w)
      (fun i => Td.fa w + wd ((Td.geom w).byteOff (64 * i) - (Td.geom w).base)) d
  else d

/-- The lines that runs of offsets touch. -/
def linesOf (runs : List (Nat × Nat)) : List Nat :=
  (runs.flatMap (fun r => (runPages 128 r.1 r.2).map (fun q => 128 * q.1))).eraseDups

/-- Parts of a read from the fabric: tile reads, or one RDNA for each line of a coherent window, relayed
unless this plane is its home (R161). `runs` are the offsets that a read of no tile touches. -/
def readParts (s : State) (h : Hdr) (fa : Word) (g : Option Geom) (n : Nat) : List (List Packet) :=
  if (s.cohWin fa).isSome then
    let runs := match g with
      | some g => g.allRuns.map (fun r => (r.1, r.2.2))
      | none => [(faOff fa, n)]
    (linesOf runs).map (fun o =>
      let a := mkFa h.dst.toNat (faWin fa) o
      let far := s.homePlane ((a >>> 7).setWidth 57) != s.qdPlane
      [Hdr.packet { h with opc := Opc.RDNA, cls := 1, ord := 0, aux := b2n far, woff := (faWoff a).toNat } none none []])
  else match g with
    | some g => tileParts h g []
    | none => [[Hdr.packet { h with len := n } none none []]]

/-- Bytes of lines gathered at an offset. -/
def gatherLines (ls : List (Nat × List Byte)) (off n : Nat) : List Byte :=
  (List.range n).map (fun i =>
    match ls.find? (fun l => decide (l.1 ≤ off + i) && decide (off + i < l.1 + l.2.length)) with
    | some l => l.2.getD (off + i - l.1) 0
    | none => 0)

/-- Bytes that a read has returned: tile data by its places, or lines (each deciphered at its own address
by `dec`). -/
def readBytes (o : OutReq) (runs : List (Nat × Nat)) (dec : Nat → List Byte → List Byte) (n : Nat) : List Byte :=
  if o.parts.any (fun x => (x.pkts.headD default).opc == Opc.RDNA) then
    let ls := o.data.map (fun d => (d.1, dec d.1 d.2))
    runs.flatMap (fun r => gatherLines ls r.1 r.2)
  else o.bytes n

/-! ### Starting a descriptor -/

/-- Append a started descriptor, which leaves the command queue. -/
def dmaBegin (m : Nat) (w : List Word) (waits : Nat) (st : BitVec 7) (data : List Byte) (s : State) : Nat × State :=
  let id := (s.mill m).dmaNo
  let woff := if st = 0 ∨ !(Td.fabric w) then 0 else faWoff (Td.fa w)
  let run : DmaRun := { id := id, words := w, waits := waits, st := st, woff := woff, data := data }
  (id, s.mapMill m (fun x => { x with dmaq := x.dmaq.tail, dmaNo := x.dmaNo + 1, dmas := x.dmas ++ [run] }))

/-- DMA requests of a mill that are outstanding. -/
def State.dmaOut (s : State) (m : Nat) : Nat :=
  ((s.unitOut m).filter (fun o => match o.purpose with
    | .unit u _ _ _ => u == Un.DMA
    | _ => false)).length

/-- Send a descriptor's request; DMA_PEAK follows (R293). -/
def dmaSend (m id : Nat) (parts : List (List Packet)) (s : State) : State :=
  let s := unitReq { que := m, purpose := .unit Un.DMA m id 0, parts := parts } s
  s.mapMill m (fun x => { x with dmaPeak := BitVec.ofNat 16 (max x.dmaPeak.toNat (s.dmaOut m)) })

/-- Declare the fabric side as the engine's stream, in place of its previous one (R34, R281). The central
translation unit serves the QD1's own windows. -/
def declareStream (m : Nat) (w : List Word) (s : State) : State :=
  if !(Td.strm w) then s
  else s.mapNode .own (fun n =>
    let l := n.streams.filter (fun x => x.id != m)
    if faNode (Td.fa w) ≠ s.qdNode then { n with streams := l }
    else
      let g := Td.geom w
      let st : Stream := { id := m, win := faWin (Td.fa w), base := g.base, rowLen := g.rowLen, rows := g.rows,
                           stride := g.stride, step := Td.step w,
                           prefetch := decide ((l.filter (fun x => x.prefetch)).length < 1024) }
      { n with streams := l ++ [st] })

/-- Write the rows of a tile into the grid; common and foreign banks as well as scratch take it from outside
the stream (R267). -/
def writeRows (ts : List Target) (rowLen : Nat) (d : List Byte) (s : State) : State :=
  (ts.foldl (fun (r : Nat × State) t => (r.1 + 1, r.2.gridWrite true t (slice d (r.1 * rowLen) rowLen))) (0, s)).2

/-- Start the descriptor at the head of a mill's command queue when it has a kind. A reserved kind is taken by
any command. A FENCE or an acquire that has started holds it back, and a release waits for everything
before it (R123, R125, R126). -/
def dmaStart (m kind : Nat) (act : Nat → List Word → List Target × List Target → State → State) (s : State) : State :=
  let x := s.mill m
  match x.dmaq, s.allotOf m with
  | w :: _, some a =>
    if (Td.kind w ≠ kind ∧ Td.kind w ≤ 5) ∨ x.dmaHolds ∨ s.fenced then s
    else
      let st := descStatus s a m w
      match descTargets s a m w with
      | none => (dmaBegin m w 0 St.DESC [] s).2
      | some t =>
        if st ≠ St.OK then (dmaBegin m w 0 st [] s).2
        else if kind = Td.RELST ∧ (!(s.unitOut m).isEmpty ∨ s.qd.srcs.waits.any (fun y => y.que == m)) then s
        else act a w t s
  | _, _ => s

/-- DMA_READ. -/
def execDmaRead (m : Fin 256) (s : State) : Res :=
  .next (dmaStart m.val Td.READ (fun a w _ s =>
    let b := dmaBegin m.val w 1 0 [] (declareStream m.val w s)
    dmaSend m.val b.1 (readParts b.2 (descHdr b.2 a m.val w Opc.TRD 0) (Td.fa w) (some (Td.geom w)) 0) b.2) s)

/-- The rows of a tile read from the grid. -/
def readRows (s : State) (ts : List Target) (rowLen : Nat) : List Byte := ts.flatMap (fun t => s.gridRead t rowLen)

/-- DMA_WRITE. -/
def execDmaWrite (m : Fin 256) (s : State) : Res :=
  .next (dmaStart m.val Td.WRITE (fun a w t s =>
    let d := readRows s t.1 (Td.rowLen w)
    let b := dmaBegin m.val w 1 0 d (declareStream m.val w s)
    dmaSend m.val b.1 (tileParts (descHdr b.2 a m.val w Opc.TWR 0) (Td.geom w) (descCrypt b.2 a false w d)) b.2) s)

/-- COPY: the tile moves within the grid. -/
def execCopy (m : Fin 256) (s : State) : Res :=
  .next (dmaStart m.val Td.COPY (fun _ w t s =>
    writeRows t.2 (Td.rowLen w) (readRows s t.1 (Td.rowLen w)) (dmaBegin m.val w 0 0 [] s).2) s)

/-- DMA_FENCE: it completes once every earlier request of the mill's queue has been answered. A mill's queue
makes no posted write, so no FENCE packet is sent (R73, R123). -/
def execDmaFence (m : Fin 256) (s : State) : Res :=
  .next (dmaStart m.val Td.FENCE (fun _ w _ s => (dmaBegin m.val w 0 0 [] s).2) s)

/-- RELST: an STA with release. -/
def execRelst (m : Fin 256) (s : State) : Res :=
  .next (dmaStart m.val Td.RELST (fun a w t s =>
    let d := readRows s t.1 8
    let b := dmaBegin m.val w 1 0 [] s
    dmaSend m.val b.1 [[Hdr.packet { descHdr b.2 a m.val w Opc.STA 2 with len := 8 } none none
      (descCrypt b.2 a false w d)]] b.2) s)

/-- ACQLD: a load with acquire. -/
def execAcqld (m : Fin 256) (s : State) : Res :=
  .next (dmaStart m.val Td.ACQLD (fun a w _ s =>
    let b := dmaBegin m.val w 1 0 [] s
    dmaSend m.val b.1 (readParts b.2 (descHdr b.2 a m.val w Opc.LD 1) (Td.fa w) none 8) b.2) s)

/-! ### Answers and completion -/

/-- The data of a read lands (R283): deciphered, journalled by its digest, and written to the grid. -/
def dmaLand (a m : Nat) (w : List Word) (o : OutReq) (s : State) : State :=
  let tile := decide (Td.kind w = Td.READ)
  let n := if tile then Td.total w else 8
  let runs := if tile then (Td.geom w).allRuns.map (fun r => (r.1, r.2.2)) else [(faOff (Td.fa w), n)]
  let coh := o.parts.any (fun x => (x.pkts.headD default).opc == Opc.RDNA)
  let key := (s.keySlot .own (descSlot s a w).toNat).key
  let dec := fun (off : Nat) (d : List Byte) =>
    if Td.prot w then
      xtsData true key (Td.gen w) (fun i => mkFa (faNode (Td.fa w)).toNat (faWin (Td.fa w)) (off + 64 * i)) d
    else d
  let d := readBytes o runs dec n
  let d := if coh then d else descCrypt s a true w d
  let s := if tile then s.indig (s.millCtx m) 0x09 m (Td.fa w) d else s
  match descTargets s a m w with
  | none => s
  | some t => writeRows t.2 (Td.rowLen w) d s

/-- The request of a started descriptor has been answered. -/
def dmaDone (m id : Nat) (o : OutReq) (s : State) : State :=
  let s := s.mapMill m (fun x => { x with lastNode := ((o.parts.headD { pkts := [] }).pkts.headD default).dst })
  match (s.mill m).dmas.find? (fun d => d.id == id) with
  | none => s
  | some r =>
    let s := s.mapMill m (fun x => { x with
      dmas := x.dmas.map (fun d => if d.id = id then
        { d with waits := d.waits - 1, st := if d.st = 0 then o.st else d.st,
                 woff := if d.st = 0 then o.woff else d.woff } else d)
      xfer := if o.st = 0 then x.xfer + wd (Td.total r.words) else x.xfer })
    match s.allotOf m with
    | some a => if o.st = 0 ∧ (Td.kind r.words = Td.READ ∨ Td.kind r.words = Td.ACQLD) then dmaLand a m r.words o s else s
    | none => s

/-- Whether a started descriptor is over: its request answered, and for a FENCE every earlier request and
descriptor. -/
def dmaOver (s : State) (m : Nat) (r : DmaRun) : Bool :=
  r.waits == 0 &&
  (r.st != 0 || Td.kind r.words != Td.FENCE ||
    ((s.unitOut m).isEmpty && !(s.qd.srcs.waits.any (fun y => y.que == m)) &&
      (s.mill m).dmas.all (fun d => decide (r.id ≤ d.id) || d.waits == 0)))

/-- DMA_DESCRIPTOR_COMPLETE: COUNT rises; an error is kept in STATUS and in the log, whose oldest entry makes
room; a DWAIT may proceed. -/
def execDmaDescriptorComplete (m : Fin 256) (id : Nat) (s : State) : Res :=
  .next (
    match (s.mill m.val).dmas.find? (fun d => d.id == id) with
    | none => s
    | some r =>
      if !(dmaOver s m.val r) then s
      else
        let c := Td.cnt r.words
        let k := (s.mill m.val).counter c
        let k' := (k.1 + 1, if k.2 = 0 then r.st else k.2)
        let log := fun (l : List (BitVec 7 × Word × BitVec 50)) =>
          if r.st = 0 then l
          else (if 16 ≤ l.length then l.tail else l) ++ [(r.st, Td.user r.words, r.woff)]
        let s := s.mapMill m.val (fun x => { x with cnt := Tbl.put x.cnt c k', errs := log x.errs,
                                                    dmas := x.dmas.filter (fun d => d.id != id) })
        let item := fun (a : Nat) =>
          ({ kind := 2, ctx := s.millCtx m.val, key := (Td.user r.words).toNat % 2 ^ 32, index := k'.1.toNat,
             allot := a, cnt := c, fmt := 0, n := 0, data := r.data, prot := s.flag (F.ALLOT_STS_W0_PROT a) } : WatchItem)
        let s := match s.allotOf m.val with
          | some a => if Td.kind r.words = Td.WRITE ∧ r.st = 0 then s.watch (item a) else s
          | none => s
        millRetry m.val s)

end Sys2Proof.Machine
end

