-- ==== Sys2Proof/Machine/MillDebug.lean ====
section
/-! DEFINITION. The debug window and the telemetry block of the mills (R293, R327, R328, R455). -/

namespace Sys2Proof.Machine

/-- Offset of a mill's debug window in window 63 (R327). -/
def debugBase (m : Nat) : Nat := 0x8100000 + 0x8000 * m

/-- The mill exists and the grid's clock is on (R4). -/
def State.millThere (s : State) (m : Nat) : Bool := decide (m < millCount s.qd.variant) && s.unitOn 0 0

/-- The mill's allotment is protected (R327, R455). -/
def State.millProt (s : State) (m : Nat) : Bool :=
  match s.allotOf m with
  | some a => s.flag (F.ALLOT_STS_W0_PROT a)
  | none => false

/-- A debug halt: at once at an instruction boundary or at an instruction that waits, and after a remote
access that is in flight (R326-R328). -/
def debugHalt (m : Nat) (s : State) : State :=
  let x := s.mill m
  if x.dhalt then s
  else if x.run = .running ∧ !x.wait.inFlight then
    s.mapMill m (fun x => { x with dhalt := true, reason := 0, stepping := false, haltReq := false })
  else s.mapMill m (fun x => { x with haltReq := true })

/-- A halted mill goes on, for one instruction when it steps; a breakpoint at PC is passed (R328). -/
def debugGo (step : Bool) (m : Nat) (s : State) : State :=
  if (s.mill m).dhalt then
    millRetry m (s.mapMill m (fun x => { x with dhalt := false, stepping := step, pass := true }))
  else s

/-- DEBUG_HALT: HALT is written with one. -/
def execDebugHalt (src : RegSrc) (m : Fin 256) (s : State) : Res :=
  .next (emits (if s.millThere m.val then debugHalt m.val s else s) (regAns src St.OK))

/-- DEBUG_STEP: STEP is written with one; the instruction at PC then runs, and the mill halts again. -/
def execDebugStep (src : RegSrc) (m : Fin 256) (s : State) : Res :=
  .next (emits (if s.millThere m.val then debugGo true m.val s else s) (regAns src St.OK))

/-- DEBUG_RESUME: RESUME is written with one. -/
def execDebugResume (src : RegSrc) (m : Fin 256) (s : State) : Res :=
  .next (emits (if s.millThere m.val then debugGo false m.val s else s) (regAns src St.OK))

/-- A write to the live copy of a register, without the rules on when it is accepted; none where the
window has no register. -/
def debugPoke (m off : Nat) (v : Word) (s : State) : Option State :=
  let set := fun (f : Mill → Mill) => some (s.mapMill m f)
  if off % 8 ≠ 0 then none
  else if off = 0x10 then set (fun x => { x with pc := v.setWidth 21 })
  else if 0x100 ≤ off ∧ off < 0x200 then set (fun x => x.setSr ((off - 0x100) / 8) v)
  else if 0x200 ≤ off ∧ off < 0x240 then set (fun x => x.setPr ((off - 0x200) / 8) (v.setWidth 32))
  else if 0x400 ≤ off ∧ off < 0x600 then
    some ((setControl m ((off - 0x400) / 8) (wd (v.toNat % 2 ^ 21)) s).getD s)
  else if 0x1000 ≤ off ∧ off < 0x2000 then
    let r := (off - 0x1000) / 128
    set (fun x => x.setVr r (vecOf (patch (vecBytes (x.vr r)) ((off - 0x1000) % 128) (wordBytes v))))
  else if 0x2000 ≤ off ∧ off < 0x6000 then
    let k := (off - 0x2000) / 4
    set (fun x => { x with acc := Tbl.put (Tbl.put x.acc k (v.setWidth 32)) (k + 1) ((v >>> 32).setWidth 32) })
  else none

/-- A write to the debug window: its outcome and the state after it (R327). BRK_EN and the breakpoints
are no register copies: they are written whether or not the mill is halted. -/
def debugWrite (m off : Nat) (v : Word) (s : State) : BitVec 7 × State :=
  let refuse := (St.PERM, s.refused (Rg.mill m) (debugBase m + off) v)
  if !(s.millThere m) then (St.OK, s)
  else if off = 0 then
    let s := s.mapMill m (fun x => { x with brkEn := bitAt v 3 })
    let s := if bitAt v 0 then debugHalt m s else s
    let s := if bitAt v 1 then debugGo true m s else s
    (St.OK, if bitAt v 2 then debugGo false m s else s)
  else if off = 0x08 ∨ off = 0x28 then (St.OK, s)
  else if off = 0x18 then (St.OK, s.mapMill m (fun x => { x with ibp0 := v &&& 0x1FFFFD }))
  else if off = 0x20 then (St.OK, s.mapMill m (fun x => { x with ibp1 := v &&& 0x1FFFFD }))
  else match debugPoke m off v s with
    | none => refuse
    | some t => if (s.mill m).dhalt ∧ !(s.millProt m) then (St.OK, t) else refuse

/-- DEBUG_REG_WRITE. -/
def execDebugRegWrite (src : RegSrc) (m : Fin 256) (off : BitVec 15) (v : Word) (s : State) : Res :=
  .next (let r := debugWrite m.val off.toNat v s; emits r.2 (regAns src r.1))

/-- A read of the debug window: register copies read as zero while the mill runs, and the v and a copies
of a protected allotment always; none where the window has no register. -/
def debugRead (s : State) (m off : Nat) : Option (Word × State) :=
  let x := s.mill m
  let live := fun (v : Word) => some (if x.dhalt then v else 0, s)
  let open_ := fun (v : Word) => some (if x.dhalt ∧ !(s.millProt m) then v else 0, s)
  if off % 8 ≠ 0 then none
  else if off = 0 then some (wd (b2n x.haltReq + b2n x.stepping * 2 + b2n x.brkEn * 8), s)
  else if off = 0x08 then some (wd (b2n x.dhalt + x.reason.toNat * 2 + x.cause.toNat * 8), s)
  else if off = 0x10 then live (wd x.pc.toNat)
  else if off = 0x18 then some (x.ibp0, s)
  else if off = 0x20 then some (x.ibp1, s)
  else if off = 0x28 then live (wd (x.tags.toNat * 2 ^ 60))
  else if 0x100 ≤ off ∧ off < 0x200 then live (x.sr ((off - 0x100) / 8))
  else if 0x200 ≤ off ∧ off < 0x240 then live (wd (x.pr ((off - 0x200) / 8)).toNat)
  else if 0x400 ≤ off ∧ off < 0x600 then
    match s.allotOf m with
    | none => live 0
    | some a => match controlWord s a m ((off - 0x400) / 8) with
      | none => live 0
      | some (v, t) => some (if x.dhalt then v else 0, t)
  else if 0x1000 ≤ off ∧ off < 0x2000 then
    open_ (wordAt (vecBytes (x.vr ((off - 0x1000) / 128))) ((off - 0x1000) % 128))
  else if 0x2000 ≤ off ∧ off < 0x6000 then
    let k := (off - 0x2000) / 4
    open_ (wd ((Tbl.at x.acc k).toNat + (Tbl.at x.acc (k + 1)).toNat * 2 ^ 32))
  else none

/-- A word of a mill's telemetry block. The conflict and run counters count clocks, which the model does
not have: they read as free values (R293, log entry 6). -/
def millTelemetry (s : State) (m w : Nat) : Word × State :=
  let x := s.mill m
  match w with
  | 0 => draw 64 s
  | 1 => draw 64 s
  | 2 => draw 64 s
  | 3 => (wd (x.msgIn.toNat + x.msgRefused.toNat * 2 ^ 32), s)
  | 4 => (wd x.dmaPeak.toNat, s)
  | 5 => (x.xfer, s)
  | _ => (0, s)

end Sys2Proof.Machine
end

