-- ==== Sys2Proof/Machine/Rings.lean ====
section
/-! DEFINITION. Service queues: bindings (R87, R88, R528), bells (R94-R96), fetches (R98), status words
(R101, R102), completion entries (R103-R108), chunk signals (R109, R110), unbinding (R113) and mirrored
queues (R114). -/

namespace Sys2Proof.Machine

/-! ### Bindings (R87) -/

def Entry.ring (e : Entry) : Word := e.w0
def Entry.cq (e : Entry) : Word := e.w1
def Entry.rsw (e : Entry) : Word := e.w2
def Entry.qctx (e : Entry) : BitVec 16 := BitVec.ofNat 16 (fget e.w3 0 16)
def Entry.qgen (e : Entry) : Byte := BitVec.ofNat 8 (fget e.w3 16 8)
def Entry.log2n (e : Entry) : Nat := fget e.w3 24 5
def Entry.qtype (e : Entry) : Nat := fget e.w3 29 8
def Entry.bellIdx (e : Entry) : Nat := fget e.w3 37 9
def Entry.qmir (e : Entry) : Bool := bitAt e.w3 46
def Entry.note (e : Entry) : Bool := bitAt e.w3 47
def Entry.nq (e : Entry) : Nat := fget e.w3 48 8
def Entry.qstate (e : Entry) : Nat := fget e.w3 56 2
/-- Ring size in entries. -/
def Entry.ringN (e : Entry) : Nat := 2 ^ e.log2n
/-- The end point that owns a queue. -/
def Entry.owner (e : Entry) : BitVec 14 := faNode e.ring

namespace Ty
abbrev GREEN := 1
abbrev KVPG := 2
abbrev ATTN := 3
abbrev OPTS := 4
abbrev ALLOT := 5
abbrev CUST := 6
abbrev STEP := 7
end Ty

def State.bind (s : State) (k : Nat) : Entry := Tbl.at s.qd.rings.bind k
def State.sq (s : State) (k : Nat) : SQ := Tbl.at s.qd.rings.qs k
def State.mapSq (s : State) (k : Nat) (f : SQ → SQ) : State :=
  s.mapRings (fun r => { r with qs := Tbl.mod r.qs k f })
/-- Write a binding's STATE, complement and all. -/
def State.setQstate (s : State) (k n : Nat) : State :=
  s.mapRings (fun r => { r with bind := Tbl.mod r.bind k (fun e => mkEntry e.w0 e.w1 e.w2 (fset e.w3 56 2 n)) })
/-- The queue with a key is served here: an own one, or the partner's after a takeover (R114). A spare serves
none before it is in LIVE (R476). -/
def State.serves (s : State) (k : Nat) : Bool := if k < 4096 then !s.qd.fault.spare else s.qd.fault.takeover
/-- The node under whose number a queue is served. -/
def State.qNode (s : State) (k : Nat) : BitVec 14 := if k < 4096 then s.qdNode else s.partnerNode

/-- A descriptor of a queue. -/
def State.desc? (s : State) (k : Nat) (ridx : BitVec 32) : Option Desc :=
  (s.sq k).descs.find? (fun d => decide (d.ridx = ridx))
/-- Change a descriptor of a queue. -/
def State.mapDesc (s : State) (k : Nat) (ridx : BitVec 32) (f : Desc → Desc) : State :=
  s.mapSq k (fun q => { q with descs := q.descs.map (fun d => if d.ridx = ridx then f d else d) })
/-- The key under which a command's queue holds a descriptor: the own queue's, or the taken-over one's. -/
def State.keyOf (s : State) (q : Nat) (ridx : BitVec 32) : Nat :=
  if (s.desc? q ridx).isNone ∧ s.qd.fault.takeover ∧ (s.desc? (4096 + q) ridx).isSome then 4096 + q else q

/-! ### Descriptor fields (R92) -/

def Desc.w (d : Desc) (i : Nat) : Word := d.words.getD i 0
def Desc.opc (d : Desc) : Nat := fget (d.w 0) 0 8
def Desc.type (d : Desc) : Nat := fget (d.w 0) 8 8
def Desc.ext (d : Desc) : Nat := fget (d.w 0) 16 2
def Desc.notify (d : Desc) : Bool := bitAt (d.w 0) 18
def Desc.barrier (d : Desc) : Bool := bitAt (d.w 0) 19
def Desc.len (d : Desc) : Nat := fget (d.w 1) 0 32
def Desc.siggen (d : Desc) : Byte := BitVec.ofNat 8 (fget (d.w 2) 32 8)
def Desc.user (d : Desc) : Word := d.w 3
def Desc.sig (d : Desc) : Word := d.w 4
/-- The service part: words 5-7 of the head and words 1-7 of each extension. -/
def Desc.body (d : Desc) (i : Nat) : Word :=
  if i < 3 then d.w (5 + i) else d.w (8 * ((i - 3) / 7 + 1) + (i - 3) % 7 + 1)

/-- A started descriptor of a type and opcode that its service has not taken up. During the power-fail sequence
the Green and the services start none (R435). -/
def State.ready (s : State) (q : Nat) (ridx : BitVec 32) (type opc : Nat) : Option (Nat × Desc) :=
  let k := s.keyOf q ridx
  match s.desc? k ridx with
  | some d => if d.stage = 2 ∧ d.type = type ∧ d.opc = opc ∧ (s.qd.boot.pwr = 0 ∨ 5 ≤ type) then some (k, d) else none
  | none => none

/-! ### Mirroring (R114) -/

/-- What the partner is told of a queue's descriptors. -/
def SQ.pend (q : SQ) : List (BitVec 32 × Bool) := q.descs.map (fun d => (d.ridx, decide (2 ≤ d.stage)))

/-- The partner is sent the state of a mirrored queue. -/
def mirrorQueue (k : Nat) (s : State) : State :=
  if k < 4096 ∧ (s.bind k).qmir ∧ s.mirroring then
    let q := s.sq k
    s.mirror (fun id => [.mirror (.queue id (Fin.ofNat 4096 k) q.pi q.ci q.pend)]) .nothing [] []
  else s

/-- The partner is sent the binding of a mirrored queue whose STATE has changed. -/
def mirrorBinding (k : Nat) (s : State) : State :=
  let e := s.bind k
  if k < 4096 ∧ e.qmir ∧ s.mirroring then
    s.mirror (fun id => [.mirror (.binding id (Fin.ofNat 4096 k) e.w0 e.w1 e.w2 e.w3)]) .nothing [] []
  else s

/-! ### Writes on behalf of a queue (R90) -/

/-- An STA of a queue's: class 0, to a fabric address. -/
def queueSta (s : State) (k : Nat) (fa : Word) (gen : Byte) (ord : Nat) (d : List Byte) : Packet :=
  Hdr.packet { dst := faNode fa, ctx := (s.bind k).qctx, opc := Opc.STA, src := s.qNode k, cls := 0, gen := gen,
               que := 448 + k % 64, ord := ord, woff := (faWoff fa).toNat, len := d.length } none none d

/-- INFL: descriptors fetched, with all their extensions, and not completed (R101, R113, log entry 71). -/
def SQ.infl (q : SQ) : Nat := (q.descs.filter (fun d => d.stage != 0)).length

/-- The status word of a queue (R101). -/
def statusWord (s : State) (k rstate : Nat) : List Byte :=
  let q := s.sq k
  bytesOf 4 q.ci.toNat ++ bytesOf 4 (~~~ q.ci).toNat ++
  wordBytes (wd (rstate + q.rerr.toNat * 4 + q.infl % 65536 * 65536))

/-- Write the status word. -/
def writeStatus (k rstate : Nat) (s : State) : State :=
  let e := s.bind k
  (unitReq { que := 448 + k % 64, purpose := .unit Un.STATUS k 0 0,
             parts := [[queueSta s k e.rsw e.qgen 0 (statusWord s k rstate)]] } s).mapSq k
    (fun q => { q with statusDue := false })

/-- A queue fails: STATE 3, an event with the queue and the status, one final status word and no further
fetch. A draining queue stays draining (R100, R113, log entry 32). -/
def queueFail (k : Nat) (st : BitVec 7) (s : State) : State :=
  let n := (s.bind k).qstate
  if n = 0 ∨ n = 3 then s
  else
    let s := s.event Rg.frontEnd { cat := Cat.RESOURCE, obj := Obj.BINDING, ctx := (s.bind k).qctx, status := st,
                                   arg0 := wd (k % 4096), arg1 := wd (s.sq k).infl }
    let s := s.mapSq k (fun q => { q with rerr := st, fetching := [], redo := [],
                                          descs := q.descs.filter (fun d => d.stage != 0) })
    if n = 2 then s else mirrorBinding k (writeStatus k 3 (s.setQstate k 3))

/-! ### SQ_LOAD and SQ_UNBIND (R88, R113, R528) -/

/-- The rules of R88. -/
def sqEntryOk (s : State) (q : Nat) (e : Entry) : Bool :=
  let n := e.ringN
  let same := fun (a : Word) => decide (faNode a = faNode e.ring) && faWin a == faWin e.ring
  let r := faOff e.ring
  let c := faOff e.cq
  let w := faOff e.rsw
  let apart := fun (a la b lb : Nat) => decide (a + la ≤ b) || decide (b + lb ≤ a)
  same e.cq && same e.rsw && decide (nodeRack e.owner = s.qdRack) && slotIsEp (nodeSlot e.owner) &&
  decide (6 ≤ e.log2n) && decide (e.log2n ≤ 16) &&
  apart r (n * 64) c (n * 32) && apart r (n * 64) w 16 && apart c (n * 32) w 16 &&
  decide (r + n * 64 ≤ 2 ^ 44) && decide (c + n * 32 ≤ 2 ^ 44) && decide (w + 16 ≤ 2 ^ 44) &&
  decide (1 ≤ e.qtype) && decide (e.qtype ≤ 7) &&
  (List.range 4096).all (fun k => k == q || (s.bind k).qstate == 0 ||
    decide ((s.bind k).owner ≠ e.owner) || (s.bind k).bellIdx != e.bellIdx) &&
  r % 4096 == 0 && c % 2048 == 0 && w % 16 == 0 && e.qstate == 1 && fget e.w3 58 6 == 0

/-- Record the outcome of a binding load in SQ_STS. -/
def State.setSqSts (s : State) (q : Nat) (st : BitVec 7) : State :=
  (s.setFl F.SQ_STS_STATUS st.toNat).setFl F.SQ_STS_QUEUE q

/-- Bind the staged entry of a source to a queue. -/
def sqLoad (src : RegSrc) (v : Word) (ans : BitVec 7 → List Out) (s : State) : State :=
  let q := fget v 0 12
  let e := mkEntry (s.staged src 1 0) (s.staged src 1 1) (s.staged src 1 2) (s.staged src 1 3)
  let st := if (s.bind q).qstate ≠ 0 then St.PERM
    else if !(sqEntryOk s q e) then St.DESC
    else if e.qmir ∧ s.pair ≠ 0 then St.LOST
    else St.OK
  if st ≠ St.OK then
    emits ((s.event Rg.frontEnd { cat := Cat.REFUSED, obj := Obj.BINDING, status := st, arg0 := wd q,
                                  arg1 := v }).setSqSts q st) (ans st)
  else
    let s := (s.mapSq q (fun _ => { statusDue := true })).setSqSts q St.OK
    if e.qmir then
      s.mirror (fun id => [.mirror (.binding id (Fin.ofNat 4096 q) e.w0 e.w1 e.w2 e.w3)]) (.binding q e)
        (ans St.OK) (ans St.LOST)
    else emits (s.mapRings (fun r => { r with bind := Tbl.put r.bind q e })) (ans St.OK)

/-- SQ_LOAD. -/
def execSqLoad (src : RegSrc) (v : Word) (s : State) : Res := .next (sqLoad src v (regAns src) s)

/-- CREATE descriptors of a queue that wait for room complete when it is unbound (R289). -/
def dropCreates (k : Nat) (s : State) : State :=
  let l := s.qd.grid.creates.filter (fun c => c.1 == k)
  let s := s.mapQd (fun q => { q with grid := { q.grid with creates := q.grid.creates.filter (fun c => c.1 != k) } })
  (l.foldl (fun s c => descDone k c.2 St.ABSENT (1#64 <<< 63) s) s).setFl F.GRID_STS_PEND s.qd.grid.creates.length

/-- Start to unbind a queue: accepted in STATE 1 and 3. -/
def sqUnbind (v : Word) (ans : BitVec 7 → List Out) (s : State) : State :=
  let q := fget v 0 12
  let n := (s.bind q).qstate
  if n = 0 ∨ n = 2 then emits (s.refused Rg.frontEnd R.SQ_UNBIND v) (ans St.PERM)
  else emits (mirrorBinding q ((dropCreates q (s.setQstate q 2)).mapSq q (fun x => { x with statusDue := true })))
    (ans St.OK)

/-- SQ_UNBIND. -/
def execSqUnbind (src : RegSrc) (v : Word) (s : State) : Res := .next (sqUnbind v (regAns src) s)

/-- UNBIND_PROGRESS_EVENT. -/
def execUnbindProgressEvent (q : Fin 4096) (s : State) : Res :=
  .next (
    if (s.bind q.val).qstate = 2 ∧ 0 < (s.sq q.val).infl then
      s.event Rg.frontEnd { cat := Cat.TIMEOUT, obj := Obj.BINDING, ctx := (s.bind q.val).qctx,
                            arg0 := wd q.val, arg1 := 100000 }
    else s)

/-- UNBIND_COMPLETE: INFL is 0 and no fetch is still returning; the final status word is written and STATE becomes 0. -/
def execUnbindComplete (q : Fin 4096) (s : State) : Res :=
  .next (
    let one := fun (k : Nat) (s : State) =>
      if (s.bind k).qstate = 2 ∧ (s.sq k).infl = 0 ∧ (s.sq k).fetching.isEmpty ∧ (s.sq k).redo.isEmpty then
        mirrorBinding k (((writeStatus k 0 s).setQstate k 0).mapSq k (fun _ => {}))
      else s
    let s := one q.val s
    if s.qd.fault.takeover then one (4096 + q.val) s else s)

/-- SQ_BINDING_SCRUB: a binding that is not the complement of its copy fails its queue (R484, R100). -/
def execSqBindingScrub (s : State) : Res :=
  .next ((s.qd.rings.bind.filter (fun b => decide (b.1 < 4096) && !b.2.complOk)).foldl (fun s b =>
    let s := s.event Rg.frontEnd { cat := Cat.INTEGRITY, obj := Obj.BINDING, arg0 := wd b.1, arg1 := b.2.mismatch }
    let s := s.score 8 2 256
    queueFail b.1 St.COMPL (s.mapRings (fun r => { r with bind := Tbl.mod r.bind b.1 (fun e =>
      mkEntry e.w0 e.w1 e.w2 e.w3) }))) s)

/-! ### Bells (R17, R94-R96) -/

/-- The queue bound to an owner and a bell index, in STATE 1. -/
def State.bellQueue (s : State) (mirrored : Bool) (owner : BitVec 14) (b : Nat) : Option Nat :=
  (s.qd.rings.bind.find? (fun x => (decide (4096 ≤ x.1) == mirrored) && x.2.qstate == 1 &&
    decide (x.2.owner = owner) && x.2.bellIdx == b)).map (·.1)

/-- The first failing check of a bell, or the queue and the producer index. -/
def bellCheck (v : Via) (p : Packet) (s : State) : Except (BitVec 7) (Nat × BitVec 32) :=
  let slot := p.off / 0x1000
  let b := p.off % 0x1000 / 8
  let onPort := match v with
    | .link n => n.val == slot
    | _ => false
  if !onPort ∨ 143 < slot ∨ p.src ≠ mkNode s.qdRack slot then .error St.PERM
  else match s.bellQueue (decide (p.dst ≠ s.qdNode)) p.src b with
    | none => .error (if p.dst ≠ s.qdNode then St.LOST else St.NOWIN)
    | some k =>
      let w := natOf (slice p.data 0 8)
      let pi := BitVec.ofNat 32 w
      if s.replaying ∧ (s.bind k).qtype ≠ Ty.CUST then .error St.ABSENT
      else if p.ctx ≠ (s.bind k).qctx then .error St.CTX
      else if w / 2 ^ 32 ≠ (~~~ pi).toNat then .error St.COMPL
      else if (s.bind k).ringN < (pi - (s.sq k).ci).toNat then .error St.BOUNDS
      else .ok (k, pi)

/-- Take an accepted producer index (R96). -/
def takeBell (k : Nat) (v : BitVec 32) (s : State) : State :=
  let q := s.sq k
  if (q.pi - q.ci).toNat < (v - q.ci).toNat then mirrorQueue k (s.mapSq k (fun q => { q with pi := v })) else s

/-- BELL. -/
def execBell (v : Via) (p : Packet) (s : State) : Res :=
  .next (
    if v.isSv then (if p.opc = Opc.BELL ∧ !p.rsp then request v [p] s else s)
    else if p.rsp ∨ p.opc ≠ Opc.BELL ∨ s.fenced then s
    else match rxForm [p] with
      | some st => rxFail v [p] p st s
      | none =>
        if (s.bankFor v p.dst).isNone then failPkt v p St.LOST none s
        else match bellCheck v p s with
          | .error st => failPkt v p st none s
          | .ok (k, pi) => takeBell k pi s)

/-! ### Fetches (R98) -/

/-- Entries that the next fetch of a queue brings: below PI, in one 256-byte block, within the limit of 64
descriptors. -/
def fetchSize (s : State) (k : Nat) : Nat :=
  let q := s.sq k
  let left := (q.pi - q.fp).toNat
  let room := 64 - q.descs.length - (q.fetching.foldl (fun n f => n + f.n) 0)
  min (min left room) (4 - q.fp.toNat % 4)

/-- A queue has something to fetch. -/
def State.fetchable (s : State) (k : Nat) : Bool :=
  s.serves k && !s.fenced && !(s.replaying && (s.bind k).qtype != Ty.CUST) &&
  (((s.bind k).qstate == 1 && decide (0 < fetchSize s k)) ||
    (((s.bind k).qstate == 1 || (s.bind k).qstate == 2) && !(s.sq k).redo.isEmpty))

/-- The queue whose turn it is. -/
def State.fetchTurn (s : State) : Option Nat :=
  let ks := (s.qd.rings.bind.map (·.1)).filter s.fetchable
  match ks.find? (fun k => decide (s.qd.rings.turn ≤ k)) with
  | some k => some k
  | none => ks.head?

/-- Send a fetch of `n` entries from a ring index. -/
def sendFetch (k : Nat) (f : FetchRun) (s : State) : State :=
  let e := s.bind k
  let fa := e.ring + wd (f.ridx.toNat % e.ringN * 64)
  let p := Hdr.packet { dst := e.owner, ctx := e.qctx, opc := Opc.LD, src := s.qNode k, cls := 1, gen := e.qgen,
                        que := 448 + k % 64, woff := (faWoff fa).toNat, len := 64 * f.n }
  unitReq { que := 448 + k % 64, purpose := .unit Un.FETCH k f.ridx.toNat 0, parts := [[p]] }
    (s.mapSq k (fun q => { q with fetching := q.fetching ++ [f] }))

/-- DESCRIPTOR_FETCH: the queue is fetched for in its turn. -/
def execDescriptorFetch (q : Fin 4096) (s : State) : Res :=
  .next (
    match s.fetchTurn with
    | none => s
    | some k =>
      if k % 4096 ≠ q.val then s
      else
        let s := s.mapRings (fun r => { r with turn := k + 1 })
        match (s.sq k).redo with
        | d :: rest =>
          sendFetch k { ridx := d.1, n := 4 - d.1.toNat % 4, single := true, inherited := d.2 }
            (s.mapSq k (fun q => { q with redo := rest }))
        | [] =>
          let n := fetchSize s k
          let f : FetchRun := { ridx := (s.sq k).fp, n := n }
          sendFetch k f (s.mapSq k (fun q => { q with fp := q.fp + BitVec.ofNat 32 n })))

/-- DESCRIPTOR_START: a descriptor held by BARRIER starts once every earlier one has completed. -/
def execDescriptorStart (q : Fin 4096) (ridx : BitVec 32) (s : State) : Res :=
  .next (
    let k := s.keyOf q.val ridx
    match (s.sq k).descs with
    | d :: _ => if d.ridx = ridx ∧ d.stage = 1 then
        mirrorQueue k (s.mapDesc k ridx (fun d => { d with stage := 2 })) else s
    | [] => s)

/-- DESCRIPTOR_NOP: performs nothing. -/
def execDescriptorNop (q : Fin 4096) (ridx : BitVec 32) (s : State) : Res :=
  .next (
    let k := s.keyOf q.val ridx
    match s.desc? k ridx with
    | some d => if d.stage = 2 ∧ d.opc = 0 then descEnd k ridx St.OK s else s
    | none => s)

/-! ### Status words, chunk signals and completions -/

/-- STATUS_WORD_WRITE: when CI has advanced or STATE has changed. -/
def execStatusWordWrite (q : Fin 4096) (s : State) : Res :=
  .next (
    let k := if (s.sq q.val).statusDue then q.val else 4096 + q.val
    if (s.sq k).statusDue ∧ s.serves k ∧ (s.bind k).qstate ≠ 0 ∧ !s.fenced then
      writeStatus k (s.bind k).qstate s
    else s)

/-- Where a descriptor's signal word lies: the Green of plane p has the p-th of 18 words (R243). -/
def Desc.sigAt (s : State) (k : Nat) (d : Desc) : Word :=
  if d.type = Ty.GREEN then d.sig + wd (16 * (if k < 4096 then s.qdPlane else s.qdPlane ^^^ 1)) else d.sig

/-- Write a descriptor's signal word with its present COUNT (R109). -/
def writeSignal (k : Nat) (d : Desc) (s : State) : State :=
  let c := BitVec.ofNat 32 d.count
  let data := bytesOf 4 c.toNat ++ bytesOf 4 (~~~ c).toNat ++ wordBytes d.stamp
  unitReq { que := 448 + k % 64, purpose := .unit Un.SIGNAL k d.ridx.toNat d.count,
            parts := [[queueSta s k (d.sigAt s k) d.siggen 2 data]] }
    (s.mapDesc k d.ridx (fun d => { d with sigSent := d.count, sigOut := d.sigOut + 1 }))

/-- A replayed descriptor writes to its queue's memory only when RP_WRITE is 1 (R506). -/
def State.descWrites (s : State) (d : Desc) : Bool := !d.replay || s.flag F.LG_CTL_RP_WRITE

/-- CHUNK_SIGNAL_WRITE. -/
def execChunkSignalWrite (q : Fin 4096) (ridx : BitVec 32) (s : State) : Res :=
  .next (
    let k := s.keyOf q.val ridx
    match s.desc? k ridx with
    | some d => if d.sig ≠ 0 ∧ d.sigSent < d.count ∧ d.stage < 5 ∧ s.descWrites d ∧ !s.fenced then writeSignal k d s
        else s
    | none => s)

/-- The words C0 to C2 of a completion entry (R103, R104). -/
def completionWords (s : State) (k : Nat) (d : Desc) : Word × Word × Word :=
  let n := (s.bind k).ringN
  let phase := 1 - d.ridx.toNat / n % 2
  (d.user, wd (d.ridx.toNat + d.status.toNat * 2 ^ 32 + k % 4096 * 2 ^ 48 + phase * 2 ^ 63), d.result)

/-- A descriptor's entry may be written (R107): its writes and its final signal are acknowledged, and
with BARRIER every earlier descriptor is complete. -/
def State.mayComplete (s : State) (k : Nat) (d : Desc) : Bool :=
  d.stage == 4 && d.writes == 0 && d.sigOut == 0 &&
  (d.sig == 0 || d.sigSent == d.count || d.status != 0 || !(s.descWrites d)) &&
  (!d.barrier || decide (((s.sq k).descs.head?.map (·.ridx)) = some d.ridx))

/-- A descriptor leaves its queue. -/
def dropDesc (k : Nat) (ridx : BitVec 32) (s : State) : State :=
  mirrorQueue k (s.mapSq k (fun q => { q with descs := q.descs.filter (fun d => decide (d.ridx ≠ ridx)) }))

/-- The notice of a completion (R108). -/
def sendNotice (k : Nat) (c : Word × Word × Word) (s : State) : State :=
  let e := s.bind k
  let p := Hdr.packet { dst := e.owner, ctx := e.qctx, opc := Opc.MSG, src := s.qNode k, cls := 0, gen := e.qgen,
                        que := 448 + k % 64, woff := (faWoff e.ring).toNat, aux := e.nq, len := 16 } none none
    (wordBytes c.2.1 ++ wordBytes c.1)
  unitReq { que := 448 + k % 64, purpose := .unit Un.NOTICE k 0 0, parts := [[p]] } s

/-- COMPLETION_WRITE: the entry with release, and the notice after it. -/
def execCompletionWrite (q : Fin 4096) (ridx : BitVec 32) (s : State) : Res :=
  .next (
    let k := s.keyOf q.val ridx
    match s.desc? k ridx with
    | none => s
    | some d =>
      if !(s.mayComplete k d) ∨ s.fenced then s
      else if !(s.descWrites d) then dropDesc k ridx s
      else
        let e := s.bind k
        let c := completionWords s k d
        let fa := e.cq + wd (ridx.toNat % e.ringN * 32)
        let data := wordBytes c.1 ++ wordBytes c.2.1 ++ wordBytes c.2.2 ++ wordBytes s.stamp
        let s := unitReq { que := 448 + k % 64, purpose := .unit Un.COMPLETION k ridx.toNat 0,
                           parts := [[queueSta s k fa e.qgen 2 data]] }
          (s.mapDesc k ridx (fun d => { d with stage := 5 }))
        if e.note ∧ d.notify then sendNotice k c s else s)

/-- The answer to a write that a queue made. -/
def queueAnswer (u k ridx : Nat) (st : BitVec 7) (s : State) : State :=
  let r := BitVec.ofNat 32 ridx
  let fail := decide (st ≠ St.OK) && decide (st ≠ St.OK_DUP)
  let s := if u = Un.COMPLETION then dropDesc k r s
    else if u = Un.SIGNAL then s.mapDesc k r (fun d => { d with sigOut := d.sigOut - 1 })
    else s
  if !fail then s
  else if u = Un.NOTICE then
    s.event Rg.frontEnd { cat := Cat.RESOURCE, obj := Obj.MSGQ, ctx := (s.bind k).qctx, status := st,
                          arg0 := wd (s.bind k).nq, arg1 := 1 }
  else queueFail k st s

end Sys2Proof.Machine
end

