-- ==== Sys2Proof/Machine/Allots.lean ====
section
/-! DEFINITION. Allotments: placement (R285-R287, R331), the ALLOT descriptors (R288-R291), program images
(R329, R330) and the start and stop of their mills (R323, R326). -/

namespace Sys2Proof.Machine

/-- An error status that the spec does not name, a free value (log entry 6). -/
def freeErr (s : State) : BitVec 7 × State :=
  let k := pickMany 1 [0x10, 0x11, 0x12, 0x13, 0x14, 0x15, 0x20, 0x21, 0x22, 0x30, 0x31, 0x32, 0x33, 0x40, 0x41] s
  (BitVec.ofNat 7 (k.1.headD 0x41), k.2)

/-- A descriptor has been taken up by its service. -/
def descTake (k : Nat) (ridx : BitVec 32) (s : State) : State := s.mapDesc k ridx (fun d => { d with stage := 3 })

/-! ### Placement (R287) -/

/-- Rows of mills present. -/
def gridRows (v : Variant) : Nat := millCount v / 16

/-- A mill is present and in no allotment. -/
def State.millFree (s : State) (m : Nat) : Bool := decide (m < millCount s.qd.variant) && (s.allotOf m).isNone

/-- A rectangle of free mills within rows `first` to `last`, first fit by row and then by column. -/
def findRect (s : State) (first last w h : Nat) : Option (Nat × Nat) :=
  ((List.range 16).flatMap (fun y => (List.range 16).map (fun x => (x, y)))).find? (fun c =>
    decide (first ≤ c.2) && decide (c.2 + h ≤ last + 1) && decide (c.1 + w ≤ 16) &&
    (List.range h).all (fun j => (List.range w).all (fun i => s.millFree ((c.2 + j) * 16 + c.1 + i))))

/-- A base of `n` free units of the common scratch, first fit. -/
def findShare (s : State) (n : Nat) : Option Nat :=
  if n = 0 then some 0
  else (List.range 1024).find? (fun b => decide (b + n ≤ 1024) && (List.range 64).all (fun a =>
    s.alState a == 0 || decide (s.fl (F.ALLOT_STS_W1_CBASE a) + s.fl (F.ALLOT_STS_W1_CSIZE a) ≤ b) ||
    decide (b + n ≤ s.fl (F.ALLOT_STS_W1_CBASE a))))

/-- Where a request would be placed now: allotment, column, row and base of the common share. -/
def findPlace (s : State) (res : Bool) (w h csize : Nat) : Option (Nat × Nat × Nat × Nat) :=
  let rows := s.fl F.GRID_CTL_RES_ROWS
  let range := if res then (0, rows) else (rows, gridRows s.qd.variant)
  if range.2 = 0 then none
  else match (List.range 64).find? (fun a => s.alState a == 0), findRect s range.1 (range.2 - 1) w h, findShare s csize with
    | some a, some c, some b => some (a, c.1, c.2, b)
    | _, _, _ => none

/-- Present mills in no allotment, and CREATE descriptors that wait (R286). -/
def State.gridCounts (s : State) : State :=
  (s.setFl F.GRID_STS_FREE ((List.range 256).filter s.millFree).length).setFl F.GRID_STS_PEND
    s.qd.grid.creates.length

/-- Make an allotment in state 1; the placement is journalled (R505). -/
def placeAllot (a x y w h : Nat) (ctx : BitVec 16) (kslot : Nat) (prot res : Bool) (cbase csize : Nat) (s : State) :
    State :=
  let w0 := wd (x + y * 2 ^ 4 + (w - 1) * 2 ^ 8 + (h - 1) * 2 ^ 12 + ctx.toNat * 2 ^ 16 + kslot % 64 * 2 ^ 32 +
    b2n prot * 2 ^ 38 + 1 * 2 ^ 39 + b2n res * 2 ^ 42)
  let s := (s.setRg (R.ALLOT_STS_W0 a) w0).setRg (R.ALLOT_STS_W1 a) (wd (cbase + csize * 2 ^ 11))
  let s := (s.mapAllot a (fun _ => {})).journal Lg.PLACE ctx 0x0B 0
    (bytesOf 1 a ++ bytesOf 1 x ++ bytesOf 1 y ++ bytesOf 1 ((w - 1) + (h - 1) * 16) ++ bytesOf 2 cbase)
  s.gridCounts

/-- Create the resident allotments of the services, in entry order (R331). Their programs come with the
signed boot image, so they stand loaded (log entry 36). -/
def placeServices (s : State) : State :=
  (List.range 8).foldl (fun s k =>
    let ty := s.fl (F.SVC_PLACE_TYPE k)
    if ty < 2 ∨ 4 < ty then s
    else
      let w := s.fl (F.SVC_PLACE_WM1 k) + 1
      let h := s.fl (F.SVC_PLACE_HM1 k) + 1
      let c := s.fl (F.SVC_PLACE_CSIZE k)
      match findPlace s true w h c with
      | some (a, x, y, b) =>
        let s := (placeAllot a x y w h 0 0 false true b c s).setFl (F.ALLOT_STS_W0_STATE a) 2
        (s.setFl ⟨R.SVC_STS, 8 * k, 6⟩ a).setFl ⟨R.SVC_STS, 8 * k + 6, 1⟩ 1
      | none =>
        (s.setFl ⟨R.SVC_STS, 8 * k + 6, 1⟩ 0).event Rg.hm
          { cat := Cat.RESOURCE, obj := Obj.REG, arg0 := wd (R.SVC_PLACE k), arg1 := s.rg (R.SVC_PLACE k) }) s

/-! ### CREATE -/

namespace Al
/-- Allotment named in D7. -/
def idx (d : Desc) : Nat := fget (d.w 7) 0 6
def wm (d : Desc) : Nat := fget (d.w 5) 0 4 + 1
def hm (d : Desc) : Nat := fget (d.w 5) 4 4 + 1
def csize (d : Desc) : Nat := fget (d.w 5) 8 11
def kslot (d : Desc) : Nat := fget (d.w 5) 19 6
def prot (d : Desc) : Bool := bitAt (d.w 5) 25
def wait (d : Desc) : Nat := fget (d.w 6) 0 16
end Al

/-- What a CREATE that cannot be met at all completes with (R289). -/
def createStatus (s : State) (k : Nat) (d : Desc) : BitVec 7 :=
  let ks := s.keySlot .own (Al.kslot d)
  if gridRows s.qd.variant < s.fl F.GRID_CTL_RES_ROWS + Al.hm d ∨ 1024 < Al.csize d then St.DESC
  else if Al.prot d ∧ ¬(ks.st = 1 ∧ ks.ctx = (s.bind k).qctx) then St.KEY
  else St.OK

/-- An ALLOT descriptor that has started and not been taken up: its action, unless it had started at a QD1
that has been lost (R290). -/
def allotDesc (q : Nat) (ridx : BitVec 32) (opc : Nat) (act : Nat → Desc → State → State) (s : State) : State :=
  match s.ready q ridx Ty.ALLOT opc with
  | none => s
  | some (k, d) => if d.inherited then descEnd k ridx St.LOST s else act k d s

/-- CREATE: the request joins those that wait, in the order of their acceptance. -/
def execCreate (q : Fin 4096) (ridx : BitVec 32) (s : State) : Res :=
  .next (allotDesc q.val ridx 1 (fun k d s =>
    let st := createStatus s k d
    if st ≠ St.OK then descDone k ridx st (if st = St.DESC then 5 else 0) s
    else if Al.wait d = 0 ∧ (!s.qd.grid.creates.isEmpty ∨ (findPlace s false (Al.wm d) (Al.hm d) (Al.csize d)).isNone) then
      descDone k ridx St.ABSENT (1#64 <<< 63) s
    else (descTake k ridx (s.mapGrid (fun g => { g with creates := g.creates ++ [(k, ridx)] }))).gridCounts) s)

/-- The placement that a running replay forces, or the one that R287 finds (R506). -/
def forcedPlace (s : State) (d : Desc) : Option ((Nat × Nat × Nat × Nat) × State) :=
  match s.replaying, s.qd.trace.ledger.places with
  | true, p :: rest =>
    let b := p.2.drop 16
    some ((natOf (slice b 0 1), natOf (slice b 1 1), natOf (slice b 2 1), natOf (slice b 4 2)),
      s.mapLedger (fun l => { l with places := rest }))
  | _, _ => (findPlace s false (Al.wm d) (Al.hm d) (Al.csize d)).map (fun p => (p, s))

/-- ALLOT_PLACE: the oldest waiting request is placed when it fits; it holds back every later one. -/
def execAllotPlace (s : State) : Res :=
  .next (
    match s.qd.grid.creates with
    | [] => s
    | (k, ridx) :: rest =>
      match s.desc? k ridx with
      | none => (s.mapGrid (fun g => { g with creates := rest })).gridCounts
      | some d => match forcedPlace s d with
        | none => s
        | some (p, s) =>
          let s := s.mapGrid (fun g => { g with creates := rest })
          descDone k ridx St.OK (wd p.1)
            (placeAllot p.1 p.2.1 p.2.2.1 (Al.wm d) (Al.hm d) (s.bind k).qctx (Al.kslot d) (Al.prot d) false p.2.2.2
              (Al.csize d) s))

/-- CREATE_WAIT_TIMEOUT. -/
def execCreateWaitTimeout (q : Fin 4096) (ridx : BitVec 32) (s : State) : Res :=
  .next (
    let k := s.keyOf q.val ridx
    if s.qd.grid.creates.contains (k, ridx) then
      (descDone k ridx St.ABSENT (1#64 <<< 63)
        (s.mapGrid (fun g => { g with creates := g.creates.filter (fun c => c != (k, ridx)) }))).gridCounts
    else s)

/-! ### LOAD (R289, R329, R330) -/

/-- An ALLOT descriptor that names an allotment of its queue's context. -/
def allotNamed (q : Nat) (ridx : BitVec 32) (opc : Nat) (act : Nat → Desc → Nat → State → State) (s : State) : State :=
  allotDesc q ridx opc (fun k d s =>
    let a := Al.idx d
    if s.alState a = 0 ∨ s.fl (F.ALLOT_STS_W0_CTX a) ≠ ((s.bind k).qctx).toNat then descEnd k ridx St.CTX s
    else act k d a s) s

/-- An allotment in a state that does not accept a descriptor: it completes with an error, which the spec does
not name (log entry 6). -/
def allotRefuse (k : Nat) (ridx : BitVec 32) (s : State) : State :=
  let e := freeErr s
  descDone k ridx e.1 0 e.2

/-- The layout checks on an image of `n` bytes. -/
def imageOk (v : Variant) (b : List Byte) (n : Nat) : Bool :=
  let u := fun (o k : Nat) => natOf (slice b o k)
  u 0 4 == 0x314C4D51 && u 4 2 == 1 && decide (u 6 2 ≤ 1) && u 8 4 == n &&
  u 12 4 % 64 == 0 && decide (64 ≤ u 12 4) && u 16 4 % 4 == 0 && decide (0 < u 16 4) &&
  (slice b 24 40).all (fun x => x == 0) && decide (u 12 4 + u 16 4 ≤ n) &&
  u 20 4 == (crc32c ((b.take n).drop 64)).toNat && !(u 6 2 == 1 && decide (v ≠ .qd19))

/-- Write an image at offset 0 of a mill's scratch and zero the rest. -/
def loadScratch (m : Nat) (b : List Byte) (s : State) : State :=
  (s.mapGrid (fun g => { g with scratch := g.scratch.filter (fun c => c.1 / 2 ^ 21 != m) })).setScratch m 0 b

/-- ALLOT_LOAD: the image is checked, measured and written into every mill. While it is being written the
allotment stands in state 1 (log entry 36). The command's operand is the plaintext that the descriptor's
reads return (log entry 35). -/
def execAllotLoad (q : Fin 4096) (ridx : BitVec 32) (d : InData) (s : State) : Res :=
  .next (allotNamed q.val ridx 2 (fun k e a s =>
    let b := slice d.data 0 e.len
    if (s.allot a).load.isSome then s
    else if s.alState a ≠ 1 ∧ s.alState a ≠ 2 then allotRefuse k ridx s
    else if bitAt (e.w 6) 8 ∧ !(s.keyAtSource .own (s.fl (F.ALLOT_STS_W0_KSLOT a))) then descEnd k ridx St.KEY s
    else if d.status ≠ St.OK then descDone k ridx d.status (e.w 5) s
    else
      let s := s.indig (s.bind k).qctx 0x0B 0 (e.w 5) b
      let s := s.setFl (F.ALLOT_STS_W0_STATE a) 1
      if !(imageOk s.qd.variant b e.len) then descDone k ridx St.DESC 5 s
      else
        let s := (s.millsOf a).foldl (fun s m => loadScratch m b s) s
        descTake k ridx (s.mapAllot a (fun x => { x with
          textOff := natOf (slice b 12 4), textLen := natOf (slice b 16 4), meas := Config.sha3 b,
          load := some (k, ridx) }))) s)

/-- ALLOT_LOAD_DONE. -/
def execAllotLoadDone (q : Fin 4096) (ridx : BitVec 32) (s : State) : Res :=
  .next (
    let k := s.keyOf q.val ridx
    match (List.range 64).find? (fun a => decide ((s.allot a).load = some (k, ridx))) with
    | none => s
    | some a =>
      descEnd k ridx St.OK ((s.mapAllot a (fun x => { x with load := none })).setFl (F.ALLOT_STS_W0_STATE a) 2))

/-! ### START (R289, R323) -/

/-- A mill as START leaves it; debug settings, telemetry, transfers under way and a debug halt asked for stay. -/
def freshMill (x : Mill) : Mill :=
  { dmaq := x.dmaq, dmas := x.dmas, dmaNo := x.dmaNo, lastNode := x.lastNode, vq0 := x.vq0, vq1 := x.vq1,
    qs := x.qs.map (fun e => (e.1, { epoch := e.2.epoch + 1 })), haltReq := x.haltReq, brkEn := x.brkEn,
    ibp0 := x.ibp0, ibp1 := x.ibp1, msgIn := x.msgIn, msgRefused := x.msgRefused, dmaPeak := x.dmaPeak,
    xfer := x.xfer }

/-- Start a mill of an allotment. -/
def startMill (a m : Nat) (arg : Word) (entry : BitVec 21) (n : Nat) (s : State) : State :=
  let i := (m / 16 - s.fl (F.ALLOT_STS_W0_Y0 a)) * (s.fl (F.ALLOT_STS_W0_WM1 a) + 1) +
    (m % 16 - s.fl (F.ALLOT_STS_W0_X0 a))
  millBoundary m (s.mapMill m (fun x =>
    (((({ freshMill x with run := .running, pc := entry, arg := arg } : Mill).setSr 1 arg).setSr 2 (wd i)).setSr 3 (wd n))))

/-- ALLOT_START. It ends GP (R520). -/
def execAllotStart (q : Fin 4096) (ridx : BitVec 32) (s : State) : Res :=
  .next (allotNamed q.val ridx 3 (fun k d a s =>
    let entry := fget (d.w 6) 0 21
    if (s.allot a).load.isSome then s
    else if s.alState a ≠ 2 then allotRefuse k ridx s
    else if !(s.inText a entry) then descDone k ridx St.DESC 6 s
    else
      let s := (s.mapQd (fun q => { q with boot := { q.boot with gp := false } })).setFl (F.ALLOT_STS_W0_STATE a) 3
      let s := (s.mapAllot a (fun x => { x with
        start := some (k, ridx), firstSt := 0, arrived := [], broken := false })).setFl (F.ALLOT_STS_W1_FAULTS a) 0
      descTake k ridx ((s.millsOf a).foldl (fun s m => startMill a m (d.w 5) (BitVec.ofNat 21 entry) (s.millsOf a).length s) s)) s)

/-- A mill has stopped and its last TMMA has completed (R326). -/
def State.millStopped (s : State) (m : Nat) : Bool := decide ((s.mill m).run ≠ .running) && (s.mill m).tmma.isEmpty

/-- START completes with its counts (R289). -/
def endStart (a : Nat) (s : State) : State :=
  match (s.allot a).start with
  | none => s
  | some (k, ridx) =>
    let n := fun (r : MRun) => ((s.millsOf a).filter (fun m => decide ((s.mill m).run = r))).length
    let st := if (s.allot a).keyLost then St.KEY
      else if n .ended = (s.millsOf a).length then St.OK
      else if (s.allot a).firstSt ≠ 0 then (s.allot a).firstSt else St.ABORT
    descDone k ridx st (wd (n .ended + n .faulted * 2 ^ 16 + n .halted * 2 ^ 32))
      (s.mapAllot a (fun x => { x with start := none }))

/-- ALLOT_RUN_END. -/
def execAllotRunEnd (a : Fin 64) (s : State) : Res :=
  .next (
    if (s.allot a.val).start.isSome ∧ (s.millsOf a.val).all s.millStopped then
      let s := endStart a.val s
      if s.alState a.val = 3 then s.setFl (F.ALLOT_STS_W0_STATE a.val) 2 else s
    else s)

/-! ### HALT and FREE (R289, R326) -/

/-- Stop a mill at an instruction boundary; one whose remote access is in flight stops when that has ended. -/
def haltMill (m : Nat) (s : State) : State :=
  let x := s.mill m
  if x.run = .running ∧ !x.wait.inFlight then (millStop m .halted s).mapMill m (fun x => { x with dhalt := false }) else s

/-- Halt an allotment in a halting or freeing state. -/
def haltAllot (a st : Nat) (s : State) : State :=
  (s.millsOf a).foldl (fun s m => haltMill m s) (s.setFl (F.ALLOT_STS_W0_STATE a) st)

/-- Every mill has stopped, and its transfers and messages are complete. -/
def State.millQuiet (s : State) (m : Nat) : Bool :=
  let x := s.mill m
  s.millStopped m && x.dmaq.isEmpty && x.dmas.isEmpty && x.vq0.isEmpty && x.vq1.isEmpty &&
  (s.unitOut m).isEmpty && !(s.qd.srcs.waits.any (fun w => w.que == m))

/-- ALLOT_HALT. A second one waits for the first. -/
def execAllotHalt (q : Fin 4096) (ridx : BitVec 32) (s : State) : Res :=
  .next (allotNamed q.val ridx 4 (fun k _ a s =>
    if (s.allot a).halt.isSome ∨ (s.allot a).load.isSome ∨ s.alState a = 5 then s
    else
      let s := descTake k ridx (s.mapAllot a (fun x => { x with halt := some (k, ridx) }))
      if s.alState a = 3 then haltAllot a 4 s else s) s)

/-- ALLOT_HALT_DONE. -/
def execAllotHaltDone (a : Fin 64) (s : State) : Res :=
  .next (
    match (s.allot a.val).halt with
    | none => s
    | some (k, ridx) =>
      let s := if s.alState a.val = 4 then (s.millsOf a.val).foldl (fun s m => haltMill m s) s else s
      if !((s.millsOf a.val).all s.millQuiet) then s
      else
        let s := descEnd k ridx St.OK ((endStart a.val s).mapAllot a.val (fun x => { x with halt := none }))
        if s.alState a.val = 4 then s.setFl (F.ALLOT_STS_W0_STATE a.val) 2 else s)

/-- Start to free an allotment: it is halted first. -/
def freeAllot (a : Nat) (s : State) : State := haltAllot a 5 s

/-- FREE. -/
def execFree (q : Fin 4096) (ridx : BitVec 32) (s : State) : Res :=
  .next (allotNamed q.val ridx 5 (fun k _ a s =>
    if s.alState a = 5 ∨ (s.allot a).load.isSome then s
    else freeAllot a (descTake k ridx (s.mapAllot a (fun x => { x with free := some (k, ridx) })))) s)

/-- Zero an allotment's scratch, common share and lease words, close its endpoints and set state 0 (R289,
R270). -/
def clearAllot (a : Nat) (s : State) : State :=
  let ms := s.millsOf a
  let sh := s.shareOf a
  let s := clearLeases Cat.INFO 0 (fun w _ => w / 64 == a) s
  let s := ms.foldl (fun s m => s.mapMill m (fun x => { freshMill x with haltReq := false })) s
  let s := s.mapGrid (fun g => { g with
    scratch := g.scratch.filter (fun c => !(ms.contains (c.1 / 2 ^ 21)))
    common := g.common.filter (fun c => !(decide (sh.1 ≤ c.1) && decide (c.1 < sh.1 + sh.2)))
    allots := Tbl.put g.allots a {} })
  ((s.setRg (R.ALLOT_STS_W0 a) 0).setRg (R.ALLOT_STS_W1 a) 0).gridCounts

/-- ALLOT_FREE_DONE. -/
def execAllotFreeDone (a : Fin 64) (s : State) : Res :=
  .next (
    if s.alState a.val ≠ 5 then s
    else
      let s := (s.millsOf a.val).foldl (fun s m => haltMill m s) s
      if !((s.millsOf a.val).all s.millQuiet) then s
      else
        let s := endStart a.val s
        let x := s.allot a.val
        let s := match x.halt with
          | some (k, ridx) => descEnd k ridx St.OK s
          | none => s
        let s := match x.free with
          | some (k, ridx) => descEnd k ridx St.OK s
          | none => s
        clearAllot a.val s)

end Sys2Proof.Machine
end

