-- ==== Sys2Proof/Machine/Region.lean ====
section
/-! DEFINITION. The regions that the resident services keep in Granary windows (R333, R335, R349): their access
under R30, and the optimizer's headers (R349, R350). -/

namespace Sys2Proof.Machine

/-! ### Access (R30) -/

/-- The responder whose Granary a queue's service uses: the own, or the mirror copy of the partner's. -/
def svcBank (k : Nat) : Bank := if k < 4096 then .own else .mir

/-- The plane whose share the descriptors of a queue call for (R114, R227). -/
def State.sharePlane (s : State) (k : Nat) : Nat := if k < 4096 then s.qdPlane else s.qdPlane ^^^ 1

/-- A region: its responder, window, first offset, length, and the context and generation that access it. -/
structure Region where
  bank : Bank
  win : Nat
  off : Nat
  len : Nat
  ctx : BitVec 16
  gen : Byte
  deriving DecidableEq, Repr

def Region.ent (r : Region) (s : State) : Entry := s.wte r.bank r.win

/-- A region lies in a window 0-47 of the node of its queue, which is mirrored and holds it whole. -/
def Region.placed (r : Region) (s : State) (k : Nat) (a : Word) : Bool :=
  decide (faNode a = s.qNode k) && decide (r.win < 48) && (r.ent s).mir && decide (r.off + r.len ≤ (r.ent s).limit) &&
  decide (r.off % 65536 = 0)

/-- The checks of R30 up to the limit, for reads and writes. -/
def Region.status (r : Region) (s : State) : BitVec 7 :=
  let e := r.ent s
  if !e.complOk then St.COMPL
  else if e.state = 0 then St.NOWIN
  else if e.state ≠ 1 ∨ r.gen ≠ e.gen then St.STALE
  else if e.ctx ≠ 0xFFFF ∧ e.ctx ≠ r.ctx then St.CTX
  else if !e.rd || !e.wr then St.PERM
  else if e.prot && !(s.keyAtDest r.bank e.kslot.toNat) then St.KEY
  else if e.limit < r.off + r.len then St.BOUNDS
  else St.OK

/-- The page-table entry of a page of a region's window; none when it cannot be read. -/
def Region.pte (r : Region) (s : State) (page : Nat) : Option Word :=
  let a := (r.ent s).pteAddr page
  if (s.hbm r.bank).good a 8 then some (wd (natOf ((s.hbm r.bank).read a 8))) else none

/-- Local addresses of `n` bytes at an offset of a region (checks 8 and 9 of R30), in an entry whose
translations are read from the page table. -/
def Region.runs (r : Region) (s : State) (o n : Nat) (write : Bool) : Except (BitVec 7) (List (Nat × Nat)) :=
  let e := r.ent s
  if e.pgsz = 3 then .ok (if n = 0 then [] else [(e.baseAddr + r.off + o, n)])
  else
    (runPages e.pageSize (r.off + o) n).foldl (fun acc q =>
      match acc with
      | .error st => .error st
      | .ok l => match r.pte s q.1 with
        | none => .error St.DATA
        | some x =>
          if !(pteMapped s r.bank e x) then .error St.UNMAPPED
          else if write && bitAt x 1 then .error St.PERM
          else .ok (l ++ [(fget x 16 48 * 65536 + q.2 % e.pageSize,
            min (r.off + o + n) ((q.1 + 1) * e.pageSize) - q.2)])) (.ok [])

/-- Fabric address of an offset of a region. -/
def Region.fa (r : Region) (s : State) (o : Nat) : Word :=
  mkFa (match r.bank with
    | .mir => s.partnerNode.toNat
    | _ => s.qdNode.toNat) r.win (r.off + o)

/-- Bytes of a protected window, enciphered or deciphered in 64-byte units that start at an offset (R379). -/
def Region.crypt (r : Region) (s : State) (dec : Bool) (o : Nat) (d : List Byte) : List Byte :=
  let e := r.ent s
  if e.prot then xtsData dec (s.keySlot r.bank e.kslot.toNat).key e.gen (fun i => r.fa s (o + 64 * i)) d else d

/-- The plaintext of `n` bytes at an offset of a region. -/
def Region.read (r : Region) (s : State) (o n : Nat) : Except (BitVec 7) (List Byte) :=
  let lo := o / 64 * 64
  let m := roundUp (o + n) 64 - lo
  match r.runs s lo m false with
  | .error st => .error st
  | .ok rs =>
    if rs.any (fun x => !((s.hbm r.bank).good x.1 x.2)) then .error St.DATA
    else .ok (slice (r.crypt s true lo (s.readRuns r.bank rs)) (o - lo) n)

/-- The writes of a list of patches (offset and plaintext), applied in order. -/
def Region.patches (r : Region) (s : State) (ps : List (Nat × List Byte)) :
    Except (BitVec 7) (List (Nat × List Byte)) :=
  match ps.foldl (fun (acc : Except (BitVec 7) (State × List (Nat × List Byte))) p =>
      match acc with
      | .error st => .error st
      | .ok (t, ws) =>
        let lo := p.1 / 64 * 64
        let m := roundUp (p.1 + p.2.length) 64 - lo
        match r.runs t lo m true, r.read t lo m with
        | .ok rs, .ok old =>
          let new := writesAt rs (r.crypt t false lo (patch old (p.1 - lo) p.2))
          .ok (t.pokes r.bank new, ws ++ new)
        | .error st, _ => .error st
        | _, .error st => .error st) (.ok (s, [])) with
  | .error st => .error st
  | .ok x => .ok x.2

/-- Commit writes of a service and then end a descriptor: through the partner while the region is mirrored
(R117, R340). `after` follows at once where nothing waits. -/
def svcCommit (b : Bank) (ws : List (Nat × List Byte)) (ended : Option (Nat × BitVec 32 × BitVec 7 × Word))
    (commit : Option (Nat × Nat)) (after : State → State) (s : State) : State :=
  if s.mirrorsTo b ∧ !ws.isEmpty then
    s.mirror (fun id => ws.map (fun w => .mirror (homeOf b (.data id w.1 w.2)))) (.svc b ws ended commit) [] []
  else
    let s := (s.pokes b ws).addResync (framesOf b ws)
    after (match ended with
      | some (k, ridx, st, r) => descDone k ridx st r s
      | none => s)

/-- Bytes of a list of FP32 codes, and back. -/
def f32Bytes (l : List Nat) : List Byte := l.flatMap (bytesOf 4)
def f32Codes (d : List Byte) : List Nat := (List.range (d.length / 4)).map (fun i => natOf (slice d (4 * i) 4))

/-! ### The optimizer's state region (R349, R350) -/

/-- An optimizer state region: its length in elements, its plane and where it lies. -/
structure OptRegion where
  n : Nat
  plane : Nat
  r : Region
  deriving DecidableEq, Repr

namespace OptRegion
/-- Chunks of the parameter vector, and blocks of this plane. -/
def nch (o : OptRegion) : Nat := (o.n + 16383) / 16384
def nb (o : OptRegion) : Nat := (o.nch + 17 - o.plane) / 18
/-- Offset of block 0. -/
def h (o : OptRegion) : Nat := roundUp (4096 + 32 * o.nb) 65536
def size (o : OptRegion) : Nat := o.h + 196608 * o.nb + 196608 * 64
def block (o : OptRegion) (b : Nat) : Nat := o.h + 196608 * b
def slot (o : OptRegion) (t : Nat) : Nat := o.h + 196608 * o.nb + 196608 * t
def header (b : Nat) : Nat := 4096 + 32 * b
/-- Elements of a block. -/
def elems (o : OptRegion) (b : Nat) : Nat := min 16384 (o.n - 16384 * (18 * b + o.plane))
end OptRegion

/-- The region named by an address, with `n` elements. -/
def optRegion (s : State) (k : Nat) (sta : Word) (gen : Byte) (n : Nat) : OptRegion :=
  let o : OptRegion := ⟨n, s.sharePlane k, ⟨svcBank k, faWin sta, faOff sta, 0, (s.bind k).qctx, gen⟩⟩
  { o with r := { o.r with len := o.size } }

/-- What keeps a service from a region: its place, and then the checks of R30. -/
def optStatus (s : State) (k : Nat) (sta : Word) (o : OptRegion) : BitVec 7 :=
  if !(o.r.placed s k sta) then St.DESC else o.r.status s

/-- A block header: LAST, STAGED and SLOT. -/
structure OptHead where
  last : BitVec 32
  staged : BitVec 32
  slot : BitVec 16
  deriving DecidableEq, Repr

def OptHead.bytes (x : OptHead) : List Byte :=
  bytesOf 4 x.last.toNat ++ bytesOf 4 (~~~ x.last).toNat ++ bytesOf 4 x.staged.toNat ++ bytesOf 4 (~~~ x.staged).toNat ++
  bytesOf 2 x.slot.toNat ++ bytesOf 2 (~~~ x.slot).toNat ++ List.replicate 12 0

/-- Read a block header; its complements must hold. -/
def OptRegion.head (o : OptRegion) (s : State) (b : Nat) : Except (BitVec 7) OptHead :=
  match o.r.read s (OptRegion.header b) 32 with
  | .error st => .error st
  | .ok d =>
    let x : OptHead := ⟨BitVec.ofNat 32 (natOf (slice d 0 4)), BitVec.ofNat 32 (natOf (slice d 8 4)),
      BitVec.ofNat 16 (natOf (slice d 16 2))⟩
    if slice d 0 20 = x.bytes.take 20 then .ok x else .error St.COMPL

/-- The region header: magic, N with its complement, plane and NB. -/
def OptRegion.top (o : OptRegion) (alg : Nat) : List Byte :=
  slice (bytesOf 4 0x5453504F ++ bytesOf 4 o.n ++ bytesOf 4 (2 ^ 32 - 1 - o.n) ++ bytesOf 1 alg ++ bytesOf 1 o.plane ++
    [0, 0] ++ bytesOf 4 o.nb) 0 4096

/-- The first word of a descriptor with which a region header disagrees: LEN (word 1), or ALG where it is
compared (word `algWord`). -/
def OptRegion.mismatch (o : OptRegion) (s : State) (sta alg : Nat) (algWord : Option Nat) : Except (BitVec 7) (Option Nat) :=
  match o.r.read s 0 20 with
  | .error st => .error st
  | .ok d =>
    if slice d 4 8 ≠ bytesOf 4 o.n ++ bytesOf 4 (2 ^ 32 - 1 - o.n) then .ok (some 1)
    else if slice d 0 4 ≠ bytesOf 4 0x5453504F ∨ slice d 13 1 ≠ bytesOf 1 o.plane ∨ slice d 16 4 ≠ bytesOf 4 o.nb then
      .ok (some sta)
    else match algWord with
      | some w => .ok (if slice d 12 1 ≠ bytesOf 1 alg then some w else none)
      | none => .ok none

/-- An event for a block header whose complements fail (R350). -/
def headEvent (k : Nat) (o : OptRegion) (b : Nat) (st : BitVec 7) (s : State) : State :=
  if st = St.COMPL then
    s.event Rg.hm { cat := Cat.INTEGRITY, obj := Obj.HBM, ctx := (s.bind k).qctx, status := st,
                    arg0 := o.r.fa s (OptRegion.header b) }
  else s

/-- Whether every block header of a region admits a step: LAST is STEP or STEP − 1 (R354). The answer is
the status and RESULT with which the step is refused, and the block. -/
def OptRegion.admits (o : OptRegion) (s : State) (step : BitVec 32) : Option (BitVec 7 × Word × Nat) :=
  (List.range o.nb).findSome? (fun b => match o.head s b with
    | .error st => some (st, (14 : Word), b)
    | .ok x => if x.last = step ∨ x.last = step - 1 then none else some (St.DESC, 14, b))

end Sys2Proof.Machine
end

