-- ==== Sys2Proof/Machine/Green.lean ====
section
/-! DEFINITION. The Green: descriptors and their form (R226-R238), the collective table (R239, R240), the seed
(R255), aborts (R256) and COUNT (R243, R244). -/

namespace Sys2Proof.Machine

/-! ### Fields (R233-R236) -/

/-- `n` bytes at byte `off` of entry `e` of a descriptor, as a number. -/
def entryNat (w : List Word) (e off n : Nat) : Nat := natOf (slice (((w.drop (8 * e)).take 8).flatMap wordBytes) off n)

namespace Gd
def word (w : List Word) (i : Nat) : Word := w.getD i 0
def opc (w : List Word) : Nat := fget (word w 0) 0 8
def ext (w : List Word) : Nat := fget (word w 0) 16 2
def len (w : List Word) : Nat := fget (word w 1) 0 32
def sig (w : List Word) : Word := word w 4
def srca (w : List Word) : Word := word w 5
def dsta (w : List Word) : Word := word w 6
def coll (w : List Word) : BitVec 32 := BitVec.ofNat 32 (fget (word w 7) 0 32)
def actl (w : List Word) : Actl := actlOf (fget (word w 7) 32 16)
def kslot (w : List Word) : Nat := fget (word w 7) 48 6
def sgen (w : List Word) : Byte := BitVec.ofNat 8 (fget (word w 7) 54 8)
def mask (w : List Word) : Nat := entryNat w 1 8 18
def nmem (w : List Word) : Nat := entryNat w 1 44 2
def step (w : List Word) : Nat := entryNat w 1 48 4
def root (w : List Word) : Nat := entryNat w 1 52 2 % 2 ^ 14
def dgen (w : List Word) : Byte := BitVec.ofNat 8 (entryNat w 1 54 1)
def chka (w : List Word) : Word := wd (entryNat w 1 56 8)
/-- DISP or COMB. -/
def expert (w : List Word) : Bool := opc w == 0x30 || opc w == 0x31
/-- REDUCE, ALLRED or RSCAT. -/
def sums (w : List Word) : Bool := decide (0x10 ≤ opc w) && decide (opc w ≤ 0x12)
def ring (w : List Word) : Bool := decide (2 ≤ ext w) && !(expert w)
def nrack (w : List Word) : Nat := if ring w then entryNat w 2 56 1 else 1
def mode (w : List Word) : Bool := ring w && entryNat w 2 58 1 % 2 == 1
/-- Rack at a ring position. -/
def rackAt (w : List Word) (i : Nat) : Nat := entryNat w 2 8 48 / 2 ^ (6 * i) % 64
def rta (w : List Word) : Word := wd (entryNat w 2 8 8)
def auxa (w : List Word) : Word := wd (entryNat w 2 16 8)
def emapa (w : List Word) : Word := wd (entryNat w 2 24 8)
def nexp (w : List Word) : Nat := entryNat w 2 32 2
def topk (w : List Word) : Nat := entryNat w 2 34 1
def lslots (w : List Word) : Nat := entryNat w 2 35 1
def cap (w : List Word) : Nat := entryNat w 2 36 4
def hid (w : List Word) : Nat := entryNat w 2 40 4
def rgen (w : List Word) : Byte := BitVec.ofNat 8 (entryNat w 2 44 1)
def ssca (w : List Word) : Word := if ext w = 3 then wd (entryNat w 3 8 8) else 0
def dsca (w : List Word) : Word := if ext w = 3 then wd (entryNat w 3 16 8) else 0
/-- An optimizer step, which stands in the table as an all-reduce (R352). -/
def opts (w : List Word) : Bool := fget (word w 0) 8 8 == Ty.OPTS
/-- The format written to members: BF16 weights of an optimizer step, else OFMT. -/
def outFmt (w : List Word) : Nat := if opts w then 1 else (actl w).ofmt
/-- The slots of MASK in ascending order. -/
def slots (w : List Word) : List Nat := (List.range 144).filter (fun i => mask w / 2 ^ i % 2 == 1)
/-- Members in all (R231). -/
def total (w : List Word) : Nat := nrack w * nmem w
/-- Elements of one shard or block. -/
def shard (w : List Word) : Nat := len w / max 1 (total w)
end Gd

/-- Position of the own rack in the ring order (R231). -/
def ringPos (s : State) (w : List Word) : Nat :=
  if Gd.ring w then ((List.range (Gd.nrack w)).find? (fun i => Gd.rackAt w i == s.qdRack)).getD 0 else 0

/-- Local rank of a slot (R231). -/
def localRank (w : List Word) (slot : Nat) : Nat := ((Gd.slots w).filter (fun x => decide (x < slot))).length

/-- Chunk elements of a format (R241). -/
def ckOf (f : Nat) : Nat :=
  match f with
  | 0 => 16384
  | 1 => 32768
  | 2 => 32768
  | 9 => 131072
  | 11 => 16384
  | 12 => 8192
  | 13 => 1024
  | 14 => 1024
  | _ => 65536

/-- Chunk elements of a collective (R241). -/
def Gd.ck (w : List Word) : Nat :=
  if Gd.sums w then min (ckOf (Gd.actl w).ifmt) (ckOf (Gd.actl w).ofmt) else ckOf (Gd.actl w).ifmt

/-- Bytes of an element array of a format (R241). -/
def arrayBytes (f e : Nat) : Nat := if f = 14 then 41600 * ((e + 1023) / 1024) else (e * afmtBits f + 7) / 8

/-- Rows of a chunk of DISP or COMB (R254): the receive rows have the input format, the tokens that COMB
writes the output format. -/
def Gd.rc (w : List Word) : Nat :=
  let b := Gd.hid w / 18 * afmtBits (if Gd.opc w = 0x30 then (Gd.actl w).ifmt else (Gd.actl w).ofmt) / 8
  ([256, 128, 64, 32, 16, 8, 4, 2].find? (fun r => decide (r * b ≤ 65536))).getD 1

/-- Elements of a member's input and of its output (R231, R250). -/
def Gd.inElems (w : List Word) (rank : Nat) : Nat :=
  match Gd.opc w with
  | 0x13 => Gd.shard w
  | 0x14 => if rank = Gd.root w then Gd.len w else 0
  | 0x30 => Gd.len w * Gd.hid w
  | 0x31 => Gd.lslots w * Gd.cap w * Gd.hid w
  | _ => Gd.len w
def Gd.outElems (w : List Word) (rank : Nat) : Nat :=
  match Gd.opc w with
  | 0x10 => if rank = Gd.root w then Gd.len w else 0
  | 0x12 => Gd.shard w
  | 0x30 => Gd.lslots w * Gd.cap w * Gd.hid w
  | 0x31 => Gd.len w * Gd.hid w
  | _ => Gd.len w

/-- Chunks of the output vector (R241); of DISP and COMB for one member (R254). -/
def Gd.chunks (w : List Word) : Nat :=
  if Gd.opc w = 0x30 then (Gd.lslots w * Gd.cap w + Gd.rc w - 1) / Gd.rc w
  else if Gd.opc w = 0x31 then (Gd.len w + Gd.rc w - 1) / Gd.rc w
  else (Gd.len w + Gd.ck w - 1) / Gd.ck w

/-! ### The form of a descriptor (R99 check 4, R230-R238) -/

/-- The ranges of a member's buffers: inputs and outputs, as address and length. -/
def greenRanges (w : List Word) (rank : Nat) : List (Word × Nat) × List (Word × Nat) :=
  let i := Gd.inElems w rank
  let o := Gd.outElems w rank
  let a := Gd.actl w
  let rows := Gd.lslots w * Gd.cap w
  ([(Gd.srca w, arrayBytes a.ifmt i)] ++
     (if afmtMx a.ifmt ∧ Gd.ext w = 3 then [(Gd.ssca w, (i + 31) / 32)] else []) ++
     (if Gd.expert w then [(Gd.rta w, 8 * Gd.len w * Gd.topk w)] else []) ++
     (if Gd.expert w ∧ rank = 0 then [(Gd.emapa w, 4 * Gd.nexp w)] else []),
   [(Gd.dsta w, arrayBytes (Gd.outFmt w) o)] ++
     (if afmtMx a.ofmt ∧ Gd.ext w = 3 then [(Gd.dsca w, (o + 31) / 32)] else []) ++
     (if Gd.chka w ≠ 0 then [(Gd.chka w, 64 * Gd.chunks w)] else []) ++
     (if Gd.opc w = 0x30 then [(Gd.auxa w, 8 * rows + 8 * Gd.lslots w)] else []))

/-- An address of a member's own node, aligned, whose bytes stay within its window (R237). -/
def ownAddr (owner : BitVec 14) (align : Nat) (a : Word) (n : Nat) : Bool :=
  decide (faNode a = owner) && faOff a % align == 0 && decide (faOff a + n ≤ 2 ^ 44)

/-- Two byte ranges share a byte. -/
def rangesMeet (a b : Word × Nat) : Bool :=
  decide (a.1.toNat < b.1.toNat + b.2) && decide (b.1.toNat < a.1.toNat + a.2)

/-- The conditions on a descriptor that is no NOP, each with the word that breaks it, in ascending order. -/
def greenRules (s : State) (k : Nat) (seedSet : Bool) (w : List Word) : List (Nat × Bool) :=
  let o := Gd.opc w
  let owner := (s.bind k).owner
  let a := Gd.actl w
  if o = 0x01 then
    [(0, Gd.ext w == 0), (1, Gd.len w == 0), (7, fget (Gd.word w 7) 0 48 == 0 && fget (Gd.word w 7) 62 2 == 0)]
  else
    let g := Gd.total w
    let rank := ringPos s w * Gd.nmem w + localRank w (nodeSlot owner)
    let rs := greenRanges w rank
    let lenOf := fun (x : Word) => ((rs.1 ++ rs.2).filter (fun r => decide (r.1 = x))).foldl (fun n r => max n r.2) 0
    let mx := afmtMx a.ifmt || afmtMx a.ofmt
    let partials := Gd.sums w
    let copy := decide (0x13 ≤ o) && decide (o ≤ 0x30)
    let nmask := entryNat w 1 26 18
    let bad := ((List.range 18).find? (fun i =>
      nmask / 2 ^ (8 * i) % 256 != 255 - Gd.mask w / 2 ^ (8 * i) % 256)).map (fun i => 8 + (26 + i) / 8)
    let order := (List.range (Gd.nrack w)).map (Gd.rackAt w)
    [ (0, if Gd.expert w then Gd.ext w == 2 else if mx then Gd.ext w == 3 else (Gd.ext w == 1 || Gd.ext w == 2)),
      (1, if Gd.expert w then decide (Gd.len w ≤ 65536) else
        decide (1 ≤ Gd.len w) &&
        (!(o == 0x12 || o == 0x13 || o == 0x21) || (decide (0 < g) && Gd.len w % max 1 g == 0)) &&
        (!mx || (Gd.len w % 32 == 0 && (!(o == 0x12 || o == 0x13 || o == 0x21) || Gd.shard w % 32 == 0)))),
      (4, decide (Gd.sig w = 0) || (decide (faNode (Gd.sig w) = owner) && decide (faOff (Gd.sig w) + 288 ≤ 2 ^ 44))),
      (5, ownAddr owner 64 (Gd.srca w) (lenOf (Gd.srca w))),
      (6, ownAddr owner 64 (Gd.dsta w) (lenOf (Gd.dsta w)) &&
        !(rs.1.any (fun x => rs.2.any (fun y => rangesMeet x y)))),
      (7, a.ok seedSet (o == 0x31) partials && (partials || decide (a.ofmt < 13)) &&
        (!copy || (a.ofmt == a.ifmt && a.rmode == 0 && !a.sat && !a.wfmt)) && (!(Gd.expert w) || !mx) &&
        fget (Gd.word w 7) 62 2 == 0),
      (8, fget (Gd.word w 8) 32 32 == 0),
      (9 + nodeSlot owner / 64, (Gd.slots w).contains (nodeSlot owner)),
      (bad.getD 11, bad.isNone),
      (13, Gd.nmem w == (Gd.slots w).length && entryNat w 1 46 2 == 65535 - Gd.nmem w),
      (14, (if o == 0x10 || o == 0x14 || o == 0x20 then decide (Gd.root w < g) else Gd.root w == 0) &&
        entryNat w 1 52 2 / 2 ^ 14 == 0 && entryNat w 1 55 1 == 0),
      (15, decide (Gd.chka w = 0) || (!(Gd.expert w) && ownAddr owner 64 (Gd.chka w) (64 * Gd.chunks w) &&
        faWin (Gd.chka w) == faWin (Gd.dsta w))) ] ++
    (if Gd.ext w < 2 then [] else [(16, fget (Gd.word w 16) 32 32 == 0)]) ++
    (if Gd.ring w then
      [ (17, decide (order.Nodup) && order.contains (nodeRack owner) &&
          entryNat w 2 8 48 / 2 ^ (6 * Gd.nrack w) == 0),
        (23, decide (1 ≤ Gd.nrack w) && decide (Gd.nrack w ≤ 64) && entryNat w 2 57 1 == 255 - entryNat w 2 56 1 &&
          decide (entryNat w 2 58 1 ≤ 1) && entryNat w 2 59 5 == 0 &&
          (Gd.nrack w == 1 || !(o == 0x20 || o == 0x21))) ]
     else if Gd.expert w then
      [ (17, ownAddr owner 8 (Gd.rta w) (lenOf (Gd.rta w))),
        (18, o == 0x31 || (ownAddr owner 64 (Gd.auxa w) (lenOf (Gd.auxa w)) && faWin (Gd.auxa w) == faWin (Gd.dsta w))),
        (19, ownAddr owner 8 (Gd.emapa w) (lenOf (Gd.emapa w)) && faWin (Gd.emapa w) == faWin (Gd.rta w)),
        (20, decide (1 ≤ Gd.nexp w) && decide (Gd.nexp w ≤ 4096) && decide (1 ≤ Gd.topk w) && decide (Gd.topk w ≤ 8) &&
          decide (1 ≤ Gd.lslots w) && decide (Gd.lslots w ≤ 64) && decide (1 ≤ Gd.cap w) && decide (Gd.cap w ≤ 65536)),
        (21, decide (576 ≤ Gd.hid w) && decide (Gd.hid w ≤ 65536) && Gd.hid w % 576 == 0 && entryNat w 2 45 3 == 0),
        (22, decide (Gd.word w 22 = 0)), (23, decide (Gd.word w 23 = 0)) ]
     else []) ++
    (if Gd.ext w = 3 then
      [ (24, fget (Gd.word w 24) 32 32 == 0),
        (25, ownAddr owner 64 (Gd.ssca w) (lenOf (Gd.ssca w)) && faWin (Gd.ssca w) == faWin (Gd.srca w)),
        (26, ownAddr owner 64 (Gd.dsca w) (lenOf (Gd.dsca w)) && faWin (Gd.dsca w) == faWin (Gd.dsta w)) ] ++
      (List.range 5).map (fun i => (27 + i, decide (Gd.word w (27 + i) = 0)))
     else [])

/-- Codes of R230 other than NOP. -/
def greenListed (o : Nat) : Bool :=
  o == 0x01 || (decide (0x10 ≤ o) && decide (o ≤ 0x14)) || o == 0x20 || o == 0x21 || o == 0x30 || o == 0x31

/-- The first offending word of a GREEN descriptor. -/
def greenForm (s : State) (k : Nat) (seedSet : Bool) (w : List Word) : Option Nat :=
  if !(greenListed (Gd.opc w)) then some 0
  else ((greenRules s k seedSet w).find? (fun r => !r.2)).map (·.1)

/-! ### Seeds (R255) -/

/-- The seeds held for the queues of the own node or, after a takeover, of the partner's. -/
def State.seedList (s : State) (k : Nat) : List (BitVec 16 × Word) :=
  if k < 4096 then s.qd.green.seeds else s.qd.green.mseeds
/-- The seed of a context that is set for the queues of a node. -/
def State.seedOf (s : State) (k : Nat) (ctx : BitVec 16) : Option Word :=
  ((s.seedList k).find? (fun x => decide (x.1 = ctx))).map (·.2)
/-- A SEED fetched and not yet performed that will set its seed. -/
def Desc.isSeed (d : Desc) : Bool :=
  (d.stage == 1 || d.stage == 2) && d.type == Ty.GREEN && d.opc == 0x01 && decide (d.w 6 = ~~~ (d.w 5))
/-- The seed in force for a descriptor that is fetched now: that of the last SEED of the context fetched before it,
performed or not (R255). -/
def State.seedNow (s : State) (k : Nat) (ctx : BitVec 16) : Option Word :=
  let l := (s.qd.rings.qs.filter (fun x => decide (x.1 < 4096) == decide (k < 4096) && (s.bind x.1).qctx == ctx)).flatMap
    (fun x => x.2.descs.filter Desc.isSeed)
  match l.foldl (fun (b : Option Desc) d => match b with
      | none => some d
      | some c => if c.no < d.no then some d else some c) none with
  | some d => if (s.seedOf k ctx).isNone ∧ 256 ≤ (s.seedList k).length then none else some (d.w 5)
  | none => s.seedOf k ctx

def State.mapGreen (s : State) (f : Green → Green) : State := s.mapQd (fun q => { q with green := f q.green })

/-- A started GREEN descriptor that has not been taken up. -/
def greenDesc (q : Nat) (ridx : BitVec 32) (opc : Nat) (act : Nat → Desc → State → State) (s : State) : State :=
  match s.ready q ridx Ty.GREEN opc with
  | none => s
  | some (k, d) => act k d s

/-- SEED: the seed is replaced, and mirrored to the partner. -/
def execSeed (q : Fin 4096) (ridx : BitVec 32) (s : State) : Res :=
  .next (greenDesc q.val ridx 0x01 (fun k d s =>
    let ctx := (s.bind k).qctx
    if d.w 6 ≠ ~~~ (d.w 5) then descEnd k ridx St.COMPL s
    else if (s.seedOf k ctx).isNone ∧ 256 ≤ (s.seedList k).length then descDone k ridx St.DESC 5 s
    else
      let put := fun (l : List (BitVec 16 × Word)) => l.filter (fun x => decide (x.1 ≠ ctx)) ++ [(ctx, d.w 5)]
      let s := descEnd k ridx St.OK (s.mapGreen (fun g =>
        if k < 4096 then { g with seeds := put g.seeds } else { g with mseeds := put g.mseeds }))
      if k < 4096 ∧ s.mirroring then s.mirror (fun id => [.mirror (.seed id ctx (d.w 5))]) .nothing [] [] else s) s)

/-! ### The collective table (R239) -/

/-- An entry is freed when the last of its descriptors has left its queue. -/
def collLive (s : State) (c : Coll) : Bool := !c.ended || c.mems.any (fun m => (s.desc? m.key m.ridx).isSome)
/-- The entries in use. -/
def State.colls (s : State) : List Coll := s.qd.green.colls.filter (collLive s)
/-- Change an entry; freed entries leave the table. -/
def State.mapColl (s : State) (no : Nat) (f : Coll → Coll) : State :=
  s.mapGreen (fun g => { g with colls := s.colls.map (fun c => if c.no = no then f c else c) })
/-- An entry by number. -/
def State.coll? (s : State) (no : Nat) : Option Coll := s.qd.green.colls.find? (fun c => c.no == no)

/-- The compared fields of a descriptor, each with its word (R239). -/
def compared (w : List Word) : List (Nat × Word) :=
  [(0, Gd.word w 0 &&& 0x3FFFF)] ++ (if Gd.expert w then [] else [(1, wd (Gd.len w))]) ++
  [(7, Gd.word w 7 &&& 0x3FFFFF00000000)] ++
  (List.range 5).map (fun i => (9 + i, Gd.word w (9 + i))) ++ [(14, wd (fget (Gd.word w 14) 0 48))] ++
  (if Gd.expert w then [(20, Gd.word w 20), (21, wd (Gd.hid w))]
   else if Gd.ring w then (List.range 7).map (fun i => (17 + i, Gd.word w (17 + i))) else []) ++
  (if Gd.opts w then [(26, Gd.word w 26 >>> 8)] ++ (List.range 4).map (fun i => (27 + i, Gd.word w (27 + i))) ++
    [(31, wd (fget (Gd.word w 31) 0 32))] else [])

/-- The first differing word of two descriptors' compared fields. -/
def firstDiff (a b : List Word) : Option Nat :=
  let x := compared a
  let y := compared b
  ((x.zip y).find? (fun p => decide (p.1 ≠ p.2))).map (fun p => p.1.1)

/-- The digest of the compared fields that ring neighbours exchange (R247). -/
def collDigest (w : List Word) : BitVec 128 :=
  (Config.sha3 ((compared w).flatMap (fun x => wordBytes x.2))).setWidth 128

/-- Number of chunks of an entry: for COMB as many as the longest member needs. -/
def collChunks (s : State) (c : Coll) : Nat :=
  if 0 < c.nch then c.nch
  else if Gd.opc c.words = 0x31 then
    (c.mems.map (fun m => match s.desc? m.key m.ridx with
      | some d => Gd.chunks d.words
      | none => 0)).foldl max 0
  else Gd.chunks c.words

/-- Chunks of the plane's own share (R227). -/
def collShare (s : State) (c : Coll) : List Nat :=
  let n := collChunks s c
  if Gd.expert c.words then List.range n
  else (List.range ((n + 17) / 18)).filterMap (fun j => if 18 * j + c.plane < n then some (18 * j + c.plane) else none)

/-- Send to the next rack of the ring. -/
def ringSend (s : State) (c : Coll) (kind chunk : Nat) (d : List Byte) : State :=
  let w := c.words
  let i := ringPos s w
  emit s (.ring (Gd.rackAt w ((i + 1) % max 1 (Gd.nrack w))) c.plane kind c.ctx c.coll chunk d)

/-! ### Aborts (R256) -/

/-- RESULT of an ERR_ABORT completion. -/
def abortResult (node cause : Nat) : Word := wd (node % 2 ^ 14 + cause % 4 * 2 ^ 14)

/-- The collective of an entry ends at every member that is not complete; on a ring the abort goes forward. -/
def collEnd (no : Nat) (st : BitVec 7) (result : Word) (forward : Bool) (s : State) : State :=
  match s.coll? no with
  | none => s
  | some c =>
    if c.ended then s
    else
      let s := c.mems.foldl (fun s m => descDone m.key m.ridx st result s) s
      let s := s.mapColl no (fun c => { c with ended := true, running := false })
      if forward && decide (2 ≤ Gd.nrack c.words) then
        ringSend s c 4 0 (bytesOf 2 c.ctx.toNat ++ bytesOf 2 0 ++ bytesOf 4 c.coll.toNat)
      else s

/-- Abort an entry. -/
def collAbort (no node cause : Nat) (s : State) : State :=
  collEnd no St.ABORT (abortResult node cause) true
    (s.event Rg.green { cat := Cat.FAULT, obj := Obj.COLL, status := St.ABORT,
                        arg0 := wd (match s.coll? no with
                          | some c => c.coll.toNat
                          | none => 0), arg1 := abortResult node cause })

/-- One member's descriptor ends with its own status. -/
def memberEnd (no slot : Nat) (st : BitVec 7) (result : Word) (s : State) : State :=
  match (s.coll? no).bind (fun c => c.mems.find? (fun m => m.slot == slot)) with
  | none => s
  | some m => descDone m.key m.ridx st result s

/-- A member is lost or has failed its check: its own descriptor ends with its status, and the collective
aborts with cause 0. -/
def memberFail (no slot : Nat) (st : BitVec 7) (result : Word) (s : State) : State :=
  collAbort no (mkNode s.qdRack slot).toNat 0 (memberEnd no slot st result s)

/-- COLLECTIVE_ABORT. -/
def execCollectiveAbort (ctx : BitVec 16) (coll : BitVec 32) (node : BitVec 14) (cause : BitVec 2) (s : State) : Res :=
  .next ((s.colls.filter (fun c => decide (c.ctx = ctx) && decide (c.coll = coll))).foldl (fun s c =>
    collAbort c.no node.toNat cause.toNat s) s)

/-- COLLECTIVE_ARRIVAL_TIMEOUT: an entry that has not started aborts with cause 2 (R240). -/
def execCollectiveArrivalTimeout (ctx : BitVec 16) (coll : BitVec 32) (s : State) : Res :=
  .next ((s.colls.filter (fun c => decide (c.ctx = ctx) && decide (c.coll = coll) && !c.running && !c.ended)).foldl
    (fun s c => collAbort c.no 0 2 s) s)

/-! ### COUNT (R243, R244) -/

/-- A member's COUNT: the leading chunks of the plane's share that are whole. -/
def leading (share whole : List Nat) : Nat := (share.takeWhile (fun c => whole.contains c)).length

/-- Raise a member's COUNT to what is whole: the partner is told first. -/
def greenCount (no slot : Nat) (s : State) : State :=
  match s.coll? no with
  | none => s
  | some c => match c.mems.find? (fun m => m.slot == slot) with
    | none => s
    | some m => match s.desc? m.key m.ridx with
      | none => s
      | some d =>
        let n := leading (collShare s c) m.whole
        if n ≤ d.count then s
        else if m.key < 4096 ∧ s.mirroring ∧ (s.bind m.key).qmir then
          s.mirror (fun id => [.mirror (.count id c.ctx c.coll (BitVec.ofNat 8 slot) (BitVec.ofNat 32 n))])
            (.count m.key m.ridx n) [] []
        else raiseCount m.key m.ridx n s

/-- An entry is over once every member's descriptor is. -/
def collCheck (no : Nat) (s : State) : State :=
  match s.coll? no with
  | none => s
  | some c =>
    if c.running ∧ c.mems.all (fun m => (leading (collShare s c) m.whole) == (collShare s c).length ||
        (match s.desc? m.key m.ridx with
         | some d => decide (4 ≤ d.stage)
         | none => true)) then
      s.mapColl no (fun c => { c with ended := true, running := false })
    else s

/-- A chunk has been performed for a member with `n` writes to await. -/
def chunkAt (no slot chunk n : Nat) (s : State) : State :=
  let s := s.mapColl no (fun c => { c with mems := c.mems.map (fun m =>
    if m.slot = slot then
      (if n = 0 then { m with whole := m.whole ++ [chunk] } else { m with out := m.out ++ [(chunk, n)] })
    else m) })
  if n = 0 then collCheck no (greenCount no slot s) else s

/-- Change the number of a descriptor's writes that are not acknowledged. -/
def descWrites (k : Nat) (ridx : BitVec 32) (f : Nat → Nat) (s : State) : State :=
  s.mapDesc k ridx (fun d => { d with writes := f d.writes })

/-- A write of the Green has been answered: `b` is 256 times the chunk plus the slot. -/
def greenDone (no b : Nat) (o : OutReq) (s : State) : State :=
  let slot := b % 256
  let chunk := b / 256
  match s.coll? no with
  | none => s
  | some c => match c.mems.find? (fun m => m.slot == slot) with
    | none => s
    | some m =>
      let s := descWrites m.key m.ridx (fun n => n - 1) s
      if o.st = St.LOST then memberFail no slot St.LOST (wd ((mkNode s.qdRack slot).toNat * 2 ^ 50 + o.woff.toNat)) s
      else if o.st ≠ 0 then
        collCheck no (memberEnd no slot o.st (wd ((mkNode s.qdRack slot).toNat * 2 ^ 50 + o.woff.toNat)) s)
      else
        let left := (m.out.find? (fun x => x.1 == chunk)).map (·.2)
        let s := s.mapColl no (fun c => { c with mems := c.mems.map (fun m =>
          if m.slot ≠ slot then m
          else if left = some 1 then
            { m with out := m.out.filter (fun x => x.1 != chunk), whole := m.whole ++ [chunk] }
          else { m with out := m.out.map (fun x => if x.1 = chunk then (x.1, x.2 - 1) else x) }) })
        collCheck no (greenCount no slot s)

/-! ### Entering and starting (R239, R240) -/

/-- The digests of ring neighbours that have come are compared; one that differs aborts with cause 3. -/
def takeDigest (no : Nat) (fromPrev : Bool) (d : BitVec 128) (s : State) : State :=
  match s.coll? no with
  | none => s
  | some c =>
    if d ≠ collDigest c.words then
      collAbort no (256 * Gd.rackAt c.words ((ringPos s c.words + (if fromPrev then Gd.nrack c.words - 1 else 1)) %
        max 1 (Gd.nrack c.words))) 3 s
    else s.mapColl no (fun c => if fromPrev then { c with dPrev := true } else { c with dNext := true })

/-- Send the digest to both neighbours, and take those that came before. -/
def ringHello (no : Nat) (s : State) : State :=
  match s.coll? no with
  | none => s
  | some c =>
    let w := c.words
    let n := Gd.nrack w
    if n < 2 then s
    else
      let i := ringPos s w
      let d := bytesOf 16 (collDigest w).toNat
      let s := emits s [.ring (Gd.rackAt w ((i + 1) % n)) c.plane 0 c.ctx c.coll 0 d,
                        .ring (Gd.rackAt w ((i + n - 1) % n)) c.plane 1 c.ctx c.coll 0 d]
      let mine := fun (e : BitVec 16 × BitVec 32 × Bool × BitVec 128) => decide (e.1 = c.ctx) && decide (e.2.1 = c.coll)
      let got := s.qd.green.early.filter mine
      let s := s.mapGreen (fun g => { g with early := g.early.filter (fun e => !(mine e)) })
      got.foldl (fun s e => takeDigest no e.2.2.1 e.2.2.2 s) s

/-- Enter a descriptor in the table. -/
def greenEnter (k : Nat) (d : Desc) (s : State) : State :=
  let w := d.words
  let ridx := d.ridx
  let ctx := (s.bind k).qctx
  let slot := nodeSlot (s.bind k).owner
  let plane := s.sharePlane k
  let ks := s.keySlot .own (Gd.kslot w)
  let mem : CollMem := { slot := slot, key := k, ridx := ridx }
  if Gd.kslot w ≠ 0 ∧ ¬(ks.st = 1 ∧ ks.ctx = ctx) then descEnd k ridx St.KEY s
  else match s.colls.find? (fun c => decide (c.ctx = ctx) && decide (c.coll = Gd.coll w) && c.plane == plane) with
    | some c =>
      match firstDiff c.words w with
      | some i => descDone k ridx St.DESC (wd i) s
      | none =>
        if c.mems.any (fun m => m.slot == slot) ∨ c.ended then descDone k ridx St.DESC 7 s
        else descTake k ridx (s.mapColl c.no (fun c => { c with mems := c.mems ++ [mem] }))
    | none =>
      match (List.range 1024).find? (fun i => !(s.colls.any (fun c => c.idx == i))) with
      | none => s
      | some i =>
        let no := s.qd.green.no
        let c : Coll := { no := no, idx := i, plane := plane, ctx := ctx, coll := Gd.coll w, words := w,
                          seed := d.aux.headD 0, opened := s.stamp, mems := [mem] }
        ringHello no (descTake k ridx (s.mapGreen (fun g => { g with colls := s.colls ++ [c], no := no + 1 })))

/-- REDUCE. -/
def execReduce (q : Fin 4096) (ridx : BitVec 32) (s : State) : Res := .next (greenDesc q.val ridx 0x10 greenEnter s)
/-- ALLRED. -/
def execAllred (q : Fin 4096) (ridx : BitVec 32) (s : State) : Res := .next (greenDesc q.val ridx 0x11 greenEnter s)
/-- RSCAT. -/
def execRscat (q : Fin 4096) (ridx : BitVec 32) (s : State) : Res := .next (greenDesc q.val ridx 0x12 greenEnter s)
/-- AGATH. -/
def execAgath (q : Fin 4096) (ridx : BitVec 32) (s : State) : Res := .next (greenDesc q.val ridx 0x13 greenEnter s)
/-- BCAST. -/
def execBcast (q : Fin 4096) (ridx : BitVec 32) (s : State) : Res := .next (greenDesc q.val ridx 0x14 greenEnter s)
/-- SHIFT. -/
def execShift (q : Fin 4096) (ridx : BitVec 32) (s : State) : Res := .next (greenDesc q.val ridx 0x20 greenEnter s)
/-- PERM. -/
def execPerm (q : Fin 4096) (ridx : BitVec 32) (s : State) : Res := .next (greenDesc q.val ridx 0x21 greenEnter s)
/-- DISP. -/
def execDisp (q : Fin 4096) (ridx : BitVec 32) (s : State) : Res := .next (greenDesc q.val ridx 0x30 greenEnter s)
/-- COMB. -/
def execComb (q : Fin 4096) (ridx : BitVec 32) (s : State) : Res := .next (greenDesc q.val ridx 0x31 greenEnter s)

/-- Chunks that the mirrored COUNTs of every member count: a plane taken over goes on after them, when every
member's descriptor had started (R257). -/
def mirroredLead (s : State) (c : Coll) : Nat :=
  if c.mems.any (fun m => match s.desc? m.key m.ridx with
      | some d => !d.inherited
      | none => true) then 0
  else
    let l := if c.plane = s.qdPlane then s.qd.green.hcounts else s.qd.green.mcounts
    let n := fun (slot : Nat) => ((l.find? (fun x => decide (x.1 = c.ctx) && decide (x.2.1 = c.coll) &&
      x.2.2.1 == slot)).map (fun x => x.2.2.2)).getD 0
    (c.mems.map (fun m => n m.slot)).foldl min (2 ^ 32)

/-- Start an entry: every member's work ends with the last chunk of the plane's share. -/
def collStart (c : Coll) (s : State) : State :=
  let share := collShare s c
  let lead := share.take (mirroredLead s c)
  let last := c.mems.getLast?
  let s := match last with
    | some m => s.syncEnd { kind := 3, start := c.opened, wclass := 8, windex := 0, wsub := c.idx, ctx := c.ctx,
                            node := mkNode s.qdRack m.slot, q := m.key % 4096, obj := c.coll.toNat }
    | none => s
  let s := s.mapColl c.no (fun c => { c with running := true, nch := collChunks s c, taken := lead,
                                              mems := c.mems.map (fun m => { m with whole := lead }) })
  let s := c.mems.foldl (fun s m => s.mapDesc m.key m.ridx (fun d => { d with goal := share.length })) s
  if share.isEmpty then
    (c.mems.foldl (fun s m => descEnd m.key m.ridx St.OK s) s).mapColl c.no (fun c => { c with ended := true, running := false })
  else c.mems.foldl (fun s m => greenCount c.no m.slot s) s

/-- An entry may start: every owner has arrived, the ring neighbours agree, and fewer than 64 run (R240,
R245). -/
def collReady (s : State) (c : Coll) : Bool :=
  !c.running && !c.ended && c.mems.length == Gd.nmem c.words &&
  (decide (Gd.nrack c.words < 2) || (c.dPrev && c.dNext)) &&
  decide ((s.colls.filter (fun x => x.running)).length < 64)

/-- Start an entry. An optimizer step first reads every block header of its region, that of the descriptor
which opened the entry; one that does not accept the step ends it here at every member (R354). -/
def collBegin (c : Coll) (s : State) : State :=
  if !(Gd.opts c.words) then collStart c s
  else
    let k := (c.mems.head?.map (·.key)).getD 0
    let o := optRegion s k (Gd.word c.words 25) (BitVec.ofNat 8 (entryNat c.words 3 16 1)) (Gd.len c.words)
    match o.admits s (BitVec.ofNat 32 (Gd.step c.words)) with
    | some (st, r, b) => collEnd c.no st r false (headEvent k o b st s)
    | none => collStart c s

/-- COLLECTIVE_START. -/
def execCollectiveStart (ctx : BitVec 16) (coll : BitVec 32) (s : State) : Res :=
  .next ((s.colls.filter (fun c => decide (c.ctx = ctx) && decide (c.coll = coll))).foldl (fun s c =>
    if collReady s c then collBegin c s else s) s)

/-- RING_DIGEST: one that comes before its entry opens is kept. -/
def execRingDigest (ctx : BitVec 16) (coll : BitVec 32) (fromPrev : Bool) (digest : BitVec 128) (s : State) : Res :=
  .next (
    match s.colls.filter (fun c => decide (c.ctx = ctx) && decide (c.coll = coll)) with
    | [] => s.mapGreen (fun g => { g with early := g.early ++ [(ctx, coll, fromPrev, digest)] })
    | l => l.foldl (fun s c => takeDigest c.no fromPrev digest s) s)

end Sys2Proof.Machine
end

