-- ==== Sys2Proof/Machine/GreenChunk.lean ====
section
/-! DEFINITION. The chunks of a collective: what they read, sum, copy and write (R231, R241-R249), expert
dispatch and combine (R250-R254), and the sentinel (R258). -/

namespace Sys2Proof.Machine

/-! ### Elements -/

/-- First element of chunk `c`, and the first beyond it. -/
def chunkRange (w : List Word) (c : Nat) : Nat × Nat := (c * Gd.ck w, min (Gd.len w) ((c + 1) * Gd.ck w))

/-- Bytes of elements `a` to `a + n - 1` of an array of a format. -/
def elemBytes (f : Nat) (d : List Byte) (a n : Nat) : List Byte := slice d (a * afmtBits f / 8) (n * afmtBits f / 8)

/-- A chunk as written or carried: element bytes and scale bytes of `n` elements. -/
structure Piece where
  n : Nat
  data : List Byte
  scales : List Byte := []
  deriving DecidableEq, Repr

/-- Elements `a` to `a + n - 1` of a piece. A GWIN stream is coded again (R222). -/
def Piece.cut (f : Nat) (p : Piece) (a n : Nat) : Piece :=
  if f = 14 then
    if a = 0 ∧ n = p.n then p
    else { n := n, data := gwinEnc ((((gwinDec ((p.n + 15) / 16) p.data).getD []).drop a).take n) }
  else { n := n, data := elemBytes f p.data a n, scales := (p.scales.drop (a / 32)).take ((n + 31) / 32) }

/-- The bytes of a piece as the ring carries them. -/
def Piece.bytes (p : Piece) : List Byte := p.data ++ p.scales

/-- A piece of `n` elements from the bytes that a ring carries. -/
def pieceOf (f n : Nat) (d : List Byte) : Piece :=
  if f = 14 then { n := n, data := d }
  else
    let k := (n * afmtBits f + 7) / 8
    { n := n, data := d.take k, scales := if afmtMx f then d.drop k else [] }

/-! ### Inputs -/

/-- Elements of its input that the member of a rank supplies to chunk `c`, in the order read (R231). -/
def chunkReads (w : List Word) (rank c : Nat) : List (Nat × Nat) :=
  let r := chunkRange w c
  let sh := Gd.shard w
  let a := max r.1 (rank * sh)
  let b := min r.2 ((rank + 1) * sh)
  match Gd.opc w with
  | 0x13 => if a < b then [(a - rank * sh, b - a)] else []
  | 0x14 => if rank = Gd.root w then [(r.1, r.2 - r.1)] else []
  | 0x21 => if a < b then (List.range (Gd.total w)).map (fun g => (g * sh + (a - rank * sh), b - a)) else []
  | _ => [(r.1, r.2 - r.1)]

/-- Local ranks that supply chunk `c` in the own rack. -/
def chunkSources (w : List Word) (base c : Nat) : List Nat :=
  (List.range (Gd.nmem w)).filter (fun l => !(chunkReads w (base + l) c).isEmpty)

/-- Bytes that a member supplies at element `e` of its input. -/
def fromInput (f : Nat) (reads : List (Nat × Nat)) (m : GreenMember) (e n : Nat) : Piece :=
  let at_ := reads.foldl (fun (r : Nat × Option Nat) x =>
    (r.1 + x.2, if r.2.isNone ∧ x.1 ≤ e ∧ e < x.1 + x.2 then some (r.1 + (e - x.1)) else r.2)) (0, none)
  { n := n, data := elemBytes f m.data (at_.2.getD 0) n,
    scales := if afmtMx f then (m.scales.drop (at_.2.getD 0 / 32)).take ((n + 31) / 32) else [] }

/-- Pieces of which chunk `c` of a member's output is made, by source rank and element (R231). -/
def chunkPieces (w : List Word) (rank c : Nat) : List (Nat × Nat × Nat) :=
  let r := chunkRange w c
  let g := max 1 (Gd.total w)
  let sh := Gd.shard w
  match Gd.opc w with
  | 0x14 => [(Gd.root w, r.1, r.2 - r.1)]
  | 0x20 => [((rank + g - Gd.root w % g) % g, r.1, r.2 - r.1)]
  | o => (List.range g).filterMap (fun x =>
      let a := max r.1 (x * sh)
      let b := min r.2 ((x + 1) * sh)
      if a < b then some (x, (if o = 0x21 then rank * sh else 0) + (a - x * sh), b - a) else none)

/-- The slot of a local rank. -/
def slotAt (w : List Word) (l : Nat) : Nat := (Gd.slots w).getD l 0

/-- A member of an entry by slot, with its descriptor. -/
def memDesc (s : State) (c : Coll) (slot : Nat) : Option (CollMem × Desc) :=
  (c.mems.find? (fun m => m.slot == slot)).bind (fun m => (s.desc? m.key m.ridx).map (fun d => (m, d)))

/-- Whether a member's input stands: its reads, its check value and its coding (R221, R222, R242). -/
def inputStatus (w : List Word) (dw : List Word) (n : Nat) (m : GreenMember) : BitVec 7 :=
  let f := (Gd.actl w).ifmt
  if m.status ≠ St.OK then m.status
  else if !(Gd.sums w) then St.OK
  else if Gd.chka dw ≠ 0 ∧ m.icrc ≠ crc32c (m.data ++ m.scales) then St.CHECK
  else if f = 14 ∧ (gwinDec ((n + 15) / 16) m.data).isNone then St.CHECK
  else if f = 13 ∧ (List.range n).any (fun i => (laccDec (slice m.data (48 * i) 48)).isNone) then St.DESC
  else St.OK

/-- Fabric address of the input bytes of a chunk. -/
def inputAddr (w dw : List Word) (c : Nat) (first : Nat) : Word :=
  let f := (Gd.actl w).ifmt
  Gd.srca dw + wd (if f = 14 then 41600 * c else first * afmtBits f / 8)

/-! ### Outputs -/

/-- Data enciphered at an address under the collective's key slot (R246). -/
def greenSeal (s : State) (w : List Word) (gen : Byte) (a : Word) (d : List Byte) : List Byte :=
  if Gd.kslot w = 0 then d
  else xtsData false (s.keySlot .own (Gd.kslot w)).key gen (fun i => a + wd (64 * i)) d

/-- Write bytes to a member as a tile of one row (R245). -/
def greenWrite (no chunk slot : Nat) (c : Coll) (gen : Byte) (a : Word) (d : List Byte) (s : State) : State :=
  match c.mems.find? (fun m => m.slot == slot) with
  | none => s
  | some m =>
    let que := 256 + localRank c.words slot % 128
    let h : Hdr := { dst := faNode a, ctx := c.ctx, opc := Opc.TWR, kslot := BitVec.ofNat 6 (Gd.kslot c.words),
                     src := s.qNode m.key, cls := 2, gen := gen, que := que, woff := (faWoff a).toNat }
    unitReq { que := que, purpose := .unit Un.GREEN no (256 * chunk + slot) 0,
              parts := tileParts h (mkGeom d.length 1 0 (faWoff a).toNat) (greenSeal s c.words gen a d) }
      (descWrites m.key m.ridx (fun n => n + 1) s)

/-- Write a list of byte strings for a chunk at a member, and note how many answers are awaited. -/
def greenWrites (no chunk slot : Nat) (ws : List (Word × List Byte)) (s : State) : State :=
  match (s.coll? no).bind (fun c => (memDesc s c slot).map (fun m => (c, m))) with
  | none => s
  | some (c, m) =>
    if 4 ≤ m.2.stage then s
    else
      let gen := Gd.dgen m.2.words
      let ws := ws.filter (fun x => !x.2.isEmpty)
      ws.foldl (fun s x => greenWrite no chunk slot c gen x.1 x.2 s) (chunkAt no slot chunk ws.length s)

/-- The check record of a chunk at a member: ICRC as the record holds it, OCRC over what is written (R242). -/
def checkRecord (icrc : BitVec 32) (p : Piece) : List Byte :=
  bytesOf 4 icrc.toNat ++ bytesOf 4 (crc32c p.bytes).toNat ++ List.replicate 56 0

/-- Write a piece of a member's output that starts at its element `first`, for chunk `c`. -/
def writePiece (no chunk slot first : Nat) (icrc : Option (BitVec 32)) (p : Piece) (s : State) : State :=
  match (s.coll? no).bind (fun c => (memDesc s c slot).map (fun m => (c, m))) with
  | none => s
  | some (c, m) =>
    let dw := m.2.words
    let f := Gd.outFmt c.words
    let a := Gd.dsta dw + wd (if f = 14 then 41600 * ((first + 1023) / 1024) else first * afmtBits f / 8)
    let k := match icrc with
      | some v => (v, s)
      | none => draw 32 s
    if p.n = 0 then greenWrites no chunk slot [] s
    else
      greenWrites no chunk slot
        ([(a, p.data)] ++ (if afmtMx f then [(Gd.dsca dw + wd (first / 32), p.scales)] else []) ++
          (if Gd.chka dw = 0 then [] else [(Gd.chka dw + wd (64 * chunk), checkRecord k.1 p)]))
        (if Gd.chka dw = 0 then s else k.2)

/-- What the member of a rank receives of chunk `c` of a sum: first element of its output and the piece. -/
def sumShare (w : List Word) (rank c : Nat) (p : Piece) : Nat × Piece :=
  let r := chunkRange w c
  let f := (Gd.actl w).ofmt
  match Gd.opc w with
  | 0x10 => if rank = Gd.root w then (r.1, p) else (0, { n := 0, data := [] })
  | 0x12 =>
    let sh := Gd.shard w
    let a := max r.1 (rank * sh)
    let b := min r.2 ((rank + 1) * sh)
    if a < b then (a - rank * sh, p.cut f (a - r.1) (b - a)) else (0, { n := 0, data := [] })
  | _ => (r.1, p)

/-- ICRC of a member's record, from its input. -/
def icrcOf (d : GreenIn) (l : Nat) : Option (BitVec 32) := (d.members.find? (fun m => m.member == l)).map (fun m => m.icrc)

/-- Write chunk `c` of a sum to the members of the own rack. -/
def writeSum (no c : Nat) (p : Piece) (icrc : Nat → Option (BitVec 32)) (s : State) : State :=
  match s.coll? no with
  | none => s
  | some e =>
    let w := e.words
    let base := ringPos s w * Gd.nmem w
    (List.range (Gd.nmem w)).foldl (fun s l =>
      let x := sumShare w (base + l) c p
      writePiece no c (slotAt w l) x.1 (icrc l) x.2 s) s

/-! ### The ring (R247-R249) -/

/-- Ring segment of a chunk (R248). -/
def ringSeg (w : List Word) (c : Nat) : Nat := c / 18 % max 1 (Gd.nrack w)

/-- A partial as the ring carries it (R225, R249). -/
def partialBytes (w : List Word) (as : List Acc) : List Byte :=
  if Gd.mode w then gwinEnc as
  else if afmtInt (Gd.actl w).ofmt then packBits 64 (as.map (intOut 64 false))
  else packBits 32 (as.map (fun a => Fp.f32.enc .rne false a.num))

/-- The accumulators that a partial spells; none when a group is malformed. -/
def partialAccs (w : List Word) (n : Nat) (d : List Byte) : Option (List Acc) :=
  if Gd.mode w then (gwinDec ((n + 15) / 16) d).map (fun l => l.take n)
  else if afmtInt (Gd.actl w).ofmt then some ((List.range n).map (afmtElem 12 d []))
  else some ((List.range n).map (afmtElem 0 d []))

/-- LACC48 bytes of accumulators, and back. -/
def accBytes (as : List Acc) : List Byte := as.flatMap Acc.lacc
def bytesAcc (d : List Byte) : List Acc :=
  (List.range (d.length / 48)).map (fun i => (laccDec (slice d (48 * i) 48)).getD {})

/-- A whole sum is encoded once, watched, written to the own members and on a ring gathered forward. -/
def finishSum (no c : Nat) (as : List Acc) (icrc : Nat → Option (BitVec 32)) (s : State) : State :=
  match s.coll? no with
  | none => s
  | some e =>
    let w := e.words
    let a := Gd.actl w
    let r := chunkRange w c
    let o := encodeOut a e.seed (BitVec.ofNat 32 (Gd.step w)) r.1 as
    let p : Piece := { n := r.2 - r.1, data := o.1, scales := o.2 }
    if Gd.opts w then
      let ics := (List.range (Gd.nmem w)).filterMap (fun l => (icrc l).map (fun v => (l, v)))
      let s := s.mapColl no (fun e => { e with ready := e.ready ++ [⟨c, p.data, ics, false⟩] })
      if Gd.nrack w < 2 then s else ringSend s e 3 c (bytesOf 1 (ringPos s w) ++ p.bytes)
    else
    let item : WatchItem := { kind := 0, ctx := e.ctx, key := e.coll.toNat, index := c, fmt := a.ofmt, n := p.n,
                              data := p.data, scales := p.scales, prot := decide (Gd.kslot w ≠ 0) }
    let s := writeSum no c p icrc (s.watch item)
    if Gd.nrack w < 2 then s
    else ringSend s e 3 c (bytesOf 1 (ringPos s w) ++ p.bytes)

/-- The in-rack sum of a chunk and the partial that it waits for come together (R248). -/
def ringMerge (no c : Nat) (icrc : Nat → Option (BitVec 32)) (s : State) : State :=
  match s.coll? no with
  | none => s
  | some e =>
    let w := e.words
    let n := Gd.nrack w
    let i := ringPos s w
    let r := chunkRange w c
    let first := i == (ringSeg w c + 1) % n
    match e.sums.find? (fun x => x.1 == c) with
    | none => s
    | some (_, own) =>
      let go := fun (as : List Acc) (s : State) =>
        let s := s.mapColl no (fun e =>
          { e with sums := e.sums.filter (fun x => x.1 != c), parts := e.parts.filter (fun x => x.1 != c) })
        if i = ringSeg w c then finishSum no c as icrc s else ringSend s e 2 c (partialBytes w as)
      if first then go (bytesAcc own) s
      else match e.parts.find? (fun x => x.1 == c) with
        | none => s
        | some (_, d) => match partialAccs w (r.2 - r.1) d with
          | none => s
          | some as => go (List.zipWith Acc.merge as (bytesAcc own)) s

/-- Gathered pieces of a chunk of AGATH or BCAST from one ring position: first element of the chunk's output
that they fill, and their number of elements. -/
def gatherRange (w : List Word) (pos c : Nat) : Nat × Nat :=
  let r := chunkRange w c
  let nm := Gd.nmem w
  if Gd.opc w = 0x14 then (if Gd.root w / max 1 nm = pos then r else (0, 0))
  else
    let a := max r.1 (pos * nm * Gd.shard w)
    let b := min r.2 ((pos + 1) * nm * Gd.shard w)
    if a < b then (a, b) else (0, 0)

/-- Every part of a chunk of AGATH or BCAST has come: it is written to the own members. -/
def gatherDone (no c : Nat) (s : State) : State :=
  match s.coll? no with
  | none => s
  | some e =>
    let w := e.words
    let f := (Gd.actl w).ofmt
    let need := (List.range (Gd.nrack w)).filter (fun i => (gatherRange w i c).1 < (gatherRange w i c).2)
    let part := fun i => (e.gath.find? (fun x => x.1 == c && x.2.1 == i)).map (fun x => x.2.2)
    if !(need.all (fun i => (part i).isSome)) then s
    else
      let ps := need.map (fun i =>
        let g := gatherRange w i c
        pieceOf f (g.2 - g.1) ((part i).getD []))
      let r := chunkRange w c
      let p : Piece := { n := r.2 - r.1, data := ps.flatMap (fun x => x.data), scales := ps.flatMap (fun x => x.scales) }
      let s := s.mapColl no (fun e => { e with gath := e.gath.filter (fun x => x.1 != c) })
      (List.range (Gd.nmem w)).foldl (fun s l => writePiece no c (slotAt w l) r.1 none p s) s

/-- Take the part of a chunk that came from a ring position. -/
def gatherTake (no c pos : Nat) (d : List Byte) (s : State) : State :=
  gatherDone no c (s.mapColl no (fun e =>
    { e with gath := e.gath.filter (fun x => !(x.1 == c && x.2.1 == pos)) ++ [(c, pos, d)] }))

/-- RING_CHUNK: a partial joins the own sum; a gathered output goes to the own members and on to the next
rack, until it would come back to the rack that sent it. Its first byte names that rack's position (log entry 38). -/
def execRingChunk (ctx : BitVec 16) (coll : BitVec 32) (c : Nat) (gather : Bool) (d : List Byte) (s : State) : Res :=
  .next ((s.colls.filter (fun e => decide (e.ctx = ctx) && decide (e.coll = coll) && e.running &&
      decide (2 ≤ Gd.nrack e.words) && c % 18 == e.plane && decide (c < Gd.chunks e.words))).foldl (fun s e =>
    let w := e.words
    let r := chunkRange w c
    if !gather then
      ringMerge e.no c (fun _ => none) (s.mapColl e.no (fun e =>
        { e with parts := e.parts.filter (fun x => x.1 != c) ++ [(c, d)] }))
    else
      let pos := natOf (d.take 1)
      let s := if (ringPos s w + 1) % Gd.nrack w = pos then s else ringSend s e 3 c d
      if Gd.opts w then
        s.mapColl e.no (fun e => { e with ready := e.ready ++ [⟨c, d.drop 1, [], false⟩] })
      else if Gd.sums w then writeSum e.no c (pieceOf (Gd.actl w).ofmt (r.2 - r.1) (d.drop 1)) (fun _ => none) s
      else gatherTake e.no c pos (d.drop 1) s) s)

/-! ### Experts (R250-R254) -/

/-- Route array of a member: expert and weight bits of choice `j` of token `t`. -/
def routeAt (m : GreenMember) (topk t j : Nat) : Nat × Nat :=
  let b := slice m.scales (8 * (t * topk + j)) 8
  (natOf (slice b 0 2), natOf (slice b 4 4))

/-- The expert map, after the route array of rank 0: RANK and SLOT of an expert. -/
def emapAt (w dw : List Word) (m : GreenMember) (e : Nat) : Nat × Nat :=
  let v := natOf (slice m.scales (8 * Gd.len dw * Gd.topk w + 4 * e) 4)
  (v % 256, v / 256 % 64)

/-- Two experts held in one place, or a map whose entries break R250. -/
def emapBad (w dw : List Word) (m : GreenMember) : Bool :=
  let l := ((List.range (Gd.nexp w)).map (emapAt w dw m)).filter (fun x => x.1 != 0xFF)
  !(decide (l.Nodup)) || l.any (fun x => decide (Gd.lslots w ≤ x.2) || decide (Gd.total w ≤ x.1))

/-- A choice of a token: source rank, token, choice, the row it takes at a rank, and its weight bits; no row
for a dropped or skipped choice (R251). -/
structure Choice where
  r : Nat
  t : Nat
  j : Nat
  row : Option (Nat × Nat)
  wgt : Nat
  deriving DecidableEq, Repr

/-- The rows of every choice (R251). `toks` gives each rank's tokens. -/
def routeRows (w : List Word) (map : Nat → Nat × Nat) (route : Nat → Nat → Nat → Nat × Nat) (toks : List Nat) :
    List Choice :=
  let all := (toks.mapIdx (fun r n => (r, n))).flatMap (fun x =>
    (List.range x.2).flatMap (fun t => (List.range (Gd.topk w)).map (fun j => (x.1, t, j))))
  (all.foldl (fun (st : Tbl Nat × List Choice) x =>
    let e := route x.1 x.2.1 x.2.2
    let skipped := e.1 == 0xFFFF || decide (Gd.nexp w ≤ e.1) || (map e.1).1 == 0xFF
    if skipped then (st.1, st.2 ++ [⟨x.1, x.2.1, x.2.2, none, e.2⟩])
    else
      let n := Tbl.at st.1 e.1
      let row := if n < Gd.cap w then some ((map e.1).1, (map e.1).2 * Gd.cap w + n) else none
      (Tbl.put st.1 e.1 (n + 1), st.2 ++ [⟨x.1, x.2.1, x.2.2, row, e.2⟩])) ([], [])).2

/-- The plane's columns: the first one and their number (R227). -/
def planeCols (w : List Word) (plane : Nat) : Nat × Nat := (plane * (Gd.hid w / 18), Gd.hid w / 18)

/-- Row-index and count arrays that plane 0 writes at a holder for a chunk (R252). -/
def dispArrays (w dw : List Word) (cs : List Choice) (rank c : Nat) : List (Word × List Byte) :=
  let rows := Gd.lslots w * Gd.cap w
  let lo := c * Gd.rc w
  let hi := min rows ((c + 1) * Gd.rc w)
  let entry := fun (row : Nat) => match cs.find? (fun x => decide (x.row = some (rank, row))) with
    | some x => wd (x.r + x.t * 2 ^ 8 + x.j * 2 ^ 32)
    | none => ~~~ (0 : Word)
  let index := (Gd.auxa dw + wd (8 * lo), (List.range (hi - lo)).flatMap (fun i => wordBytes (entry (lo + i))))
  let filled := fun (l : Nat) => BitVec.ofNat 32 ((cs.filter (fun x => match x.row with
    | some (r, row) => r == rank && row / max 1 (Gd.cap w) == l
    | none => false)).length)
  let counts := (Gd.auxa dw + wd (8 * rows), (List.range (Gd.lslots w)).flatMap (fun l =>
    bytesOf 4 (filled l).toNat ++ bytesOf 4 (~~~ (filled l)).toNat))
  if c = 0 then [index, counts] else [index]

/-- Bytes of the plane's columns of row `row` of a member's input. -/
def rowSlice (w : List Word) (m : GreenMember) (row : Nat) : List Byte :=
  let n := Gd.hid w / 18
  elemBytes (Gd.actl w).ifmt m.data (row * n) n

/-- What a chunk of DISP writes at the member of a rank: the columns of the tokens that take its rows. -/
def dispWrites (w dw : List Word) (plane rank c : Nat) (cs : List Choice) (input : Nat → Option GreenMember) :
    List (Word × List Byte) :=
  let f := (Gd.actl w).ofmt
  let cols := planeCols w plane
  let lo := c * Gd.rc w
  cs.filterMap (fun x => match x.row with
    | some (r, row) =>
      if r = rank ∧ lo ≤ row ∧ row < lo + Gd.rc w then
        (input x.r).map (fun m =>
          (Gd.dsta dw + wd ((row * Gd.hid w + cols.1) * afmtBits f / 8), rowSlice w m x.t))
      else none
    | none => none)

/-- What a chunk of COMB writes at the member of a rank: the weighted sum of each token's placed choices
(R253). -/
def combWrites (w dw : List Word) (plane rank c : Nat) (seed : Word) (cs : List Choice)
    (input : Nat → Option GreenMember) : List (Word × List Byte) :=
  let a := Gd.actl w
  let cols := planeCols w plane
  let lo := c * Gd.rc w
  let wnum := fun (v : Nat) => if a.wfmt then Fp.bf16.dec (v % 65536) else Fp.f32.dec v
  (List.range (min (Gd.len dw) (lo + Gd.rc w) - lo)).map (fun i =>
    let t := lo + i
    let mine := cs.filter (fun x => x.r == rank && x.t == t)
    let acc := fun (col : Nat) => mine.foldl (fun (acc : Acc) x => match x.row with
      | some (r, row) => match input r with
        | some m => acc.addNum (weighted (afmtNum a.ifmt (rowSlice w m row) [] col) (wnum x.wgt))
        | none => acc
      | none => acc) ({ nz := false } : Acc)
    let base := t * Gd.hid w + cols.1
    let o := encodeOut a seed (BitVec.ofNat 32 (Gd.step w)) base ((List.range cols.2).map acc)
    (Gd.dsta dw + wd (base * afmtBits a.ofmt / 8), o.1))

/-- A chunk of DISP or COMB. -/
def expertChunk (e : Coll) (c : Nat) (d : GreenIn) (s : State) : State :=
  let w := e.words
  let dws := (List.range (Gd.nmem w)).map (fun l => ((memDesc s e (slotAt w l)).map (fun m => m.2.words)).getD w)
  let input := fun (r : Nat) => d.members.find? (fun m => m.member == r)
  match input 0 with
  | none => s
  | some m0 =>
    if emapBad w (dws.getD 0 w) m0 then collEnd e.no St.DESC 19 false s
    else
      let route := fun (r t j : Nat) => match input r with
        | some m => routeAt m (Gd.topk w) t j
        | none => (0xFFFF, 0)
      let cs := routeRows w (emapAt w (dws.getD 0 w) m0) route (dws.map Gd.len)
      (List.range (Gd.nmem w)).foldl (fun s l =>
        let dw := dws.getD l w
        let slot := slotAt w l
        let mine := cs.filter (fun x => x.r == l)
        let placed := (mine.filter (fun x => x.row.isSome)).length
        let s := match memDesc s e slot with
          | some m => if Gd.opc w = 0x30 then
              s.mapDesc m.1.key m.1.ridx (fun y => { y with result := wd (placed + (mine.length - placed) * 2 ^ 32) }) else s
          | none => s
        let ws := if Gd.opc w = 0x30 then
            dispWrites w dw e.plane l c cs input ++ (if e.plane = 0 then dispArrays w dw cs l c else [])
          else combWrites w dw e.plane l c e.seed cs input
        greenWrites e.no c slot ws s) s

/-! ### The sentinel (R258) -/

/-- Whether the sentinel samples a chunk. -/
def sampled (s : State) (w : List Word) (c : Nat) : Bool :=
  s.flag F.GR_CTL_SENT_EN &&
  (Config.sha3 (bytesOf 4 (Gd.coll w).toNat ++ bytesOf 4 (Gd.step w) ++ bytesOf 4 c)).toNat %
    2 ^ (s.fl F.GR_CTL_SENT_LOG2) == 0

/-- What the sentinel makes of a chunk's sums: the sum to use, or none when three computations differ. -/
def sentinel (e : Coll) (c : Nat) (as : List Acc) (d : GreenIn) (s : State) : Option (List Acc) × State :=
  if !(sampled s e.words c) then (some as, s)
  else
    let s := s.count F.GR_SENT_CNT_SAMPLED
    let a := accBytes as
    let b := d.second.getD a
    if b = a then (some as, s)
    else
      let third := d.third.getD a
      let s := s.count F.GR_SENT_CNT_MISMATCH
      let prot := decide (Gd.kslot e.words ≠ 0)
      let s := s.setRg R.GR_SENT_LAST (if prot then 0 else
        wd (e.coll.toNat + e.ctx.toNat * 2 ^ 32 + d.groupA.val * 2 ^ 48 + (d.groupA.val + 24) % 48 * 2 ^ 54))
      let s := s.event Rg.green { cat := Cat.INTEGRITY, obj := Obj.COLL, ctx := e.ctx, arg0 := wd e.coll.toNat, arg1 := wd c }
      let g := d.groupA.val
      if third = a then (some as, s.score 4 ((g + 24) % 48) 512)
      else if third = b then (some (bytesAcc b), s.score 4 g 512)
      else (none, (((s.score 4 g 4096).score 4 ((g + 24) % 48) 4096).score 4 ((g + 12) % 48) 4096).count F.GR_SENT_CNT_NOMAJ)

/-! ### GREEN_CHUNK (R242, R245) -/

/-- Accumulators of a chunk over the inputs of a rack. -/
def sumInputs (f n : Nat) (ins : List GreenMember) : List Acc :=
  let arrays := ins.map (fun m => if f = 14 then ((gwinDec ((n + 15) / 16) m.data).getD []).take n
    else (List.range n).map (afmtElem f m.data m.scales))
  arrays.foldl (List.zipWith Acc.merge) (List.replicate n {})

/-- Every input of a chunk stands: it is summed or copied. -/
def chunkGo (e : Coll) (c : Nat) (d : GreenIn) (s : State) : State :=
  let w := e.words
  let f := (Gd.actl w).ifmt
  let r := chunkRange w c
  let n := r.2 - r.1
  let pos := ringPos s w
  let base := pos * Gd.nmem w
  let icrc := icrcOf d
  if Gd.expert w then expertChunk e c d s
  else if Gd.sums w then
    match sentinel e c (sumInputs f n d.members) d s with
    | (none, s) =>
      if e.again.contains c then collEnd e.no St.CHECK 0 false s
      else s.mapColl e.no (fun x => { x with taken := x.taken.filter (fun y => y != c), again := x.again ++ [c] })
    | (some as, s) =>
      if Gd.nrack w < 2 then finishSum e.no c as icrc s
      else ringMerge e.no c icrc (s.mapColl e.no (fun x => { x with sums := x.sums ++ [(c, accBytes as)] }))
  else
    let get := fun (p : Nat × Nat × Nat) =>
      match d.members.find? (fun m => base + m.member == p.1) with
      | some m => fromInput f (chunkReads w p.1 c) m p.2.1 p.2.2
      | none => { n := 0, data := [] }
    let join := fun (l : List Piece) => ({ n := n, data := l.flatMap (fun x => x.data),
                                           scales := l.flatMap (fun x => x.scales) } : Piece)
    if Gd.nrack w < 2 then
      (List.range (Gd.nmem w)).foldl (fun s l =>
        writePiece e.no c (slotAt w l) r.1 (icrc l) (join ((chunkPieces w l c).map get)) s) s
    else
      let own := join (((chunkPieces w 0 c).filter (fun p => decide (base ≤ p.1) && decide (p.1 < base + Gd.nmem w))).map get)
      gatherTake e.no c pos own.bytes (ringSend s e 3 c (bytesOf 1 pos ++ own.bytes))

/-- GREEN_CHUNK: a lane group takes a ready chunk of the plane's share. Its inputs are journalled; one that
fails ends its member's descriptor and aborts the collective. -/
def execGreenChunk (ctx : BitVec 16) (coll : BitVec 32) (c : Nat) (d : GreenIn) (s : State) : Res :=
  .next (
    match s.colls.find? (fun e => decide (e.ctx = ctx) && decide (e.coll = coll) && e.running &&
        (collShare s e).contains c && !(e.taken.contains c)) with
    | none => s
    | some e =>
      let w := e.words
      let r := chunkRange w c
      let base := ringPos s w * Gd.nmem w
      let need := if Gd.expert w then List.range (Gd.nmem w) else chunkSources w base c
      if need.isEmpty ∨ s.qd.boot.pwr ≠ 0 ∨ !(need.all (fun l => d.members.any (fun m => m.member == l))) then s
      else
        let ins := need.filterMap (fun l => d.members.find? (fun m => m.member == l))
        let dwOf := fun (m : GreenMember) => ((memDesc s e (slotAt w m.member)).map (fun x => x.2.words)).getD w
        let addr := fun (m : GreenMember) =>
          inputAddr w (dwOf m) c (((chunkReads w (base + m.member) c).head?.map (·.1)).getD 0)
        let s := ins.foldl (fun s m => if m.status = St.OK then
          s.indig ctx 0x08 0 (if Gd.expert w then Gd.srca (dwOf m) else addr m) (m.data ++ m.scales) else s) s
        let s := s.mapColl e.no (fun x => { x with taken := x.taken ++ [c] })
        match ins.find? (fun m => decide (inputStatus w (dwOf m) (r.2 - r.1) m ≠ St.OK)) with
        | some m => memberFail e.no (slotAt w m.member) (inputStatus w (dwOf m) (r.2 - r.1) m) (addr m) s
        | none => chunkGo e c { d with members := ins } s)

end Sys2Proof.Machine
end

