-- ==== Sys2Proof/Machine/Ferry.lean ====
section
/-! DEFINITION. The Ferry: transfers between racks, their segments and acknowledgements, and the records
that it relays (R19, R134, R407-R409, R449, R452). -/

namespace Sys2Proof.Machine

/-- Change the Ferry. -/
def State.mapFerry (s : State) (f : Ferry → Ferry) : State := s.mapQd (fun q => { q with ferry := f q.ferry })

/-! ### Segments (R407) -/

/-- The GCM nonce: SRACK, DRACK, PLANE and 15 zero bits, then IVCTR, each number with its first byte
highest (log entry 41). -/
def segNonce (h0 h2 : Word) : List Byte :=
  (bytesOf 4 (fget h0 6 6 * 2 ^ 26 + fget h0 0 6 * 2 ^ 20 + fget h0 12 5 * 2 ^ 15)).reverse ++
  (bytesOf 8 h2.toNat).reverse

/-- The associated data: header bytes 0 to 23, HOPS taken as zero, since each rack on the way raises it
(log entry 41). -/
def segAad (h0 h1 h2 : Word) : List Byte := wordBytes (fset h0 48 2 0) ++ wordBytes h1 ++ wordBytes h2

/-- A segment with its payload enciphered under the key in use; IVCTR rises. -/
def sealSegment (rack xid segi nseg kind : Nat) (d : List Byte) (s : State) : Segment × State :=
  let h0 := wd (rack % 64 + s.qdRack % 64 * 2 ^ 6 + s.qdPlane % 32 * 2 ^ 12 + xid % 64 * 2 ^ 17 +
    segi % 4096 * 2 ^ 23 + d.length % 512 * 2 ^ 35 + kind % 16 * 2 ^ 44)
  let h1 := wd ((2 ^ 44 - 1 - fget h0 0 44) + (nseg - 1) % 4096 * 2 ^ 44)
  let h2 := s.qd.ferry.iv
  let c := Config.gcmSeal s.qd.ferry.key (segNonce h0 h2) (segAad h0 h1 h2) d
  let data := slice c.1 0 d.length
  let tag := slice c.2 0 16
  (⟨h0, h1, h2, wd (crc32c (data ++ tag)).toNat, data, tag⟩, s.mapFerry (fun f => { f with iv := f.iv + 1 }))

/-- The payload of a segment under the key in use or the previous one; none where the tag fails. -/
def State.openSegment (s : State) (g : Segment) : Option (List Byte) :=
  let try_ := fun (k : List Byte) =>
    if k.isEmpty then none
    else (Config.gcmOpen k (segNonce g.h0 g.h2) (segAad g.h0 g.h1 g.h2) g.data g.tag).map (fun d => slice d 0 g.len)
  match try_ s.qd.ferry.key with
  | some d => some d
  | none => try_ s.qd.ferry.prev

/-- Live ports of a remote entry's FSET in ascending order (R193, R409). -/
def State.fset (s : State) (rack : Nat) : List Nat :=
  let w := s.rg (R.RT_REMOTE rack)
  let st := Machine.fget w 8 2
  if !(routeOk w) || !(st == 1 || st == 2) then []
  else ((List.range 14).filter (fun j => bitAt w (10 + j) && s.portUp (146 + j))).map (146 + ·)

/-- Send a segment on the port that its XID and index select; with no live port it is lost. -/
def sendSegment (rack : Nat) (g : Segment) (s : State) : State :=
  let l := s.fset rack
  if l.isEmpty then s else ferryOut (l.getD ((g.xid + g.segi) % l.length) 146) g s

/-- Segments of a transfer's bytes. -/
def segCount (d : List Byte) : Nat := max 1 ((d.length + 255) / 256)

/-- Send one segment of a transfer under the key in use. -/
def sendPart (t : FerryTx) (i : Nat) (s : State) : State :=
  if s.qd.ferry.key.isEmpty then s
  else
    let r := sealSegment t.rack t.xid i (segCount t.data) t.kind ((t.data.drop (256 * i)).take 256) s
    sendSegment t.rack r.1 r.2

/-- Open a transfer and send its segments. -/
def openTransfer (t : FerryTx) (s : State) : State :=
  let s := s.mapFerry (fun f => { f with tx := f.tx ++ [t], no := f.no + 1 })
  (List.range (segCount t.data)).foldl (fun s i => sendPart t i s) s

/-- Change the transfers sent that a test selects. -/
def State.mapTx (s : State) (p : FerryTx → Bool) (f : FerryTx → FerryTx) : State :=
  s.mapFerry (fun x => { x with tx := x.tx.map (fun t => if p t then f t else t) })

/-- Change the transfers received that a test selects. -/
def State.mapRx (s : State) (p : FerryRx → Bool) (f : FerryRx → FerryRx) : State :=
  s.mapFerry (fun x => { x with rx := x.rx.map (fun t => if p t then f t else t) })

/-! ### Sending requests (R408) -/

/-- The records that make the next transfer: at most 1 MiB, and none after a FENCE. -/
def takeRecords : List Packet → Nat → List Packet
  | [], _ => []
  | p :: ps, n =>
    if 2 ^ 20 < n + p.bytes.length then []
    else if p.opc == Opc.FENCE then [p]
    else p :: takeRecords ps (n + p.bytes.length)

/-- TRANSFER_CLOSE: the records gathered for a rack leave as a transfer, whose index is a free one. -/
def execTransferClose (rack : Fin 64) (s : State) : Res :=
  .next (
    let mine := (s.qd.ferry.gather.filter (fun g => g.1 == rack.val)).map (·.2)
    let used := (s.qd.ferry.tx.filter (fun t => t.rack == rack.val && t.kind == 0)).map (·.xid)
    let free := (List.range 64).filter (fun x => !(used.contains x))
    if s.fenced || s.qd.boot.pwr != 0 || mine.isEmpty || free.isEmpty || s.qd.ferry.key.isEmpty || !(s.unitOn 11 2) then s
    else
      let recs := takeRecords mine 0
      let k := pickMany 1 free s
      let xid := k.1.headD 0
      let s := k.2.mapFerry (fun f => { f with
        gather := f.gather.filter (fun g => g.1 != rack.val) ++ (mine.drop recs.length).map (fun p => (rack.val, p))
        rx := f.rx.filter (fun r => !(r.rack == rack.val && r.xid == xid && r.kind == 1)) })
      openTransfer { no := s.qd.ferry.no, rack := rack.val, xid := xid, recs := recs, data := recs.flatMap Packet.bytes } s)

/-! ### Relaying records (R408) -/

/-- The whole packets that bytes spell, one after another. -/
def packetsOf : Nat → List Byte → List Packet
  | 0, _ => []
  | fuel + 1, b =>
    if b.length < 32 then []
    else packetOf b :: packetsOf fuel (b.drop (16 * hdrSlots (wordAt b 0) (wordAt b 24)))

/-- The acknowledged form of a posted opcode. -/
def ackedOpc (o : Nat) : Nat :=
  if o == Opc.ST then Opc.STA else if o == Opc.STM then Opc.STMA else if o == Opc.RED then Opc.REDA else o

/-- Records of one request: the packets of one part of a tile write, or one packet. -/
def groupRecords : List Packet → List (List Packet)
  | [] => []
  | p :: ps =>
    match groupRecords ps with
    | [] => [[p]]
    | g :: gs =>
      let q := g.headD p
      if p.opc == Opc.TWR && q.opc == Opc.TWR && decide (p.key = q.key) && p.aux / 16 == q.aux / 16 then (p :: g) :: gs
      else [p] :: g :: gs

/-- The packets that relay a request on QUE 384 + SRACK; a read of a coherent window goes line by line
(R131). -/
def relayParts (s : State) (rack : Nat) (ps : List Packet) : List (List Packet) :=
  match ps with
  | [] => []
  | p :: _ =>
    let h := fun (p : Packet) => { p.hdr with src := s.qdNode, que := 384 + rack, opc := ackedOpc p.opc, rty := false,
                                              ece := false, status := 0 }
    if (p.opc == Opc.LD || p.opc == Opc.TRD) && (s.cohWin p.fabric).isSome then
      let runs := if p.opc == Opc.LD then [(p.off, p.len)]
        else ((p.geom.getD default).partRuns).map (fun r => (r.1, r.2.2))
      (linesOf runs).map (fun o =>
        let a := mkFa p.dst.toNat p.win o
        let far := s.homePlane ((a >>> 7).setWidth 57) != s.qdPlane
        [Hdr.packet { h p with opc := Opc.RDNA, cls := 1, ord := 0, geo := false, len := 0, aux := b2n far,
                               woff := (faWoff a).toNat } none none []])
    else [ps.map (fun p => Hdr.packet (h p) p.geom p.mask p.data)]

/-- Issue the records of a transfer; a FENCE record waits for its place. -/
def issueRecords (rack xid : Nat) (ps : List Packet) (s : State) : State :=
  (groupRecords ps).foldl (fun s g =>
    let no := s.qd.ferry.no
    let s := s.mapFerry (fun f => { f with no := no + 1, jobs := f.jobs ++ [{ no := no, rack := rack, xid := xid, pkts := g }] })
    if (g.headD default).opc == Opc.FENCE then s
    else unitReq { que := 384 + rack, purpose := .unit Un.RELAY no 0 0, parts := relayParts s rack g } s) s

/-- FENCE records whose earlier records of the same SRC and QUE have been answered are answered. -/
def answerFences (s : State) : State :=
  let jobs := s.qd.ferry.jobs
  s.mapFerry (fun f => { f with jobs := f.jobs.map (fun j =>
    match j.pkts with
    | [p] =>
      if p.opc == Opc.FENCE && j.answers.isNone && jobs.all (fun k => decide (j.no ≤ k.no) || k.answers.isSome ||
          k.pkts.all (fun q => decide (q.src ≠ p.src) || decide (q.que ≠ p.que))) then
        { j with answers := some [p.answer St.OK] }
      else j
    | _ => j) })

/-- Responses in transfers of at most 1 MiB; one without bytes where none is due. -/
def respTransfers : List Packet → List Byte → List (List Byte)
  | [], b => [b]
  | p :: ps, b =>
    if b.length + p.bytes.length ≤ 2 ^ 20 then respTransfers ps (b ++ p.bytes) else b :: respTransfers ps p.bytes

/-- Send the next RESP transfer of a received transfer. -/
def nextResp (rack xid : Nat) (s : State) : State :=
  match s.qd.ferry.rx.find? (fun r => r.rack == rack && r.xid == xid && r.kind == 0 && r.answered) with
  | none => s
  | some r =>
    match r.resp with
    | [] => s.mapFerry (fun f => { f with rx := f.rx.filter (fun r => !(r.rack == rack && r.xid == xid && r.kind == 0)) })
    | d :: ds =>
      let s := s.mapRx (fun r => r.rack == rack && r.xid == xid && r.kind == 0) (fun r => { r with resp := ds })
      openTransfer { no := s.qd.ferry.no, rack := rack, xid := xid, kind := 1, data := d } s

/-- Transfers whose records have all been answered return their responses. -/
def ferrySettle (s : State) : State :=
  let s := answerFences s
  (s.qd.ferry.rx.filter (fun r => r.kind == 0 && r.whole && !r.answered)).foldl (fun s r =>
    let js := s.qd.ferry.jobs.filter (fun j => j.rack == r.rack && j.xid == r.xid)
    if js.any (fun j => j.answers.isNone) then s
    else
      let resp := respTransfers (js.flatMap (fun j => j.answers.getD [])) []
      let s := s.mapFerry (fun f => { f with jobs := f.jobs.filter (fun j => !(j.rack == r.rack && j.xid == r.xid)) })
      let s := s.mapRx (fun x => x.rack == r.rack && x.xid == r.xid && x.kind == 0) (fun x => { x with answered := true, resp := resp })
      nextResp r.rack r.xid s) s

/-- The packets that answer a relayed request, with the original SRC, QUE, TAG and TSEQ. A posted record is
answered by an error notice only. -/
def relayAnswers (o : OutReq) (ps : List Packet) : List Packet :=
  match ps with
  | [] => []
  | p :: _ =>
    let coh := o.parts.any (fun x => (x.pkts.headD default).opc == Opc.RDNA)
    if o.st ≠ 0 then [if o.st = St.UNMAPPED then p.answerAt o.st o.woff.toNat else p.answer o.st]
    else if opcIsPosted p.opc then []
    else if p.opc == Opc.LD then
      [p.answer St.OK (if coh then gatherLines o.data p.off p.len else slice (o.bytes p.len) 0 p.len)]
    else if p.opc == Opc.TRD then
      let g := p.geom.getD default
      trdPackets p g (if coh then g.partRuns.flatMap (fun r => gatherLines o.data r.1 r.2.2) else o.bytes g.partLen)
    else [p.answer St.OK]

/-- A relayed request has been answered. -/
def relayAnswered (o : OutReq) (no : Nat) (s : State) : State :=
  ferrySettle (s.mapFerry (fun f => { f with jobs := f.jobs.map (fun j =>
    if j.no = no then { j with answers := some (relayAnswers o j.pkts) } else j) }))

/-! ### Receiving (R408, R409) -/

/-- A segment for another rack is forwarded by its remote entry with HOPS + 1, or discarded after the
third. -/
def forwardSegment (g : Segment) (s : State) : State :=
  if g.hops = 3 then s else sendSegment g.drack { g with h0 := fset g.h0 48 2 (g.hops + 1) } s

/-- Take a segment into its transfer; true where the transfer has just become whole. -/
def takeSegment (g : Segment) (d : List Byte) (s : State) : Bool × State :=
  let is := fun (r : FerryRx) => r.rack == g.srack && r.xid == g.xid && r.kind == g.kind
  let fresh : FerryRx := { rack := g.srack, xid := g.xid, kind := g.kind, nseg := g.nseg }
  let old := (s.qd.ferry.rx.find? is).getD fresh
  let again := old.segs.any (fun x => x.1 == g.segi && x.2 == d)
  -- a further RESP transfer of the same index begins
  let old := if g.kind = 1 ∧ old.whole ∧ !again then fresh else old
  let segs := if old.segs.any (fun x => x.1 == g.segi) then old.segs else old.segs ++ [(g.segi, d)]
  let whole := decide (old.nseg ≤ segs.length)
  let r := { old with segs := segs, ackDue := true, whole := whole }
  (whole && !old.whole, s.mapFerry (fun f => { f with rx := f.rx.filter (fun x => !(is x)) ++ [r] }))

/-- The bytes of a whole transfer. -/
def FerryRx.bytes (r : FerryRx) : List Byte :=
  (List.range r.nseg).flatMap (fun i => match r.segs.find? (fun x => x.1 == i) with
    | some x => x.2
    | none => [])

/-- The transfer of a segment. -/
def State.rxOf (s : State) (g : Segment) : Option FerryRx :=
  s.qd.ferry.rx.find? (fun r => r.rack == g.srack && r.xid == g.xid && r.kind == g.kind)

/-- A segment has come on a Ferry port: of one kind, for this rack or another; `f` uses its payload. -/
def ferrySegment (kind : Nat) (g : Segment) (f : List Byte → State → State) (s : State) : State :=
  if s.fenced || g.kind != kind || !(s.unitOn 11 2) then s
  else if g.drack ≠ s.qdRack then forwardSegment g s
  else match s.openSegment g with
    | none => s
    | some d => f d s

/-- FERRY_DATA. -/
def execFerryData (_p : Fin 160) (g : Segment) (s : State) : Res :=
  .next (ferrySegment 0 g (fun d s =>
    let r := takeSegment g d s
    if r.1 then
      match r.2.rxOf g with
      | none => r.2
      | some x => ferrySettle (issueRecords g.srack g.xid (packetsOf (x.bytes.length / 32 + 1) x.bytes) r.2)
    else r.2) s)

/-- FENCE answers whose earlier transfers with records of the same SRC and QUE have been acknowledged go to
their sources. -/
def releaseFences (s : State) : State :=
  s.qd.ferry.fences.foldl (fun s x =>
    if s.qd.ferry.tx.any (fun t => decide (t.no < x.1) && t.kind == 0 &&
        t.recs.any (fun q => decide (q.src = x.2.dst) && decide (q.que = x.2.que))) then s
    else emit (s.mapFerry (fun f => { f with fences := f.fences.filter (fun y => decide (y ≠ x)) })) (.unitSend x.2)) s

/-- A response has come back: its record is answered, and it goes to its source. -/
def respBack (no : Nat) (p : Packet) (s : State) : State :=
  let s := s.mapTx (fun t => t.no == no) (fun t => { t with recs := t.recs.filter (fun q =>
    !(decide (q.src = p.dst) && decide (q.que = p.que) && decide (q.tag = p.tag) && decide (q.tseq = p.tseq) &&
      q.opc == p.opc && !(opcIsPosted q.opc) && (q.opc != Opc.TWR && q.opc != Opc.TRD || q.aux / 16 == p.aux / 16 ||
      decide (q.woff = p.woff)))) })
  if p.opc == Opc.FENCE then s.mapFerry (fun f => { f with fences := f.fences ++ [(no, p)] })
  else emit s (.unitSend p)

/-- FERRY_RESP: the responses of a whole RESP transfer go to their sources. Its last segment is the
end-to-end acknowledgement (R134). -/
def execFerryResp (_p : Fin 160) (g : Segment) (s : State) : Res :=
  .next (ferrySegment 1 g (fun d s =>
    match s.qd.ferry.tx.find? (fun t => t.rack == g.srack && t.xid == g.xid && t.kind == 0) with
    | none => s.mapRx (fun r => r.rack == g.srack && r.xid == g.xid && r.kind == 1) (fun r => { r with ackDue := true })
    | some t =>
      let r := takeSegment g d s
      if r.1 then
        match r.2.rxOf g with
        | none => r.2
        | some x =>
          let s := (packetsOf (x.bytes.length / 32 + 1) x.bytes).foldl (fun s p => respBack t.no p s) r.2
          let s := s.mapFerry (fun f => { f with tx := f.tx.filter (fun y =>
            !(y.no == t.no && y.recs.all (fun q => opcIsPosted q.opc))) })
          releaseFences s
      else r.2) s)

/-- FERRY_ACK: the count of leading segments, the kind acknowledged in byte 2 (log entry 41), and a bitmap
of the next 64. -/
def execFerryAck (_p : Fin 160) (g : Segment) (s : State) : Res :=
  .next (ferrySegment 2 g (fun d s =>
    let n := natOf (slice d 0 2)
    let kind := (d.getD 2 0).toNat
    let bits := wordAt d 8
    let got := List.range n ++ ((List.range 64).filter (bitAt bits ·)).map (n + ·)
    let is := fun (t : FerryTx) => t.rack == g.srack && t.xid == g.xid && t.kind == kind
    let s := s.mapTx is (fun t => { t with acked := (t.acked ++ got).eraseDups })
    match s.qd.ferry.tx.find? is with
    | none => s
    | some t =>
      if t.kind = 1 ∧ (List.range (segCount t.data)).all (fun i => t.acked.contains i) then
        nextResp t.rack t.xid (s.mapFerry (fun f => { f with tx := f.tx.filter (fun x => x.no != t.no) }))
      else s) s)

/-- FERRY_ABORT: the collective that the payload names aborts with cause 1, and the abort goes forward
(R256). -/
def execFerryAbort (_p : Fin 160) (g : Segment) (s : State) : Res :=
  .next (ferrySegment 3 g (fun d s =>
    let ctx := BitVec.ofNat 16 (natOf (slice d 0 2))
    let coll := BitVec.ofNat 32 (natOf (slice d 4 4))
    (s.colls.filter (fun c => decide (c.ctx = ctx) && decide (c.coll = coll))).foldl (fun s c =>
      collAbort c.no (256 * g.srack) 1 s) s) s)

/-- Leading segments that a transfer has. -/
def FerryRx.lead (r : FerryRx) : Nat :=
  ((List.range r.nseg).takeWhile (fun i => r.segs.any (fun x => x.1 == i))).length

/-- FERRY_ACK_SEND. -/
def execFerryAckSend (rack : Fin 64) (xid : Fin 64) (s : State) : Res :=
  .next (
    if s.fenced || s.qd.ferry.key.isEmpty then s
    else (s.qd.ferry.rx.filter (fun r => r.rack == rack.val && r.xid == xid.val && r.ackDue)).foldl (fun s r =>
      let n := r.lead
      let bits := natOf ((List.range 8).map (fun b => BitVec.ofNat 8 ((List.range 8).foldl (fun a i =>
        if r.segs.any (fun x => x.1 == n + 8 * b + i) then a + 2 ^ i else a) 0)))
      let d := bytesOf 2 n ++ bytesOf 1 r.kind ++ List.replicate 5 0 ++ bytesOf 8 bits
      let g := sealSegment rack.val xid.val 0 1 2 d s
      sendSegment rack.val g.1 (g.2.mapRx (fun x => x.rack == r.rack && x.xid == r.xid && x.kind == r.kind)
        (fun x => { x with ackDue := false }))) s)

/-- SEGMENT_RESEND_TIMEOUT: a segment still missing is sent again, at most 8 times. -/
def execSegmentResendTimeout (rack : Fin 64) (xid : Fin 64) (seg : BitVec 12) (s : State) : Res :=
  .next (
    if s.fenced then s
    else (s.qd.ferry.tx.filter (fun t => t.rack == rack.val && t.xid == xid.val && decide (seg.toNat < segCount t.data) &&
        !(t.acked.contains seg.toNat) && decide (Tbl.at t.resent seg.toNat < 8))).foldl (fun s t =>
      sendPart t seg.toNat (s.mapTx (fun x => x.no == t.no) (fun x => { x with resent := Tbl.mod x.resent seg.toNat (· + 1) }))) s)

/-- A peer rack is lost: every record for it completes with ERR_LOST, an event is raised, and the collectives
whose ring holds it abort with cause 1 (R256, R409). -/
def rackLost (rack : Nat) (s : State) : State :=
  let recs := (s.qd.ferry.gather.filter (fun g => g.1 == rack)).map (·.2) ++
    (s.qd.ferry.tx.filter (fun t => t.rack == rack && t.kind == 0)).flatMap (·.recs) 
  let held := s.qd.ferry.fences.filter (fun x => nodeRack x.2.src == rack)
  let s := s.mapFerry (fun f => { f with
    gather := f.gather.filter (fun g => g.1 != rack), tx := f.tx.filter (fun t => t.rack != rack)
    rx := f.rx.filter (fun r => r.rack != rack), jobs := f.jobs.filter (fun j => j.rack != rack)
    fences := f.fences.filter (fun x => nodeRack x.2.src != rack) })
  let s := emits s (recs.map (fun p => Out.unitSend (p.answer St.LOST)))
  let s := emits s (held.map (fun x => Out.unitSend { x.2 with w3 := fset x.2.w3 57 7 St.LOST.toNat }))
  let s := s.event Rg.ferry { cat := Cat.FAULT, obj := Obj.NONE, status := St.LOST, arg0 := wd rack, arg1 := 1 }
  let s := (s.colls.filter (fun c => (List.range (Gd.nrack c.words)).any (fun i => Gd.rackAt c.words i == rack))).foldl
    (fun s c => collAbort c.no (256 * rack) 1 s) s
  releaseFences s

/-- PEER_RACK_LOST: a transfer to the rack has segments that are not acknowledged (R409). -/
def execPeerRackLost (rack : Fin 64) (s : State) : Res :=
  .next (
    if s.fenced || !(s.qd.ferry.tx.any (fun t => t.rack == rack.val &&
        !((List.range (segCount t.data)).all (fun i => t.acked.contains i)))) then s
    else rackLost rack.val s)

/-- FERRY_KEY_EXPIRE: the previous key is no longer accepted (R449). -/
def execFerryKeyExpire (s : State) : Res := .next (s.mapFerry (fun f => { f with prev := [] }))

end Sys2Proof.Machine
end

