-- ==== Sys2Proof/Machine/Rsl.lean ====
section
/-! DEFINITION. The rack service links (R410-R413), the references, and the timebase against the marks
(R414-R417, R425); and the write rule that register commands share (R9, R537). -/

namespace Sys2Proof.Machine

/-! ### A register written whole (R9, R537) -/

/-- A register with a value written, or none where the write changes a field that only set-up state writes.
What W1S and WO bits do is left to the command. -/
def State.writeReg (s : State) (off : Nat) (v : Word) : Option State :=
  match regRow? off with
  | none => none
  | some r =>
    let old := s.rg off
    let m := r.rw ||| r.rwl
    if !s.inSetup && decide ((v ^^^ old) &&& r.rwl ≠ 0) then none
    else some (s.setRg off ((old &&& ~~~ m) ||| (v &&& m)))

/-- A dropped register command with its event and its answer (R537). -/
def regDrop (off : Nat) (v : Word) (ans : BitVec 7 → List Out) (s : State) : State :=
  emits (s.refused (blockRing off) off v) (ans 0x13)

/-! ### Frames (R412) -/

/-- A rack service link. -/
def State.rsl (s : State) : RslLink → Rsl
  | .a => s.qd.rslA
  | .b => s.qd.rslB

/-- Change a rack service link. -/
def State.mapRsl (s : State) (l : RslLink) (f : Rsl → Rsl) : State :=
  match l with
  | .a => s.mapQd (fun q => { q with rslA := f q.rslA })
  | .b => s.mapQd (fun q => { q with rslB := f q.rslB })

/-- Number of a link. -/
def rslNo : RslLink → Nat
  | .a => 0
  | .b => 1

/-- The source of register accesses that a link is. -/
def rslSrc : RslLink → RegSrc
  | .a => .rslA
  | .b => .rslB

namespace F
abbrev lock : RslLink → Fld
  | .a => F.RSL_ALIGN_LOCK_A
  | .b => F.RSL_ALIGN_LOCK_B
abbrev pos : RslLink → Fld
  | .a => F.RSL_ALIGN_POS_A
  | .b => F.RSL_ALIGN_POS_B
abbrev viol : RslLink → Fld
  | .a => F.RSL_ALIGN_VIOL_A
  | .b => F.RSL_ALIGN_VIOL_B
abbrev pres : RslLink → Fld
  | .a => F.CLK_STS_PRES_A
  | .b => F.CLK_STS_PRES_B
abbrev dly : RslLink → Fld
  | .a => F.RSL_DLY_DLY_A
  | .b => F.RSL_DLY_DLY_B
abbrev crcOf : RslLink → Fld
  | .a => F.RSL_STS_CRC_A
  | .b => F.RSL_STS_CRC_B
end F

/-- A frame that the QD1 sends of its own accord. -/
def rslSend (l : RslLink) (typ : Nat) (payload : List Byte) (s : State) : State :=
  (emit s (.rslFrame l (BitVec.ofNat 8 typ) (s.rsl l).seq payload)).mapRsl l (fun r => { r with seq := r.seq + 1 })

/-- A frame on both links. -/
def rslBoth (typ : Nat) (payload : List Byte) (s : State) : State := rslSend .b typ payload (rslSend .a typ payload s)

/-- The answer of a request, kept under its SEQ among the last 16 of the link. -/
def rslAnswer (l : RslLink) (typ seq : Byte) (payload : List Byte) (s : State) : State :=
  (emit s (.rslFrame l typ seq payload)).mapRsl l (fun r =>
    let a := r.answers ++ [(seq, typ, payload)]
    { r with answers := a.drop (a.length - 16) })

/-- A request of a link: one that repeats a kept SEQ is answered again and not performed (R412). One whose
answer still waits is answered once the answer is there. -/
def rslRequest (l : RslLink) (seq : Byte) (act : State → State) (s : State) : State :=
  match (s.rsl l).answers.find? (fun a => decide (a.1 = seq)) with
  | some a => if a.2.2.isEmpty then s else (emit s (.rslFrame l a.2.1 seq a.2.2)).count F.RSL_STS_REPEAT
  | none => act s

/-- Keep the place of an answer that is still to come. -/
def rslPlace (l : RslLink) (typ seq : Byte) (s : State) : State :=
  s.mapRsl l (fun r =>
    let a := r.answers ++ [(seq, typ, [])]
    { r with answers := a.drop (a.length - 16) })

/-- The 32 bytes of an event record. -/
def EvRec.bytes (e : EvRec) : List Byte := wordBytes e.e0 ++ wordBytes e.e1 ++ wordBytes e.e2 ++ wordBytes e.e3

/-- An event that is also sent in an EVT frame on both links (R494). -/
def State.eventBoth (s : State) (ring : Nat) (e : Ev) : State :=
  let u := ringUnit ring
  let r := e.record (s.stampOf ring) u.1 u.2 false (Tbl.at s.qd.trace.rings ring).total
  rslBoth 0x20 r.bytes (s.event ring e)

/-! ### References (R414-R417) -/

/-- The reference that CLK_CTL.REFSEL selects among those present: under automatic selection RSL A whenever
its comma detector holds. A forced selection has no other reference (DEDUCED, log entry 42). -/
def State.refChoice (s : State) : Option RslLink :=
  let p := fun (l : RslLink) => s.flag (F.pres l)
  match s.fl F.CLK_CTL_REFSEL with
  | 1 => if p .a then some .a else none
  | 2 => if p .b then some .b else none
  | _ =>
    if p .a && s.flag F.RSL_ALIGN_LOCK_A then some .a
    else if p .b then some .b
    else if p .a then some .a else none

/-- The PLL takes a reference, and the marks come from its link. -/
def takeRef (l : RslLink) (s : State) : State :=
  (s.setFl F.CLK_STS_REF (rslNo l)).setFl F.RSL_STS_SEL (rslNo l)

/-- Holdover begins. -/
def startHoldover (s : State) : State :=
  if s.flag F.CLK_STS_HOLD ∨ !(s.flag F.CLK_STS_LOCK) then s
  else
    let s := (s.setFl F.CLK_STS_HOLD 1).score 0xA 0 256
    (s.setFl F.CLK_STS_LOCK 0).mapQd (fun q => { q with aon := { q.aon with holdFrom := q.aon.ns.toNat } })

/-- A reference is lost: the PLL moves to the other, or enters holdover. -/
def refLost (l : RslLink) (s : State) : State :=
  if !(s.flag (F.pres l)) then s
  else
    let s := (s.setFl (F.pres l) 0).score 0xA 0 256
    match s.refChoice with
    | some r => takeRef r s
    | none => startHoldover s

/-- REFERENCE_LOSS. -/
def execReferenceLoss (l : RslLink) (s : State) : Res := .next (refLost l s)

/-- REFERENCE_RETURN: the PLL pulls in; HOLD clears at a mark within 64 ns (R417). -/
def execReferenceReturn (l : RslLink) (s : State) : Res :=
  .next (
    let s := s.setFl (F.pres l) 1
    let s := match s.refChoice with
      | some r => takeRef r s
      | none => s
    if s.flag F.CLK_STS_HOLD ∧ s.refChoice.isSome then s.setFl F.CLK_STS_LOCK 1 else s)

/-- HOLDOVER_EVENT: every 10 minutes of holdover. Its category is not stated (DESIGN CHOICE, log entry 43). -/
def execHoldoverEvent (s : State) : Res :=
  .next (if s.flag F.CLK_STS_HOLD then s.event Rg.clock { cat := Cat.INFO, obj := Obj.CLKREF, arg1 := 1 } else s)

/-! ### Alignment (R413) -/

/-- The comma detector of a link changes. -/
def setLock (l : RslLink) (on : Bool) (s : State) : State :=
  let old := s.flag (F.lock l)
  if old = on then s
  else
    let s := (s.setFl (F.lock l) (b2n on)).event Rg.hm
      { cat := Cat.LINK, obj := Obj.RSL, arg0 := wd (rslNo l), arg1 := wd (b2n old + b2n on * 256) }
    if on then match s.refChoice with
      | some r => if s.flag F.CLK_STS_LOCK then takeRef r s else s
      | none => s
    else refLost l s

/-- RSL_LOCK_LOSS: four code violations within 64 symbols. -/
def execRslLockLoss (l : RslLink) (s : State) : Res :=
  .next (
    if s.flag (F.lock l) then setLock l false (((s.count (F.viol l) 4).score 9 (rslNo l) 64))
    else s)

/-- A SLIP of a link, with what its comma detector then finds. -/
def slipLink (l : RslLink) (lock : Bool) (s : State) : State :=
  setLock l lock (s.setFl (F.pos l) ((s.fl (F.pos l) + 1) % 10))

/-- SLIP. -/
def execSlip (l : RslLink) (lock : Bool) (s : State) : Res := .next (slipLink l lock s)

/-! ### Time marks (R411, R425) -/

/-- The timebase meets a mark: loaded by the first, stepped forward where it is behind, and given back where
it is ahead, over the next 1 µs for up to 64 ns and at half rate beyond. -/
def meetMark (m : Nat) (s : State) : State :=
  let a := s.qd.aon
  let cur := a.ns.toNat * 2 ^ 32 + a.frac.toNat
  let tgt := m * 2 ^ 32
  s.mapQd (fun q => { q with aon :=
    if !a.sync then { a with ns := BitVec.ofNat 60 m, frac := 0, sync := true, ahead := 0, rate := 0 }
    else if cur ≤ tgt then { a with ns := BitVec.ofNat 60 m, frac := 0, ahead := 0, rate := 0 }
    else
      { a with ahead := cur - tgt
               rate := if cur - tgt ≤ 64 * 2 ^ 32 then (cur - tgt) / 159 + 1 else (6 * 2 ^ 32 + 1178968523) / 2 } })

/-- HOLD clears when the PLL is locked and the error against a mark is below 64 ns (R417). -/
def clearHold (m : Nat) (s : State) : State :=
  let ns := s.qd.aon.ns.toNat
  if s.flag F.CLK_STS_HOLD ∧ s.flag F.CLK_STS_LOCK ∧ ns < m + 64 ∧ m < ns + 64 then
    (s.setFl F.CLK_STS_HOLD 0).setFl F.CLK_STS_HOLD_MS ((ns - s.qd.aon.holdFrom) / 1000000)
  else s

/-- TIME_MARK: a mark of the selected link; one whose complement fails is ignored. -/
def execTimeMark (l : RslLink) (v c : Word) (s : State) : Res :=
  .next (
    if c ≠ ~~~ v ∨ !(s.flag (F.lock l)) ∨ s.fl F.RSL_STS_SEL ≠ rslNo l then s
    else
      let m := v.toNat - s.fl (F.dly l)
      meetMark m (clearHold m s))

end Sys2Proof.Machine
end

