-- ==== Sys2Proof/Machine/SvapoRegs.lean ====
section
/-! DEFINITION. The registers of a Svapo block as its register channel and management accesses reach
them, its key slots and its reset (R74, R75, R367-R375, R378, R384, R387-R389, R443, R448, R451, R556). -/

namespace Sys2Proof.Machine

/-! ### Reads -/

/-- OUT and FULL of a queue beside CTX and EN (R369). -/
def State.qctl0 (s : State) (q : Nat) : Word :=
  let n := (s.outOf q).length
  wd ((s.qctx q).toNat + b2n (s.qen q) * 2 ^ 16 + n % 512 * 2 ^ 17 + b2n (decide (512 ≤ n)) * 2 ^ 26)

/-- STICKY and SWOFF of a queue. -/
def State.qctl1 (s : State) (q : Nat) : Word :=
  wd ((s.eq q).sticky.toNat + (s.eq q).swoff.toNat * 2 ^ 7)

/-- SV_KS of a slot (R378). -/
def KeySlot.word (k : KeySlot) : Word := wd (k.st.toNat + k.sgen.toNat * 2 ^ 2 + k.ctx.toNat * 2 ^ 10)

/-- SV_LIM_STS (R387). -/
def State.limSts (s : State) : Word :=
  let n := fun (f : LimPair → Bool) => (s.sv.lim.filter (fun x => f x.2)).length
  wd (n (fun l => l.rate == s.srf SR.SV_LIM_CTL 2 8) % 512 + n (fun l => decide (l.rate < 256)) % 512 * 2 ^ 9)

/-- SV_CA_STS (R384). -/
def State.caSts (s : State) : Word :=
  let n := fun (f : AgState → Bool) => (s.sv.lines.filter (fun x => f x.2.st)).length
  wd (n (fun a => a != .i) / 2 % 2 ^ 16 + n (fun a => a == .m || a == .o) / 2 % 2 ^ 16 * 2 ^ 16 +
    min 255 (n (fun a => !a.stable)) * 2 ^ 32)

/-- A word of a table entry. -/
def Entry.word (e : Entry) (i : Nat) : Word :=
  match i with
  | 0 => e.w0
  | 1 => e.w1
  | 2 => e.w2
  | 3 => e.w3
  | 4 => e.n0
  | 5 => e.n1
  | 6 => e.n2
  | _ => e.n3

/-- A word of a record. -/
def EvRec.word (e : EvRec) (i : Nat) : Word :=
  match i with
  | 0 => e.e0
  | 1 => e.e1
  | 2 => e.e2
  | _ => e.e3

/-- What a management load reads at an offset (R368, R369, R448); an unlisted offset reads as zero. -/
def State.svRead (s : State) (off : Nat) : Word :=
  if off % 8 ≠ 0 then 0
  else if off = SR.SV_ID then wd (s.sv.nberth % 32 + b2n s.sv.ca * 2 ^ 5 + Config.macroRev.toNat * 2 ^ 8)
  else if 0x0100 ≤ off ∧ off < 0x0300 then
    (if off % 16 = 0 then s.qctl0 ((off - 0x0100) / 16) else s.qctl1 ((off - 0x0100) / 16))
  else if off = SR.WIN_WITHDRAW ∨ off = SR.SV_WT_CMD then 0
  else if 0x1100 ≤ off ∧ off < 0x1300 then (Tbl.at s.sv.keys ((off - 0x1100) / 8)).word
  else if off = SR.SV_LIM_STS then s.limSts
  else if off = SR.SV_CA_CTL then (if s.sv.ca then s.sr off else 0)
  else if off = SR.SV_CA_STS then (if s.sv.ca then s.caSts else 0)
  else if 0x4000 ≤ off ∧ off < 0x5000 then (s.wte .sv ((off - 0x4000) / 64)).word (off % 64 / 8)
  else if 0x8000 ≤ off ∧ off < 0xA000 then (Tbl.at s.sv.ring.recs ((off - 0x8000) / 32)).word (off % 32 / 8)
  else if 0xC000 ≤ off ∧ off < 0xC688 then Tbl.at s.sv.keyStage off
  else if 0xC800 ≤ off ∧ off < 0xCE20 then wordAt s.sv.ek (off - 0xC800)
  else s.sr off

/-! ### Writes on the register channel -/

/-- IP_EVT is high while the ring holds unread records and EVT_EN is 1. -/
def evtLevel (ctl : Word) : Bool := bitAt ctl 1 && decide (fget ctl 16 8 ≠ fget ctl 24 8)

/-- A dropped write that raises an event. -/
def svDrop (off : Nat) (v : Word) (s : State) : BitVec 7 × State := (St.PERM, s.svRefused off v)

/-- SV_TXN_TMO (R74, R75). -/
def svTmoWrite (v : Word) (s : State) : BitVec 7 × State :=
  let new := fset (s.sr SR.SV_TXN_TMO) 0 22 (fget v 0 22)
  let rsp := fget v 0 16
  if new = s.sr SR.SV_TXN_TMO then (St.OK, s)
  else if s.svRun ∨ rsp < 8 ∨ 512 < rsp ∨ fget new 32 16 < rsp * (fget v 16 3 + 1) then svDrop SR.SV_TXN_TMO v s
  else (St.OK, s.setSr SR.SV_TXN_TMO new)

/-- SV_CTL: RUN, EVT_EN and EVT_RD. Leaving set-up state lets the queues issue. -/
def svCtlWrite (v : Word) (s : State) : BitVec 7 × State :=
  let old := s.sr SR.SV_CTL
  let new := fset (fset old 0 2 (fget v 0 2)) 16 8 (fget v 16 8)
  let s := s.setSr SR.SV_CTL new
  let s := if evtLevel old = evtLevel new then s else emit s (.pin "IP_EVT" (evtLevel new))
  (St.OK, if bitAt new 0 then pumpAll s else s)

/-- SV_QCTL word 0 of a queue. -/
def svQctlWrite (q : Nat) (v : Word) (s : State) : BitVec 7 × State :=
  if s.svRun ∧ fget v 0 16 ≠ (s.qctx q).toNat then svDrop (SR.SV_QCTL0 q) v s
  else (St.OK, s.setSr (SR.SV_QCTL0 q) (wd (fget v 0 17)))

/-- SV_LIM_CTL: a field outside its range is refused (R387). -/
def svLimWrite (v : Word) (s : State) : BitVec 7 × State :=
  if fget v 2 8 = 0 ∨ fget v 10 4 = 0 ∨ fget v 14 8 = 0 ∨ fget v 22 10 < 5 ∨ 1000 < fget v 22 10 then
    svDrop SR.SV_LIM_CTL v s
  else (St.OK, pumpAll (s.setSr SR.SV_LIM_CTL (wd (fget v 0 32))))

/-- SV_CA_CTL (R384). -/
def svCaWrite (v : Word) (s : State) : BitVec 7 × State :=
  if !s.sv.ca then (St.OK, s)
  else if fget v 0 8 = 0 ∨ (s.svRun ∧ fget v 0 8 ≠ s.srf SR.SV_CA_CTL 0 8) then svDrop SR.SV_CA_CTL v s
  else
    let s := s.setSrf SR.SV_CA_CTL 0 8 (fget v 0 8)
    (St.OK, if bitAt v 8 then caFlush s else s)

/-- SV_PORT_CTL of a port controller: PRST, LQREQ and LDREQ. -/
def svPortWrite (n : Fin 18) (v : Word) (s : State) : BitVec 7 × State :=
  let p := PortSel.sv n
  let s := (s.setSrf (SR.SV_PORT_CTL n.val) 1 1 (fget v 1 1)).setSrf (SR.SV_PORT_CTL n.val) 2 1 (fget v 2 1)
  let s := if bitAt v 0 then portReset p s else s
  let s := if bitAt v 2 then pmAsk p 2 s else if bitAt v 1 then pmAsk p 1 s else s
  (St.OK, s)

/-- A register that the map lists and the register channel does not write. -/
def svReadOnly (off : Nat) : Bool :=
  off == SR.SV_ID || off == SR.SV_NODE || off == SR.SV_LIM_STS || off == SR.SV_CA_STS ||
  (decide (0x0100 ≤ off) && decide (off < 0x0300) && off % 16 == 8) ||
  (decide (0x1100 ≤ off) && decide (off < 0x1300)) || (decide (0x4000 ≤ off) && decide (off < 0x5000)) ||
  (decide (0x8000 ≤ off) && decide (off < 0xA000)) || (decide (0xC800 ≤ off) && decide (off < 0xCE20))

/-- A register that management accesses write (R368, R369, R448). -/
def svManaged (off : Nat) : Bool :=
  off == SR.SV_LIVE || (decide (0x0400 ≤ off) && decide (off < 0x0490)) ||
  (decide (0x0500 ≤ off) && decide (off < 0x0590)) || (decide (0x0600 ≤ off) && decide (off < 0x0620)) ||
  (decide (0x0800 ≤ off) && decide (off < 0x1000)) || (decide (0xC000 ≤ off) && decide (off < 0xC698))

/-- A register that the register channel writes. -/
def svChannelled (off : Nat) : Bool :=
  off == SR.SV_CTL || off == SR.SV_TXN_TMO || (decide (0x0100 ≤ off) && decide (off < 0x0300) && off % 16 == 0) ||
  (decide (0x1000 ≤ off) && decide (off < 0x1040)) || off == SR.SV_LIM_CTL || off == SR.SV_CA_CTL ||
  (decide (0x1500 ≤ off) && decide (off < 0x1590)) || (decide (0x2000 ≤ off) && decide (off < 0x4000))

/-- A write on the register channel: its outcome, ERR_PERM standing for RG_ERR. -/
def svChanWrite (off : Nat) (v : Word) (s : State) : BitVec 7 × State :=
  if off % 8 ≠ 0 then (St.PERM, s)
  else if svManaged off then svDrop off v s
  else if svReadOnly off then (St.OK, s)
  else if off = SR.SV_CTL then svCtlWrite v s
  else if off = SR.SV_TXN_TMO then svTmoWrite v s
  else if 0x0100 ≤ off ∧ off < 0x0300 then svQctlWrite ((off - 0x0100) / 16) v s
  else if off = SR.SV_PTR_L2F then (St.OK, s.setSr off (s.l2f v))
  else if off = SR.SV_PTR_F2L then (St.OK, s.setSr off (s.f2l v))
  else if off = SR.WIN_WITHDRAW then
    (let w := fget v 0 6
     if (s.wte .sv w).state ≠ 1 then svDrop off v s else (St.OK, s.drain .sv w))
  else if off = SR.SV_WT_CMD then svWtCmd v s
  else if SR.SV_WT_DATA 0 ≤ off ∧ off ≤ SR.SV_WT_DATA 3 then (St.OK, s.setSr off v)
  else if off = SR.SV_LIM_CTL then svLimWrite v s
  else if off = SR.SV_CA_CTL then svCaWrite v s
  else if 0x1500 ≤ off ∧ off < 0x1590 then svPortWrite (Fin.ofNat 18 ((off - 0x1500) / 8)) v s
  else if 0x2000 ≤ off ∧ off < 0x4000 then apertureWrite ((off - 0x2000) / 32) (off % 32 / 8) v s
  else (St.PERM, s)

/-! ### Key slots (R378, R443, R448, R451) -/

/-- KCV of a key (R440). -/
def kcvOf (key : List Byte) (k : Nat) (ctx : BitVec 16) : List Byte :=
  bytesOf 8 (Config.kmac key (([0x51, 0x44, 0x31, 0x4B, 0x43, 0x56] : List Byte) ++ bytesOf 1 k ++ bytesOf 2 ctx.toNat)).toNat

/-- Bytes of the key-load area from an offset. -/
def State.keyArea (s : State) (off n : Nat) : List Byte :=
  let w0 := off / 8 * 8
  slice ((List.range ((n + 15) / 8)).flatMap (fun i => wordBytes (Tbl.at s.sv.keyStage (w0 + 8 * i)))) (off - w0) n

/-- Change a key slot of the Svapo block. -/
def State.mapSvKey (s : State) (k : Nat) (f : KeySlot → KeySlot) : State :=
  s.mapSv (fun v => { v with keys := Tbl.mod v.keys k f })

/-- A load that the slot does not take raises an event. -/
def keyRefused (k : Nat) (ctx : BitVec 16) (s : State) : State :=
  s.svEvent 0xFF { cat := Cat.SECURITY, obj := Obj.KEYSLOT, ctx := ctx, status := St.KEY, arg0 := wd k }

/-- The commit of a key load (R448). The GCM key is the ML-KEM shared secret, and the tag is checked
before the slot (DEDUCED, log entry 40). -/
def keyCommit (s : State) : BitVec 7 × State :=
  let ss := Config.mlkemDecaps s.sv.dk (s.keyArea 0xC000 1568)
  let w := Tbl.at s.sv.keyStage 0xC620
  let k := fget w 0 6
  let ctx := BitVec.ofNat 16 (fget w 16 16)
  match Config.gcmOpen ss (s.keyArea 0xC628 12) (wordBytes w) (s.keyArea 0xC634 64) (s.keyArea 0xC674 16) with
  | none => (St.CHECK, s)
  | some key =>
    let x := Tbl.at s.sv.keys k
    if key.take 32 = key.drop 32 then (St.CHECK, s)
    else if k = 0 then (St.KEY, keyRefused k ctx s)
    else if x.st = 0 then (St.OK, s.mapSvKey k (fun x => { x with st := 1, ctx := ctx, key := key }))
    else if x.st = 1 ∧ x.ctx = ctx ∧ kcvOf x.key k x.ctx = kcvOf key k ctx then (St.OK, s)
    else (St.KEY, keyRefused k ctx s)

/-- The slot's copy is zeroized and the slot is retired, with the replay entries under it (R377, R451). -/
def keyZeroize (k : Nat) (s : State) : State :=
  (s.mapSvKey k (fun x => { x with st := 3, key := [] })).mapNode .sv (fun n => { n with
    replay := n.replay.map (fun (r : ReplayEnt) =>
      if r.kslot.toNat = k then { r with old := List.replicate r.old.length 0 } else r) })

/-- A retire command of a phase: phase 0 makes an active slot retiring, phase 1 zeroizes it. -/
def keyRetireCmd (k phase : Nat) (s : State) : BitVec 7 × State :=
  let st := (Tbl.at s.sv.keys k).st
  if phase = 0 then (St.OK, if st = 1 then s.mapSvKey k (fun x => { x with st := 2 }) else s)
  else (St.OK, if st = 1 ∨ st = 2 then keyZeroize k s else s)

/-! ### Management accesses -/

/-- A management write (R368, R374, R448, R556). -/
def svMgmtWrite (plane : Nat) (off : Nat) (v : Word) (s : State) : BitVec 7 × State :=
  if off % 8 ≠ 0 then (St.PERM, s)
  else if svChannelled off then svDrop off v s
  else if svReadOnly off then (St.OK, s)
  else if !(svManaged off) then (St.PERM, s)
  else if off = SR.SV_LIVE then (St.OK, svLiveWrite plane v s)
  else if off = 0xC688 then keyCommit s
  else if off = 0xC690 then keyRetireCmd (fget v 0 6) (fget v 8 1) s
  else if 0xC000 ≤ off then (St.OK, s.mapSv (fun x => { x with keyStage := Tbl.put x.keyStage off v }))
  else if s.sr SR.SV_LIVE ≠ 0 then (St.PERM, s)
  else (St.OK, s.setSr off v)

/-- MANAGEMENT_ACCESS: checks 1 to 3 of R69, then the register space at OFFSET [15:0]. -/
def execManagementAccess (plane : Fin 18) (p : Packet) (s : State) : Res :=
  .next (
    let v := Via.plane plane
    if s.sv.inReset || !(s.isManagement v p) then s
    else match rxForm [p] with
      | some st => rxFail v [p] p st s
      | none =>
        if p.dst ≠ s.svNode then failPkt v p St.ABSENT none s
        else if p.opc == Opc.LD then reply v (p.answer St.OK (wordBytes (s.svRead (p.off % 65536)))) s
        else
          let r := svMgmtWrite plane.val (p.off % 65536) (wordAt p.data 0) s
          reply v (p.answer r.1) r.2)

/-- KEY_LOAD_COMMIT. -/
def execKeyLoadCommit (_plane : Fin 18) (s : State) : Res :=
  .next (if s.sv.inReset then s else
    let r := keyCommit s
    emits r.2 (regAns .management r.1))

/-- HOLDER_RETIRE_PHASE0. -/
def execHolderRetirePhase0 (_plane : Fin 18) (k : Fin 64) (s : State) : Res :=
  .next (if s.sv.inReset then s else
    let r := keyRetireCmd k.val 0 s
    emits r.2 (regAns .management r.1))

/-- HOLDER_RETIRE_PHASE1. -/
def execHolderRetirePhase1 (_plane : Fin 18) (k : Fin 64) (s : State) : Res :=
  .next (if s.sv.inReset then s else
    let r := keyRetireCmd k.val 1 s
    emits r.2 (regAns .management r.1))

/-- HOLDER_ZEROIZE_TIMEOUT: 50 µs after entering retiring. -/
def execHolderZeroizeTimeout (k : Fin 64) (s : State) : Res :=
  .next (if (Tbl.at s.sv.keys k.val).st = 2 then keyZeroize k.val s else s)

/-- HOLDER_SLOT_RELEASE: 1 ms after retirement the slot is empty, with the next SGEN. -/
def execHolderSlotRelease (k : Fin 64) (s : State) : Res :=
  .next (if (Tbl.at s.sv.keys k.val).st = 3 then
    s.mapSvKey k.val (fun x => { st := 0, sgen := x.sgen + 1 }) else s)

/-! ### Block reset (R388) -/

/-- BLOCK_RESET: everything the block holds is cleared and its ports are down. -/
def execBlockReset (s : State) : Res :=
  .next { s with sv := { nberth := s.sv.nberth, ca := s.sv.ca, inReset := true } }

/-- BLOCK_RESET_RELEASE: set-up state, with a new SV_EK and its decapsulation key (R448). -/
def execBlockResetRelease (s : State) : Res :=
  .next (
    if s.sv.inReset then
      let d := draw 512 s
      d.2.mapSv (fun v => { v with inReset := false, dk := d.1, ek := Config.mlkemPublic d.1 })
    else s)

end Sys2Proof.Machine
end

