-- ==== Sys2Proof/Machine/Customs.lean ====
section
/-! DEFINITION. Customs: reports, deliveries, retirement, scrubs, self-tests and zeroization (R438-R464). -/

namespace Sys2Proof.Machine

/-- Change Customs. -/
def State.mapCust (s : State) (f : Cust → Cust) : State := s.mapQd (fun q => { q with cust := f q.cust })
/-- A key slot of the QD1. -/
def State.ks (s : State) (k : Nat) : KeySlot := Tbl.at s.qd.cust.keys k
/-- Change a key slot of the QD1. -/
def State.mapKs (s : State) (k : Nat) (f : KeySlot → KeySlot) : State :=
  s.mapCust (fun c => { c with keys := Tbl.mod c.keys k f })

/-- A transition of a slot raises an event with the slot and its SGEN (R494). -/
def ksEvent (k : Nat) (st : BitVec 7) (s : State) : State :=
  s.event Rg.customs { cat := Cat.SECURITY, obj := Obj.KEYSLOT, ctx := (s.ks k).ctx, status := st, arg0 := wd k,
                       arg1 := wd (k % 64 + (s.ks k).sgen.toNat * 256) }

/-! ### Identity (R438) -/

/-- The bytes of an ASCII string. -/
def ascii (t : String) : List Byte := t.toList.map (fun c => BitVec.ofNat 8 c.toNat)

/-- A key-pair seed derived from the seed of the physically unclonable function with its helper data. -/
def State.derive (s : State) (label : List Byte) : BitVec 512 :=
  Config.kmac (bytesOf 32 (Config.pufSeed s.qd.boot.cert).toNat) label

/-- A new BOOTID and EK and DK pair are drawn, and AK is derived again. -/
def newIdentity (s : State) : State :=
  let b := draw 64 s
  let d := draw 512 b.2
  let ak := d.2.derive (ascii "QD1 AK" ++ d.2.qd.boot.mfw)
  (d.2.mapCust (fun c => { c with dk := d.1, ak := ak })).mapQd (fun q => { q with boot := { q.boot with bootId := b.1 } })

/-! ### What a zeroized slot ends (R452) -/

/-- Bytes of replay entries under a slot are zeroized (R377). -/
def wipeReplay (k : Nat) (s : State) : State :=
  let f := fun (n : Node) => { n with replay := n.replay.map (fun (r : ReplayEnt) =>
    if r.kslot.toNat = k then { r with old := List.replicate r.old.length 0 } else r) }
  (s.mapNode .own f).mapNode .mir f

/-- Work in flight under a slot ends: collectives that name it, protected allotments that hold it, and the
context's seed. -/
def endSlotWork (k : Nat) (s : State) : State :=
  let ctx := (s.ks k).ctx
  let s := (s.colls.filter (fun c => Gd.kslot c.words == k)).foldl (fun s c => collEnd c.no St.KEY 0 false s) s
  let hit := (List.range 64).filter (fun a => s.alState a != 0 && s.flag (F.ALLOT_STS_W0_PROT a) &&
    s.fl (F.ALLOT_STS_W0_KSLOT a) == k)
  let s := hit.foldl (fun s a => freeAllot a (s.mapAllot a (fun x => { x with keyLost := true }))) s
  s.mapGreen (fun g => { g with seeds := g.seeds.filter (fun x => decide (x.1 ≠ ctx)),
                                mseeds := g.mseeds.filter (fun x => decide (x.1 ≠ ctx)) })

/-- A slot's copies inside the boundary are zeroized: it is retired. -/
def wipeSlot (k : Nat) (s : State) : State :=
  wipeReplay k (ksEvent k 0 (s.mapKs k (fun x => { x with st := 3, key := [] })))

/-- Slots that are active or retiring. -/
def State.liveSlots (s : State) : List Nat :=
  (s.qd.cust.keys.filter (fun x => decide (x.2.st = 1) || decide (x.2.st = 2))).map (·.1)

/-- Every pending work of Customs with holders ends. -/
def dropJobs (s : State) : State :=
  let js := s.qd.cust.jobs
  let s := (s.mapCust (fun c => { c with jobs := [] })).mapSrcs .qd (fun x => { x with
    waits := x.waits.filter (fun w => match w.purpose with
      | .unit u _ _ _ => u != Un.CUST
      | _ => true) })
  js.foldl (fun s j => match j.desc with
    | some (k, r) => descEnd k r St.KEY s
    | none => s) s

/-- Every sensitive parameter is zeroized (R463): the slots are retired, or empty with SGEN 0 after a reset
(R443). -/
def zeroizeAll (empty : Bool) (s : State) : State :=
  let ks := s.liveSlots
  let s := ks.foldl (fun s k => endSlotWork k s) s
  let s := ks.foldl (fun s k => wipeSlot k s) (dropJobs s)
  let s := s.mapCust (fun c => { c with
    keys := if empty then [] else c.keys, holders := if empty then [] else c.holders, dk := 0, ak := 0,
    scrub := if empty then none else c.scrub })
  let s := s.mapGreen (fun g => { g with seeds := [], mseeds := [] })
  s.mapFerry (fun f => { f with key := [], prev := [], iv := 0 })

/-- The error state (R462): the failed test in the order of R461. -/
def customsError (test : Nat) (s : State) : State :=
  let s := (zeroizeAll false s).mapCust (fun c => { c with testing := false })
  let s := ((s.setFl F.CUST_STS_APPROVED 0).setFl F.CUST_STS_ERROR 1).setFl F.CUST_STS_FAIL test
  s.event Rg.customs { cat := Cat.SECURITY, arg0 := wd test }

/-! ### Writing to a tenant's memory -/

/-- Write a buffer from Customs as tiles of one row under QUE 576 (R68, log entry 44). -/
def custWrite (k : Nat) (ridx : BitVec 32) (slot : Nat) (gen : Byte) (fa : Word) (data : List Byte) (s : State) : State :=
  (chunksOf 65536 (data.length + 1) data).mapIdx (fun i c => (i, c)) |>.foldl (fun s x =>
    let fa := fa + wd (65536 * x.1)
    let c := if slot = 0 then x.2 else xtsData false (s.ks slot).key gen (fun i => fa + wd (64 * i)) x.2
    let h : Hdr := { dst := faNode fa, ctx := (s.bind k).qctx, opc := Opc.TWR, kslot := BitVec.ofNat 6 slot,
                     src := s.qNode k, cls := 2, gen := gen, que := 576, woff := (faWoff fa).toNat }
    unitReq { que := 576, purpose := .unit Un.SVC k ridx.toNat 0,
              parts := tileParts h (mkGeom c.length 1 0 (faWoff fa).toNat) c }
      (descWrites k ridx (fun n => n + 1) s)) s

/-- A started CUST descriptor: in the error state it completes with ERR_ABSENT, and during SELFTEST it waits
(R460-R462). One of a queue taken over needs the lost device's keys (log entry 44). -/
def custDesc (q : Nat) (ridx : BitVec 32) (opc : Nat) (act : Nat → Desc → State → State) (s : State) : State :=
  match s.ready q ridx Ty.CUST opc with
  | none => s
  | some (k, d) =>
    if s.qd.cust.testing then s
    else if 4096 ≤ k then descEnd k ridx St.LOST s
    else if !(s.flag F.CUST_STS_APPROVED) then descEnd k ridx St.ABSENT s
    else act k d (descTake k ridx s)

/-! ### The report (R440) -/

/-- Bytes 0 to 13,663 of the report, with AKSIG zero. -/
def reportBody (s : State) (k : Nat) (nonce : List Byte) : List Byte :=
  let ctx := (s.bind k).qctx
  let b := s.qd.boot
  let am := (List.range 64).flatMap (fun a =>
    if s.alState a ≠ 0 ∧ s.fl (F.ALLOT_STS_W0_CTX a) = ctx.toNat then bytesOf 64 (s.allot a).meas.toNat
    else List.replicate 64 0)
  let kcv := (List.range 64).flatMap (fun i =>
    if ((s.ks i).st = 1 ∨ (s.ks i).st = 2) ∧ (s.ks i).ctx = ctx then kcvOf (s.ks i).key i ctx else List.replicate 8 0)
  bytesOf 4 0x54505241 ++ bytesOf 2 1 ++ bytesOf 2 (s.fl F.CUST_STS_APPROVED) ++ wordBytes b.bootId ++
  bytesOf 2 s.qdNode.toNat ++ bytesOf 1 s.qdPlane ++ bytesOf 1 (variantNo s.qd.variant) ++ bytesOf 4 b.svn ++
  wordBytes s.stamp ++ slice nonce 0 64 ++ slice b.mfw 0 64 ++ slice b.msetup 0 64 ++ bytesOf 2 ctx.toNat ++
  List.replicate 30 0 ++ am ++ kcv ++ slice (Config.mlkemPublic s.qd.cust.dk) 0 1568 ++
  slice (Config.mldsaPublic s.qd.cust.ak) 0 2592 ++ List.replicate (13664 - 9024) 0

/-- The whole report. -/
def report (s : State) (k : Nat) (nonce : List Byte) : List Byte :=
  let r := reportBody s k nonce
  let aksig := slice (Config.mldsaSign s.qd.cust.devid (slice r 8 8 ++ slice r 96 64 ++ slice r 6432 2592)) 0 4627
  let r := patch r 9024 aksig
  r ++ slice (Config.mldsaSign s.qd.cust.ak r) 0 4627 ++ List.replicate 13 0

/-- REPORT: the command's operand is the nonce. -/
def execReport (q : Fin 4096) (ridx : BitVec 32) (d : InData) (s : State) : Res :=
  .next (custDesc q.val ridx 1 (fun k x s =>
    if d.status ≠ St.OK then descDone k ridx d.status (x.w 6) s
    else descDone k ridx St.OK 0
      (custWrite k ridx 0 (BitVec.ofNat 8 (fget (x.w 7) 0 8)) (x.w 5) (report s k d.data) s)) s)

/-! ### Holders (R448) -/

/-- A management store of 8 bytes to an end point of the rack. -/
def mgmtSta (s : State) (slot off : Nat) (v : Word) : Packet :=
  Hdr.packet { dst := mkNode s.qdRack slot, ctx := 0, opc := Opc.STA, src := s.qdNode, cls := 1, que := 576,
               woff := 63 * 2 ^ 44 + off, len := 8 } none none (wordBytes v)

/-- Send a management store for a job: slot of the key, end point, and 0 data, 1 commit, 2 phase 0, 3 phase 1. -/
def custSta (k slot c off : Nat) (v : Word) (s : State) : State :=
  unitReq { que := 576, purpose := .unit Un.CUST k slot c, parts := [[mgmtSta s slot off v]] } s

/-- The stores of a job to one end point that have not been answered. -/
def State.custOut (s : State) (k slot c : Nat) : Bool :=
  let f := fun (p : Purpose) => decide (p = .unit Un.CUST k slot c)
  s.qd.srcs.reqs.any (fun o => f o.purpose) || s.qd.srcs.waits.any (fun w => f w.purpose)

/-- The end point whose SV_EK has a digest. -/
def State.holderOf (s : State) (dig : List Byte) : Option Nat :=
  (s.qd.cust.eks.find? (fun x => decide (bytesOf 32 (Config.sha3 x.2).toNat = dig))).map (·.1)

/-- Stores that fill the key-load area of an end point. -/
def sendLoad (k slot : Nat) (s : State) : State :=
  let r := draw 512 s
  let iv := draw 96 r.2
  let e := Config.mlkemEncaps (Tbl.at s.qd.cust.eks slot) r.1
  let w := wd (k + (s.ks k).sgen.toNat * 2 ^ 8 + (s.ks k).ctx.toNat * 2 ^ 16)
  let c := Config.gcmSeal e.2 (bytesOf 12 iv.1.toNat) (wordBytes w) (s.ks k).key
  let area := slice e.1 0 1568 ++ wordBytes w ++ bytesOf 12 iv.1.toNat ++ slice c.1 0 64 ++ slice c.2 0 16 ++
    List.replicate 4 0
  (List.range 209).foldl (fun s i => custSta k slot 0 (0xC000 + 8 * i) (wordAt area (8 * i)) s) iv.2

/-- A holder has not been reached: an event. -/
def notReached (k slot : Nat) (s : State) : State :=
  s.event Rg.customs { cat := Cat.SECURITY, obj := Obj.EP, ctx := (s.ks k).ctx, status := St.KEY, arg0 := wd slot,
                       arg1 := wd (k % 64 + (s.ks k).sgen.toNat * 256) }

/-- Change the job of a slot. -/
def State.mapJob (s : State) (k : Nat) (retire : Bool) (f : CustJob → CustJob) : State :=
  s.mapCust (fun c => { c with jobs := c.jobs.map (fun j => if j.k = k ∧ j.retire = retire then f j else j) })
def State.job? (s : State) (k : Nat) (retire : Bool) : Option CustJob :=
  s.qd.cust.jobs.find? (fun j => j.k == k && j.retire == retire)

/-- A delivery whose holders have all answered completes. -/
def deliverEnd (k : Nat) (s : State) : State :=
  match s.job? k false with
  | some j =>
    if !j.todo.isEmpty then s
    else
      let s := s.mapCust (fun c => { c with jobs := c.jobs.filter (fun x => !(x.k == k && !x.retire)) })
      match j.desc with
      | some (q, r) => descDone q r St.OK (wd (j.got + j.missed * 2 ^ 32)) s
      | none => s
  | none => s

/-- A holder of a job has answered, or has not been reached. -/
def holderDone (k slot : Nat) (retire ok : Bool) (s : State) : State :=
  match s.job? k retire with
  | none => s
  | some j =>
    if !(j.todo.contains slot) then s
    else
      let s := s.mapJob k retire (fun j => { j with
        todo := j.todo.filter (fun x => x != slot), got := j.got + b2n ok, missed := j.missed + b2n !ok })
      let s := if ok then s else notReached k slot s
      if retire then s
      else deliverEnd k (if ok then s.mapCust (fun c => { c with holders := Tbl.mod c.holders k (fun l =>
        if l.contains slot then l else l ++ [slot]) }) else s)

/-- A management store of Customs has been answered. -/
def custDone (k slot c : Nat) (o : OutReq) (s : State) : State :=
  let ok := decide (o.st = 0)
  match c with
  | 0 =>
    if !ok then holderDone k slot false false s
    else if s.custOut k slot 0 then s
    else match s.job? k false with
      | some j => if j.todo.contains slot then custSta k slot 1 0xC688 0 s else s
      | none => s
  | 1 => holderDone k slot false ok s
  | 3 => holderDone k slot true ok s
  | _ => s

/-! ### DELIVER (R446, R447) -/

/-- The key that an envelope carries, if its tag verifies and its halves differ. -/
def State.envKey (s : State) (e : List Byte) : Option (List Byte) :=
  let ss := Config.mlkemDecaps s.qd.cust.dk (slice e 24 1568)
  let wrap := bytesOf 32 (Config.kmac ss (slice e 0 24 ++ ascii "QD1 KEYWRAP")).toNat
  match Config.gcmOpen wrap (slice e 1592 12) (slice e 0 24 ++ e.drop 1728) (slice e 1604 64) (slice e 1668 16) with
  | some key => if key.take 32 = key.drop 32 then none else some key
  | none => none

/-- An accepted tenant key: the slot becomes active and is loaded at each listed holder. -/
def deliverKey (q : Nat) (ridx : BitVec 32) (k : Nat) (key e : List Byte) (s : State) : State :=
  let s := s.mapKs k (fun x => { x with st := 1, ctx := (s.bind q).qctx, key := key, done := false, missed := 0 })
  let s := ksEvent k 0 s
  let digs := (List.range (natOf (slice e 18 2))).map (fun i => slice e (1728 + 32 * i) 32)
  let known := (digs.filterMap s.holderOf).eraseDups
  let lost := (digs.filter (fun d => (s.holderOf d).isNone)).length
  let s := (List.range lost).foldl (fun s _ => notReached k 0xFF s) s
  let j : CustJob := { k := k, retire := false, desc := some (q, ridx), todo := known, missed := lost }
  let s := s.mapCust (fun c => { c with jobs := c.jobs ++ [j], holders := Tbl.put c.holders k [] })
  deliverEnd k (known.foldl (fun s h => sendLoad k h s) s)

/-- The checks of R447 in order, then the key. -/
def deliverEnvelope (k : Nat) (d : Desc) (e : List Byte) (s : State) : State :=
  let r := d.ridx
  let kind := natOf (slice e 4 1)
  let slot := natOf (slice e 5 1)
  let nh := natOf (slice e 18 2)
  let ctx := natOf (slice e 16 2)
  let x := s.ks slot
  if natOf (slice e 0 4) ≠ 0x4C564E45 ∨ 1 < kind ∨ (kind = 0 ∧ (slot = 0 ∨ 63 < slot)) ∨ (kind = 1 ∧ slot ≠ 0) ∨
      144 < nh ∨ (kind = 1 ∧ nh ≠ 0) ∨ d.len ≠ 1728 + 32 * nh then descEnd k r St.DESC s
  else if wordAt e 8 ≠ s.qd.boot.bootId then descEnd k r St.STALE s
  else if ctx ≠ ((s.bind k).qctx).toNat ∨ (kind = 1 ∧ ctx ≠ s.fl F.CUST_CTL_FERRY_CTX) then descEnd k r St.CTX s
  else
    let key := s.envKey e
    if kind = 0 ∧ x.st ≠ 0 then
      match key with
      | some y => if x.st = 1 ∧ x.ctx.toNat = ctx ∧ kcvOf x.key slot x.ctx = kcvOf y slot x.ctx then descDone k r St.OK 0 s
          else descEnd k r St.KEY s
      | none => descEnd k r St.KEY s
    else match key with
      | none => descEnd k r St.CHECK s
      | some y =>
        if kind = 0 then deliverKey k r slot y e s
        else descDone k r St.OK 0 (s.mapFerry (fun f => { f with prev := f.key, key := y, iv := 0 }))

/-- DELIVER: the command's operand is the envelope. -/
def execDeliver (q : Fin 4096) (ridx : BitVec 32) (d : InData) (s : State) : Res :=
  .next (custDesc q.val ridx 2 (fun k x s =>
    if d.status ≠ St.OK then descDone k ridx d.status (x.w 5) s else deliverEnvelope k x (slice d.data 0 x.len) s) s)

/-! ### Retirement (R451, R452) -/

/-- Step 1: the slot is retiring, loads in progress are abandoned and every holder is told. -/
def startRetire (k : Nat) (desc : Option (Nat × BitVec 32)) (s : State) : State :=
  let load := s.job? k false
  let hs := ((Tbl.at s.qd.cust.holders k) ++ (match load with
    | some j => j.todo.filter (fun h => s.custOut k h 1)
    | none => [])).eraseDups
  let s := s.mapCust (fun c => { c with jobs := c.jobs.filter (fun j => !(j.k == k && !j.retire)) })
  let s := s.mapSrcs .qd (fun x => { x with waits := x.waits.filter (fun w => match w.purpose with
    | .unit u a _ c => !(u == Un.CUST && a == k && decide (c ≤ 1))
    | _ => true) })
  let s := match load with
    | some j => (match j.desc with
      | some (q, r) => descEnd q r St.KEY s
      | none => s)
    | none => s
  let s := ksEvent k 0 (s.mapKs k (fun x => { x with st := 2, done := false, missed := 0 }))
  let s := endSlotWork k s
  let s := s.mapCust (fun c => { c with jobs := c.jobs ++ [{ k := k, retire := true, desc := desc, step := 1, todo := hs }] })
  hs.foldl (fun s h => custSta k h 2 0xC690 (wd k) s) s

/-- RETIRE. -/
def execRetire (q : Fin 4096) (ridx : BitVec 32) (s : State) : Res :=
  .next (custDesc q.val ridx 3 (fun k d s =>
    let slot := fget (d.w 7) 0 6
    if (s.ks slot).st = 0 ∨ (s.ks slot).ctx ≠ (s.bind k).qctx then descEnd k ridx St.CTX s
    else if (s.ks slot).st ≠ 1 then
      let e := freeErr s
      descEnd k ridx e.1 e.2
    else startRetire slot (some (k, ridx)) s) s)

/-- KEY_RETIRE: a slot that is not active is refused. In the error state every service is refused with
ERR_ABSENT (R462). -/
def keyRetire (v : Word) (ans : BitVec 7 → List Out) (s : State) : State :=
  let k := fget v 0 6
  if s.flag F.CUST_STS_ERROR then emits (s.refused Rg.customs R.KEY_RETIRE v) (ans St.ABSENT)
  else if (s.ks k).st ≠ 1 then regDrop R.KEY_RETIRE v ans s
  else startRetire k none (emits s (ans St.OK))

/-- KEY_RETIRE. -/
def execKeyRetire (src : RegSrc) (v : Word) (s : State) : Res := .next (keyRetire v (regAns src) s)

/-- RETIRE_DRAIN_END: steps 3 and 4. -/
def execRetireDrainEnd (k : Fin 64) (s : State) : Res :=
  .next (
    match s.job? k.val true with
    | none => s
    | some j =>
      if j.step ≠ 1 then s
      else
        let s := (wipeSlot k.val s).mapJob k.val true (fun j => { j with step := 4 })
        j.todo.foldl (fun s h => custSta k.val h 3 0xC690 (wd (k.val + 256)) s) s)

/-- RETIRE_COMPLETE: every holder has answered or has not been reached. -/
def execRetireComplete (k : Fin 64) (s : State) : Res :=
  .next (
    match s.job? k.val true with
    | none => s
    | some j =>
      if j.step ≠ 4 ∨ !j.todo.isEmpty then s
      else
        let s := s.mapCust (fun c => { c with
          jobs := c.jobs.filter (fun x => !(x.k == k.val && x.retire)), holders := Tbl.put c.holders k.val [] })
        let s := s.mapKs k.val (fun x => { x with done := true, missed := BitVec.ofNat 8 j.missed })
        match j.desc with
        | some (q, r) => descDone q r St.OK (wd (j.got + j.missed * 2 ^ 32)) s
        | none => s)

/-- RETIRE_HOLD_EXPIRE: RHOLD after retirement the slot is empty, with the next SGEN. -/
def execRetireHoldExpire (k : Fin 64) (s : State) : Res :=
  .next (
    if (s.ks k.val).st = 3 ∧ (s.job? k.val true).isNone then
      ksEvent k.val 0 (s.mapKs k.val (fun x => { x with st := 0, sgen := x.sgen + 1, ctx := 0 }))
    else s)

/-! ### Counters for a tenant (R457) -/

/-- The words of a mill's telemetry. -/
def millBlock (m : Nat) (s : State) : List Byte × State :=
  (List.range 8).foldl (fun x w =>
    let r := millTelemetry x.2 m w
    (x.1 ++ wordBytes r.1, r.2)) ([], s)

/-- COUNTERS: header, port blocks of the slot's holders, mill blocks of the context's protected allotments. The
widths of the header's fields are not stated (DESIGN CHOICE, log entry 44). -/
def execCounters (q : Fin 4096) (ridx : BitVec 32) (s : State) : Res :=
  .next (custDesc q.val ridx 4 (fun k d s =>
    let slot := fget (d.w 7) 0 6
    if (s.ks slot).st = 0 ∨ (s.ks slot).ctx ≠ (s.bind k).qctx then descEnd k ridx St.CTX s
    else if (s.ks slot).st ≠ 1 then descEnd k ridx St.KEY s
    else
      let hs := (List.range 144).filter (fun i => (Tbl.at s.qd.cust.holders slot).contains i)
      let ms := (List.range 256).filter (fun m => match s.allotOf m with
        | some a => s.flag (F.ALLOT_STS_W0_PROT a) && s.fl (F.ALLOT_STS_W0_CTX a) == ((s.bind k).qctx).toNat
        | none => false)
      let n := 64 + 128 * hs.length + 64 * ms.length
      if d.len < n then descEnd k ridx St.BOUNDS s
      else
        let head := wordBytes s.stamp ++ wordBytes (wd hs.length) ++ wordBytes (wd ms.length) ++ List.replicate 40 0
        let ports := hs.flatMap (fun h => (List.range 16).flatMap (fun w => wordBytes (s.rg (R.TEL_00 h + 8 * w))))
        let r := ms.foldl (fun x m =>
          let y := millBlock m x.2
          (x.1 ++ y.1, y.2)) (([] : List Byte), s)
        descDone k ridx St.OK (wd n)
          (custWrite k ridx slot (BitVec.ofNat 8 (fget (d.w 7) 6 8)) (d.w 5) (head ++ ports ++ r.1) r.2)) s)

/-! ### Scrubs (R454) -/

/-- Zero a range of the Granary. -/
def Hbm.zero (h : Hbm) (a n : Nat) : Hbm :=
  { mem := h.mem.filter (fun c => !(decide (a ≤ c.1) && decide (c.1 < a + n)))
    bad := h.bad.filter (fun w => !(decide (a ≤ w) && decide (w < a + n))) }

/-- Local ranges behind a window's entry. -/
def Entry.frames (e : Entry) (s : State) (b : Bank) : List (Nat × Nat) :=
  if e.pgsz = 3 then [(e.baseAddr, e.limit)]
  else (List.range (e.limit / e.pageSize)).filterMap (fun i =>
    let pte := wd (natOf ((s.hbm b).read (e.pteAddr i) 8))
    if pteMapped s b e pte then some (fget pte 16 48 * 65536, e.pageSize) else none)

/-- Zero the frames behind the windows of a node that name a slot. -/
def scrubNode (b : Bank) (k : Nat) (s : State) : State :=
  let rs := (List.range 48).flatMap (fun w =>
    let e := s.wte b w
    if e.state ≠ 0 ∧ e.prot ∧ e.kslot.toNat = k ∧ (b = .own ∨ e.mir) then e.frames s b else [])
  s.mapHbm b (fun h => rs.foldl (fun h r => h.zero r.1 r.2) h)

/-- CUST_SCRUB: a slot that is not retired, or a scrub in progress, refuses it. -/
def custScrub (v : Word) (ans : BitVec 7 → List Out) (s : State) : State :=
  let k := fget v 0 6
  if s.flag F.CUST_STS_ERROR then emits (s.refused Rg.customs R.CUST_SCRUB v) (ans St.ABSENT)
  else if (s.ks k).st ≠ 3 ∨ s.qd.cust.scrub.isSome then regDrop R.CUST_SCRUB v ans s
  else
    let s := scrubNode .mir k (scrubNode .own k s)
    emits ((s.mapCust (fun c => { c with scrub := some k })).setFl F.CUST_STS_SCRUB 1) (ans St.OK)

/-- CUST_SCRUB. -/
def execCustScrub (src : RegSrc) (v : Word) (s : State) : Res := .next (custScrub v (regAns src) s)

/-- SCRUB_DONE. -/
def execScrubDone (s : State) : Res :=
  .next ((s.mapCust (fun c => { c with scrub := none })).setFl F.CUST_STS_SCRUB 0)

/-! ### Self-tests and zeroization (R461-R463) -/

/-- A write of CUST_CTL: its fields, then what its W1S bits start. -/
def custCtl (v : Word) (ans : BitVec 7 → List Out) (s : State) : State :=
  if fget v 8 8 = 0 then regDrop R.CUST_CTL v ans s
  else if s.flag F.CUST_STS_ERROR ∧ fget v 0 2 ≠ 0 then emits (s.refused Rg.customs R.CUST_CTL v) (ans St.ABSENT)
  else match s.writeReg R.CUST_CTL v with
    | none => regDrop R.CUST_CTL v ans s
    | some s =>
      let s := if bitAt v 1 then zeroizeAll false s else s
      let s := if bitAt v 0 then s.mapCust (fun c => { c with testing := true }) else s
      emits s (ans St.OK)

/-- SELFTEST: a write of CUST_CTL that sets the bit. -/
def execSelftest (src : RegSrc) (v : Word) (s : State) : Res := .next (custCtl (v ||| 1) (regAns src) s)

/-- ZEROIZE: a write of CUST_CTL that sets the bit. -/
def execZeroize (src : RegSrc) (v : Word) (s : State) : Res := .next (custCtl (v ||| 2) (regAns src) s)

/-- SELFTEST_DONE: protected services resume, or Customs enters its error state. -/
def execSelftestDone (failed : BitVec 8) (s : State) : Res :=
  .next (
    if !s.qd.cust.testing then s
    else if failed = 0 then s.mapCust (fun c => { c with testing := false })
    else customsError failed.toNat s)

/-- ENTROPY_TEST_FAIL. -/
def execEntropyTestFail (test : BitVec 8) (s : State) : Res := .next (customsError test.toNat s)

end Sys2Proof.Machine
end

