-- ==== Sys2Proof/Machine/Power.lean ====
section
/-! DEFINITION. The DVFS sequencer (R419-R421), gating (R423), clock measurement (R424), the adaptive loops
(R428-R432), throttling, thermal trip, power-fail and brown-out (R433-R435, R547). -/

namespace Sys2Proof.Machine

/-- Change the clock unit's state. -/
def State.mapClk (s : State) (f : Clk → Clk) : State := s.mapQd (fun q => { q with clk := f q.clk })
/-- Change the boot and power state. -/
def State.mapBoot (s : State) (f : Boot → Boot) : State := s.mapQd (fun q => { q with boot := f q.boot })

/-- TJMAX lies within 1 °C of TSET (R436). -/
def State.inBand (s : State) : Bool :=
  decide (s.fl F.DVFS_STS_TJMAX ≤ s.fl F.DVFS_CTL_TSET + 1) && decide (s.fl F.DVFS_CTL_TSET ≤ s.fl F.DVFS_STS_TJMAX + 1)

/-- Note a moment at which TJMAX is outside the band. -/
def noteBand (s : State) : State :=
  if s.inBand then s else s.mapClk (fun c => { c with offBand := s.qd.aon.ns.toNat })

/-- A junction temperature is read. -/
def setTj (t : Nat) (s : State) : State := noteBand (s.setFl F.DVFS_STS_TJMAX t)

/-! ### Points (R419, R420) -/

/-- Nominal VDD_GRID of a point in mV. -/
def pointMv (p : Nat) : Nat := [630, 670, 730, 780, 850].getD p 850
/-- Mill divider of a point. -/
def pointDiv (p : Nat) : Nat := [16, 14, 12, 11, 10].getD p 10

/-- DVFS_CTL.FORCE in free-ratio mode gives the divider. -/
def State.forcedDiv (s : State) : Bool := s.flag F.DVFS_CTL_FORCE && s.flag F.CLK_CTL_MODE

/-- The point that FORCE holds: FPT, or in free-ratio mode the lowest one as fast as FDIV. -/
def State.forcedPoint (s : State) : Nat :=
  if s.forcedDiv then ((List.range 5).find? (fun p => decide (pointDiv p ≤ s.fl F.DVFS_CTL_FDIV))).getD 4
  else min 4 (s.fl F.DVFS_CTL_FPT)

/-- The divider at a point. -/
def State.divAt (s : State) (p : Nat) : Nat :=
  if s.forcedDiv && p == s.forcedPoint then s.fl F.DVFS_CTL_FDIV else pointDiv p

/-- A trim in mV. -/
def State.trim (s : State) (f : Fld) : Int := sext 8 (s.fl f)
def State.setTrim (s : State) (f : Fld) (t : Int) : State := s.setFl f (t % 256).toNat

/-- Command a rail over AVSBus; none before step 12 of the boot (R546). -/
def avsSend (bus : Nat) (mv : Int) (s : State) : State :=
  if s.fl F.BOOT_STS_STEP = 12 then emit s (.avs bus mv.toNat) else s
/-- Command VDD_GRID for a point with the present trim. -/
def avsGrid (p : Nat) (s : State) : State := avsSend 0 ((pointMv p : Int) + s.trim F.DVFS_STS_TRIM_G) s

/-! ### Loop records (R428) -/

/-- EN of a loop is 1. -/
def State.loopEn (s : State) (i : Nat) : Bool := bitAt (s.rg R.LOOP_CTL) (2 * i)
/-- A loop decides: EN is 1 and FRZ is 0. -/
def State.loopRuns (s : State) (i : Nat) : Bool := s.loopEn i && !(bitAt (s.rg R.LOOP_CTL) (2 * i + 1))

/-- The record of a decision. -/
def loopRecord (loop idx sensed : Nat) (old new : Word) (s : State) : State :=
  if s.flag F.LG_CTL_EN then
    s.lgWrite Lg.LOOP 0 0x0D 0 (bytesOf 1 loop ++ [0] ++ bytesOf 2 idx ++ bytesOf 4 sensed ++ wordBytes old ++ wordBytes new)
  else s

/-! ### The sequencer (R421) -/

/-- The divider and the point change. -/
def setPoint (p sensed : Nat) (s : State) : State :=
  let old := s.fl F.DVFS_STS_POINT
  let s := (s.setFl F.DVFS_STS_POINT p).setFl F.DVFS_STS_DIV (s.divAt p)
  if old = p then s else loopRecord 0 0 sensed (wd old) (wd p) s

/-- A move down, at once; one up that is in progress is abandoned. -/
def moveDown (p sensed : Nat) (s : State) : State :=
  avsGrid p (setPoint p sensed (s.mapClk (fun c => { c with up := none })))

/-- Start a move up of one point. -/
def startUp (sensed : Nat) (s : State) : State :=
  let p := s.fl F.DVFS_STS_POINT + 1
  if s.qd.clk.up.isSome ∨ 4 < p ∨ s.qd.aon.ns.toNat < s.qd.clk.ban then s
  else avsGrid p (s.mapClk (fun c => { c with up := some (p, sensed) }))

/-- Towards a target point. -/
def moveTo (t sensed : Nat) (s : State) : State :=
  let p := s.fl F.DVFS_STS_POINT
  if t < p then moveDown t sensed s
  else if p < t then startUp sensed s
  else if s.forcedDiv ∧ s.fl F.DVFS_STS_DIV ≠ s.divAt p then s.setFl F.DVFS_STS_DIV (s.divAt p)
  else s

/-- DVFS_SETTLED: Up 3. -/
def execDvfsSettled (s : State) : Res :=
  .next (
    match s.qd.clk.up with
    | some (p, x) => setPoint p x (s.mapClk (fun c => { c with up := none }))
    | none => s)

/-- DVFS_UP_TIMEOUT: the divider stays, and no upward move is tried for 1 ms. -/
def execDvfsUpTimeout (s : State) : Res :=
  .next (
    match s.qd.clk.up with
    | some (p, _) =>
      (s.mapClk (fun c => { c with up := none, ban := s.qd.aon.ns.toNat + 1000000 })).event Rg.clock
        { cat := Cat.TIMEOUT, arg0 := wd p, arg1 := 20000 }
    | none => s)

/-! ### The VF loop (R429) -/

/-- The trim of an island for its worst margin. -/
def newTrim (t margin : Int) : Int :=
  if margin < 2 then min (t + 5) 20 else if 6 < margin then max (t - 5) (-40) else t

/-- Trim one island. -/
def trimIsland (core : Bool) (margin : Int) (s : State) : State :=
  let f := if core then F.DVFS_STS_TRIM_C else F.DVFS_STS_TRIM_G
  let t := s.trim f
  let n := newTrim t margin
  if n = t then s
  else
    let s := loopRecord 0 (b2n core) (margin % 2 ^ 32).toNat (BitVec.ofInt 64 t) (BitVec.ofInt 64 n) (s.setTrim f n)
    if core then avsSend 1 (750 + n) s else avsGrid (s.fl F.DVFS_STS_POINT) s

/-- The point that the loop chooses. -/
def vfTarget (s : State) (v : VfSense) : Nat :=
  let p := s.fl F.DVFS_STS_POINT
  let lo := s.fl F.DVFS_CTL_PMIN
  if s.flag F.DVFS_STS_THR ∨ s.fl F.DVFS_CTL_PWR_LIM < v.power then max lo (p - 1)
  else if 900 < v.busy ∧ p < s.fl F.DVFS_CTL_PMAX ∧ s.trim F.DVFS_STS_TRIM_G ≤ 0 then p + 1
  else if v.busy < 500 ∧ lo < p then p - 1
  else p

/-- What the loop reads goes into the status registers. -/
def vfSense (v : VfSense) (s : State) : State :=
  let s := (setTj (min 255 v.temp) s).setFl F.DVFS_STS_PWR (min 4095 v.power)
  (v.stackTemps.mapIdx (fun i t => (i, t))).foldl (fun s x =>
    if x.1 < stacksOf s.qd.variant then s.setFl (F.HBM_STS_TEMP x.1) (min 255 x.2) else s) s

/-- VF_LOOP_TICK. A stretch of an earlier period no longer marks stamps (log entry 45). -/
def execVfLoopTick (v : VfSense) (s : State) : Res :=
  .next (
    if !(s.loopEn 0) ∨ s.qd.boot.stopped then s
    else
      let s := (vfSense v s).mapQd (fun q => { q with aon := { q.aon with
        coarseG := decide (v.marginG < 0), coarseC := decide (v.marginC < 0) } })
      if s.flag F.DVFS_CTL_FORCE then
        if s.flag F.DVFS_STS_THR then s
        else moveTo s.forcedPoint v.busy ((s.setTrim F.DVFS_STS_TRIM_G 0).setTrim F.DVFS_STS_TRIM_C 0)
      else if !(s.loopRuns 0) then s
      else
        let s := trimIsland true v.marginC (trimIsland false v.marginG s)
        let t := vfTarget s v
        if t = s.fl F.DVFS_STS_POINT then s else moveTo t v.busy s)

/-- CLOCK_STRETCH: the island's stamps carry COARSE. -/
def execClockStretch (grid : Bool) (s : State) : Res :=
  .next (s.mapQd (fun q => { q with aon :=
    if grid then { q.aon with coarseG := true } else { q.aon with coarseC := true } }))

/-! ### The EQ loop (R430) -/

/-- EQ_LOOP_ADAPT: a lane in state up, unless its port's or the QD1's loop is frozen. The value sensed is a
free value: the spec does not say how signal to noise is counted. -/
def execEqLoopAdapt (lane : Fin 640) (coef : BitVec 16) (s : State) : Res :=
  .next (
    let n := lane.val / 4
    if !(s.loopRuns 1) ∨ s.qd.boot.stopped ∨ !(s.portRuns (.qd (Fin.ofNat 160 n))) ∨ s.flag (F.LN_PORT_CTL_FREEZE n) then s
    else
      let s := s.mapClk (fun c => { c with coefs := Tbl.put c.coefs lane.val coef.toNat })
      let l := Tbl.at s.qd.clk.coefLog lane.val
      let now := s.qd.aon.ns.toNat
      let far := decide (l.1 + 4 ≤ coef.toNat) || decide (coef.toNat + 4 ≤ l.1)
      if far ∧ (l.2 = 0 ∨ l.2 + 1000000 ≤ now) then
        let d := draw 32 s
        loopRecord 1 lane.val d.1.toNat (wd l.1) (wd coef.toNat)
          (d.2.mapClk (fun c => { c with coefLog := Tbl.put c.coefLog lane.val (coef.toNat, now) }))
      else s)

/-! ### The BUF loop (R431) -/

/-- STALL of a class over every egress. -/
def State.stallOf (s : State) (c : Nat) : Nat :=
  ((List.range 176).map (fun e => (s.rg (R.TEL_50 e + 8 * c)).toNat)).foldl (· + ·) 0

/-- The thresholds of a class when EN was last set. -/
def State.markBase (s : State) (c : Nat) : Nat × Nat :=
  let m := Tbl.at s.qd.clk.marks c
  if m = 0 then (fget (clsCtlReset c) 24 16, fget (clsCtlReset c) 40 16) else (m % 65536, m / 65536)

/-- α of a class. -/
def bufAlpha (c : Nat) (s : State) : State :=
  let cells := s.qd.sw.buf.filter (fun x => decide (x.tag = .shared))
  let q := cells.length
  let qc := (cells.filter (fun x => x.cls == c)).length
  let free := 502272 - q
  let a := s.fl (F.SW_CLS_CTL_ALPHA c)
  let grew := decide (Tbl.at s.qd.clk.stall c < s.stallOf c)
  let n := if free < 502272 / 8 ∧ 502272 / 4 < qc then max (s.fl (F.SW_CLS_CTL_ALPHA_LO c)) (a / 2)
    else if 502272 / 2 < free ∧ grew then min (s.fl (F.SW_CLS_CTL_ALPHA_HI c)) (a * 2)
    else a
  if n = a then s else loopRecord 2 c qc (wd a) (wd n) (s.setFl (F.SW_CLS_CTL_ALPHA c) n)

/-- The marking thresholds of a class: at most two halvings or doublings from their base. -/
def bufMarks (c : Nat) (s : State) : State :=
  let lo := s.fl (F.SW_CLS_CTL_MARK_LO c)
  let hi := s.fl (F.SW_CLS_CTL_MARK_HI c)
  let base := s.markBase c
  let top := ((List.range 176).map (fun e => s.backlog e c)).foldl max 0
  let quiet := if top < lo then Tbl.at s.qd.clk.quiet c + 1 else 0
  let move := fun (nlo nhi : Nat) (s : State) =>
    loopRecord 2 c top (wd (lo + hi * 2 ^ 32)) (wd (nlo + nhi * 2 ^ 32))
      ((s.setFl (F.SW_CLS_CTL_MARK_LO c) nlo).setFl (F.SW_CLS_CTL_MARK_HI c) nhi)
  let s := s.mapClk (fun k => { k with quiet := Tbl.put k.quiet c (quiet % 16) })
  if hi ≤ top then (if base.1 ≤ 4 * (lo / 2) ∧ 16 ≤ lo / 2 then move (lo / 2) (hi / 2) s else s)
  else if quiet = 16 ∧ 2 * lo ≤ 4 * base.1 ∧ 2 * hi < 65536 then move (2 * lo) (2 * hi) s
  else s

/-- BUF_LOOP_TICK. -/
def execBufLoopTick (s : State) : Res :=
  .next (
    if !(s.loopEn 2) ∨ s.qd.boot.stopped then s
    else
      let s := if s.loopRuns 2 then
        (List.range 3).foldl (fun s c => bufMarks c s) ((List.range 4).foldl (fun s c => bufAlpha c s) s) else s
      (List.range 4).foldl (fun s c => s.mapClk (fun k => { k with stall := Tbl.put k.stall c (s.stallOf c) })) s)

/-! ### The PLC loop and frame moves (R432, R485) -/

/-- PLACEMENT_LOOP_TICK: the channels' utilisation in percent and the most-accessed frame of the first that
exceeds 80. -/
def execPlacementLoopTick (util : List Nat) (frame : Nat) (s : State) : Res :=
  .next (
    if !(s.loopRuns 3) ∨ s.qd.boot.stopped ∨ s.qd.clk.move.isSome then s
    else match util.findIdx? (fun u => decide (80 < u)), util.findIdx? (fun u => decide (u < 50)) with
      | some a, some b =>
        loopRecord 3 0 (util.getD a 0) (wd a) (wd b) (s.mapClk (fun c => { c with move := some (frame, a, b) }))
      | _, _ => s)

/-- The oldest frame to be retired has moved to a spare frame of its stack; which stack holds it is a free
value, the interleave not being stated. -/
def frameRetired (s : State) : State :=
  match s.qd.fault.retire with
  | [] => s
  | f :: rest =>
    let d := draw 3 s
    let k := d.1.toNat % stacksOf s.qd.variant
    let s := d.2.mapQd (fun q => { q with fault := { q.fault with
      retire := rest, corrected := q.fault.corrected.filter (fun x => x.1 != f) } })
    let n := s.fl (F.HBM_STS_SPARE k)
    let none_ := fun (s : State) => (s.event (Rg.hbm k) { cat := Cat.RESOURCE, obj := Obj.HBM, arg0 := wd f }).score 3 k 4096
    if n = 0 then none_ s
    else
      let s := (s.setFl (F.HBM_STS_SPARE k) (n - 1)).setFl F.FT_SPARE_FR_FREE (s.fl F.FT_SPARE_FR_FREE - 1)
      let s := loopRecord 3 0 0 (wd f) (wd k) (s.score 3 k 64)
      if n = 1 then none_ s else s

/-- FRAME_MOVE_DONE: the loop's own move before one to a spare frame. Addresses do not change (R432). -/
def execFrameMoveDone (s : State) : Res :=
  .next (if s.qd.clk.move.isSome then s.mapClk (fun c => { c with move := none }) else frameRetired s)

/-! ### Gating (R423) -/

/-- The unit of a bit of CLK_ENABLE exists; tensor watch does everywhere (R526). -/
def State.gateThere (s : State) (u : Nat) : Bool :=
  match u with
  | 0 => s.present 0
  | 1 => s.present 8
  | 2 => s.present 11
  | _ => true

/-- The unit of a bit of CLK_ENABLE is idle. -/
def State.gateIdle (s : State) (u : Nat) : Bool :=
  match u with
  | 0 => (List.range 64).all (fun a => s.alState a != 3 && s.alState a != 4 && s.alState a != 5)
  | 1 => s.colls.isEmpty
  | 2 => s.qd.ferry.tx.isEmpty && s.qd.ferry.rx.all (fun r => r.whole && r.answered && !r.ackDue && r.resp.isEmpty) &&
      s.qd.ferry.gather.isEmpty && s.qd.ferry.jobs.isEmpty
  | _ => true

/-- Write CLK_ENABLE: bits of absent units ignore writes; a clearing write to a busy unit is refused. -/
def clkEnable (v : Word) (ans : BitVec 7 → List Out) (s : State) : State :=
  let old := s.rg R.CLK_ENABLE
  let us := (List.range 4).filter (fun u => s.gateThere u && bitAt v u != bitAt old u)
  if us.any (fun u => !(bitAt v u) && !(s.gateIdle u)) then regDrop R.CLK_ENABLE v ans s
  else emits (us.foldl (fun s u => s.setFl ⟨R.CLK_ENABLE, u, 1⟩ (b2n (bitAt v u))) s) (ans St.OK)

/-- CLOCK_GATE. -/
def execClockGate (src : RegSrc) (u : Fin 4) (s : State) : Res :=
  .next (clkEnable (fset (s.rg R.CLK_ENABLE) u.val 1 0) (regAns src) s)

/-- CLOCK_UNGATE. -/
def execClockUngate (src : RegSrc) (u : Fin 4) (s : State) : Res :=
  .next (clkEnable (fset (s.rg R.CLK_ENABLE) u.val 1 1) (regAns src) s)

/-! ### Measuring (R424) -/

/-- A clock runs: code and INDEX. -/
def State.clockRuns (s : State) (code idx : Nat) : Bool :=
  let ref := !(s.flag F.CLK_STS_HOLD)
  let on := !s.qd.boot.stopped && !s.qd.boot.ds
  match code with
  | 0 => ref
  | 1 => on
  | 2 => on
  | 3 => on && s.unitOn 0 0 && !s.qd.boot.gp
  | 4 => on
  | 5 => true
  | 6 => on
  | 7 => on && decide (idx % 8 < stacksOf s.qd.variant)
  | 8 => ref && s.flag F.CLK_STS_PRES_A
  | 9 => ref && s.flag F.CLK_STS_PRES_B
  | _ => false

/-- Write FMEAS_CTL: GLOG2 outside 10-24 is refused; START starts a measurement. -/
def fmeasWrite (v : Word) (ans : BitVec 7 → List Out) (s : State) : State :=
  if fget v 8 5 < 10 ∨ 24 < fget v 8 5 then regDrop R.FMEAS_CTL v ans s
  else match s.writeReg R.FMEAS_CTL v with
    | none => regDrop R.FMEAS_CTL v ans s
    | some s => emits (if bitAt v 19 then ((s.setRg R.FMEAS_STS 0).mapClk (fun c => { c with measuring := true })) else s)
        (ans St.OK)

/-- FMEAS_START. -/
def execFmeasStart (src : RegSrc) (s : State) : Res :=
  .next (fmeasWrite (s.rg R.FMEAS_CTL ||| 0x80000) (regAns src) s)

/-- FMEAS_DONE: the count, or INVALID where a clock was stopped or absent. -/
def execFmeasDone (count : BitVec 32) (s : State) : Res :=
  .next (
    if !s.qd.clk.measuring then s
    else
      let s := s.mapClk (fun c => { c with measuring := false })
      let i := s.fl F.FMEAS_CTL_INDEX
      if s.clockRuns (s.fl F.FMEAS_CTL_TGT) i && s.clockRuns (s.fl F.FMEAS_CTL_BASE) i then
        (s.setFl F.FMEAS_STS_DONE 1).setFl F.FMEAS_STS_COUNT count.toNat
      else s.setFl F.FMEAS_STS_INVALID 1)

/-! ### Throttling (R433) -/

/-- Throttling comes into force. -/
def enterThrottle (s : State) : State :=
  if s.flag F.DVFS_STS_THR then s else (s.setFl F.DVFS_STS_THR 1).score 0xB 0 16

/-- THROTTLE_ASSERT: to point 0 in one step. -/
def execThrottleAssert (s : State) : Res :=
  .next (
    if s.qd.boot.trip then s
    else
      let s := enterThrottle ((s.setFl F.PIN_STS_THROTTLE 1).mapClk (fun c => { c with low := true }))
      if s.fl F.DVFS_STS_POINT = 0 then s.mapClk (fun c => { c with up := none }) else moveDown 0 0 s)

/-- THERMAL_THROTTLE: a sensor reads 98 °C or more. -/
def execThermalThrottle (temp : Byte) (s : State) : Res :=
  .next (
    if temp.toNat < 98 ∨ s.qd.boot.trip then s
    else enterThrottle ((setTj temp.toNat s).mapClk (fun c => { c with hot := true })))

/-- THROTTLE_STEP: a point down each 100 µs; at point 0, a sensor that still reads 98 °C or more halves the
Green's lane groups and the tensor issue rate. -/
def execThrottleStep (s : State) : Res :=
  .next (
    if !(s.flag F.DVFS_STS_THR) ∨ s.qd.boot.trip then s
    else if 0 < s.fl F.DVFS_STS_POINT then
      moveDown (s.fl F.DVFS_STS_POINT - 1) (s.fl F.DVFS_STS_TJMAX) s
    else if s.qd.clk.hot ∧ 98 ≤ s.fl F.DVFS_STS_TJMAX then s.mapClk (fun c => { c with halved := true })
    else s)

/-- THROTTLE_END. -/
def execThrottleEnd (s : State) : Res :=
  .next (
    ((s.setFl F.DVFS_STS_THR 0).setFl F.PIN_STS_THROTTLE 0).mapClk
      (fun c => { c with hot := false, low := false, halved := false }))

/-! ### Trip and brown-out (R434, R547) -/

/-- Every lane goes to electrical idle: the ports are down and their lanes silent. -/
def lanesIdle (s : State) : State :=
  let s := (List.range 160).foldl (fun s n => if s.portThere (.qd (Fin.ofNat 160 n)) then
    emit ((s.setFl (F.LN_PORT_STS_STATE n) 0).setFl (F.LN_PORT_STS_STEP n) 0) (.lane (.qd (Fin.ofNat 160 n)) 0 0) else s) s
  (s.mapQd (fun q => { q with links := q.links.map (fun x => (x.1, linkCleared x.2)) })).setFl F.FT_STS_PLINK 0

/-- Every clock but the always-on one stops. -/
def stopClocks (s : State) : State :=
  (lanesIdle s).mapBoot (fun b => { b with stopped := true })

/-- THERMAL_TRIP: a sensor reads 110 °C. -/
def execThermalTrip (temp : Byte) (s : State) : Res :=
  .next (
    if temp.toNat < 110 ∨ s.qd.boot.trip then s
    else
      let s := setTj temp.toNat s
      let s := s.eventBoth Rg.clock { cat := Cat.FAULT, obj := Obj.THERMAL, arg1 := wd temp.toNat }
      emit ((stopClocks (zeroizeAll true s)).mapBoot (fun b => { b with trip := true })) (.pin "THERMTRIP_N" false))

/-- BROWN_OUT: the rail is recorded, and the device stays stopped until an FR or a PO. One that falls once the
power-fail sequence has ended is expected (R547). -/
def execBrownOut (rail : BitVec 3) (s : State) : Res :=
  .next (
    if s.qd.boot.trip ∨ s.qd.boot.pwr = 2 then stopClocks s
    else
      let s := s.setFl F.PIN_STS_BOD rail.toNat
      stopClocks (s.eventBoth Rg.clock { cat := Cat.FAULT, arg1 := wd rail.toNat }))

/-! ### Power-fail (R435, R544) -/

/-- Enter HS: the stacks are in self-refresh. -/
def enterHs (pwr : Bool) (s : State) : State :=
  let s := (List.range (stacksOf s.qd.variant)).foldl (fun s k => s.setFl (F.HBM_STS_SREF k) 1) s
  s.mapBoot (fun b => { b with hs := true, hsPwr := b.hsPwr || pwr })

/-- PWRFAIL: PWRFAIL_N is low. The first such command runs steps 2 to 5, and the next, PWRFAIL_N being low
still, steps 6 and 7 (log entry 46). Before step 10 of the boot only step 7 is done (R544). -/
def execPwrfail (s : State) : Res :=
  .next (
    if s.qd.boot.stopped then s
    else
      let s := s.setFl F.PIN_STS_PWRFAIL 1
      let evt := fun (s : State) => s.eventBoth Rg.hm { cat := Cat.INFO, arg1 := 1 }
      if s.fl F.BOOT_STS_STEP < 9 then evt s
      else match s.qd.boot.pwr with
        | 0 => (if s.flag F.LG_CTL_EN && !s.qd.trace.ledger.cur.isEmpty then s.lgClose false else s).mapBoot
            (fun b => { b with pwr := 1 })
        | 1 => evt ((enterHs true (zeroizeAll true s)).mapBoot (fun b => { b with pwr := 2 }))
        | _ => s)

/-- PWRFAIL_RELEASE: before step 6 the QD1 serves as before. -/
def execPwrfailRelease (s : State) : Res :=
  .next (
    let s := s.setFl F.PIN_STS_PWRFAIL 0
    if s.qd.boot.pwr = 1 then s.mapBoot (fun b => { b with pwr := 0 }) else s)

end Sys2Proof.Machine
end

