-- ==== Sys2Proof/Machine/MillVector.lean ====
section
/-! DEFINITION. The vector instructions of the mills (R304-R310). -/

namespace Sys2Proof.Machine

/-! ### Lanes and predicates (R304) -/

/-- A vector that takes a lane from `f` where the predicate is one and from `old` elsewhere. -/
def maskLanes (p : BitVec 32) (old : BitVec 1024) (f : Nat → BitVec 32) : BitVec 1024 :=
  ofLanes (fun i => if p.getLsbD i then f i else lane old i)

/-- Write a v register under the predicate PM. -/
def putV (m : Nat) (f : FmtV) (g : Nat → BitVec 32) (s : State) : MRes :=
  .done (s.mapMill m (fun x => x.setVr f.vd.val (maskLanes (x.pr f.pm.val) (x.vr f.vd.val) g)))

/-- Write the predicate register that VD names: bits that PM masks out are kept. -/
def putP (m : Nat) (f : FmtV) (g : Nat → Bool) (s : State) : MRes :=
  let x := s.mill m
  let p := x.pr f.pm.val
  let old := x.pr f.vd.val
  let v := (List.range 32).foldl (fun (a : BitVec 32) i =>
    if (if p.getLsbD i then g i else old.getLsbD i) then a ||| (1#32 <<< i) else a) 0
  .done (s.mapMill m (fun x => x.setPr f.vd.val v))

/-- Run a lane-wise operation of two v registers. -/
def vlane (m : Nat) (f : FmtV) (maj fn : Nat) (op : BitVec 32 → BitVec 32 → BitVec 32) (s : State) : State :=
  runInstr m (encV maj f fn) (fun _ s =>
    let x := s.mill m
    putV m f (fun i => op (lane (x.vr f.va.val) i) (lane (x.vr f.vb.val) i)) s) s

/-- Run a lane-wise compare of two v registers; VD [4:3] must be zero. -/
def vcmp (m : Nat) (f : FmtV) (maj fn : Nat) (ok : Bool) (op : BitVec 32 → BitVec 32 → Bool) (s : State) :
    State :=
  runInstr m (encV maj f fn) (fun _ s =>
    let x := s.mill m
    needZero (ok && decide (f.vd.val < 8))
      (putP m f (fun i => op (lane (x.vr f.va.val) i) (lane (x.vr f.vb.val) i)) s)) s

/-! ### VALU (R305) -/


/-- VADD. -/
def execVadd (m : Fin 256) (f : FmtV) (s : State) : Res :=
  .next (vlane m.val f 0x20 0x0 (fun a b => a + b) s)

/-- VSUB. -/
def execVsub (m : Fin 256) (f : FmtV) (s : State) : Res :=
  .next (vlane m.val f 0x20 0x1 (fun a b => a - b) s)

/-- VMUL. -/
def execVmul (m : Fin 256) (f : FmtV) (s : State) : Res :=
  .next (vlane m.val f 0x20 0x2 (fun a b => a * b) s)

/-- VAND. -/
def execVand (m : Fin 256) (f : FmtV) (s : State) : Res :=
  .next (vlane m.val f 0x20 0x3 (fun a b => a &&& b) s)

/-- VOR. -/
def execVor (m : Fin 256) (f : FmtV) (s : State) : Res :=
  .next (vlane m.val f 0x20 0x4 (fun a b => a ||| b) s)

/-- VXOR. -/
def execVxor (m : Fin 256) (f : FmtV) (s : State) : Res :=
  .next (vlane m.val f 0x20 0x5 (fun a b => a ^^^ b) s)

/-- VSLL. -/
def execVsll (m : Fin 256) (f : FmtV) (s : State) : Res :=
  .next (vlane m.val f 0x20 0x6 (fun a b => a <<< (b.toNat % 32)) s)

/-- VSRL. -/
def execVsrl (m : Fin 256) (f : FmtV) (s : State) : Res :=
  .next (vlane m.val f 0x20 0x7 (fun a b => a >>> (b.toNat % 32)) s)

/-- VSRA. -/
def execVsra (m : Fin 256) (f : FmtV) (s : State) : Res :=
  .next (vlane m.val f 0x20 0x8 (fun a b => a.sshiftRight (b.toNat % 32)) s)

/-- VMIN. -/
def execVmin (m : Fin 256) (f : FmtV) (s : State) : Res :=
  .next (vlane m.val f 0x20 0x9 (fun a b => if a.slt b then a else b) s)

/-- VMAX. -/
def execVmax (m : Fin 256) (f : FmtV) (s : State) : Res :=
  .next (vlane m.val f 0x20 0xa (fun a b => if a.slt b then b else a) s)

/-- VMINU. -/
def execVminu (m : Fin 256) (f : FmtV) (s : State) : Res :=
  .next (vlane m.val f 0x20 0xb (fun a b => if a.ult b then a else b) s)

/-- VMAXU. -/
def execVmaxu (m : Fin 256) (f : FmtV) (s : State) : Res :=
  .next (vlane m.val f 0x20 0xc (fun a b => if a.ult b then b else a) s)

/-- VCMPEQ. -/
def execVcmpeq (m : Fin 256) (f : FmtV) (s : State) : Res :=
  .next (vcmp m.val f 0x20 0x10 true (fun a b => a == b) s)

/-- VCMPLT. -/
def execVcmplt (m : Fin 256) (f : FmtV) (s : State) : Res :=
  .next (vcmp m.val f 0x20 0x11 true (fun a b => a.slt b) s)

/-- VCMPLTU. -/
def execVcmpltu (m : Fin 256) (f : FmtV) (s : State) : Res :=
  .next (vcmp m.val f 0x20 0x12 true (fun a b => a.ult b) s)

/-- VSEL: every lane is written. -/
def execVsel (m : Fin 256) (f : FmtV) (s : State) : Res :=
  .next (runInstr m.val (encV 0x20 f 0x20) (fun _ s =>
    .done (s.mapMill m.val (fun x => x.setVr f.vd.val
      (maskLanes (x.pr f.pm.val) (x.vr f.vb.val) (fun i => lane (x.vr f.va.val) i))))) s)

/-- VPERM. -/
def execVperm (m : Fin 256) (f : FmtV) (s : State) : Res :=
  .next (runInstr m.val (encV 0x20 f 0x21) (fun _ s =>
    let x := s.mill m.val
    putV m.val f (fun i => lane (x.vr f.va.val) ((lane (x.vr f.vb.val) i).toNat % 32)) s) s)

/-- VBCAST: VA names an s register; VB is not used. -/
def execVbcast (m : Fin 256) (f : FmtV) (s : State) : Res :=
  .next (runInstr m.val (encV 0x20 f 0x22) (fun _ s =>
    let x := s.mill m.val
    putV m.val f (fun _ => (x.sr f.va.val).setWidth 32) s) s)

/-- VEXT: VD names an s register; PM must be 0. -/
def execVext (m : Fin 256) (f : FmtV) (s : State) : Res :=
  .next (runInstr m.val (encV 0x20 f 0x23) (fun _ s =>
    let x := s.mill m.val
    needZero (f.pm.val == 0) (putS m.val f.vd.val ((lane (x.vr f.va.val) f.vb.val).setWidth 64) s)) s)

/-- VINS: VA names an s register; PM must be 0. -/
def execVins (m : Fin 256) (f : FmtV) (s : State) : Res :=
  .next (runInstr m.val (encV 0x20 f 0x24) (fun _ s =>
    needZero (f.pm.val == 0) (.done (s.mapMill m.val (fun x => x.setVr f.vd.val
      (ofLanes (fun i => if i = f.vb.val then (x.sr f.va.val).setWidth 32 else lane (x.vr f.vd.val) i)))))) s)

/-! ### VFP (R306, R307) -/

/-- The element format of a VFP type. -/
def vfpFmt (ty : BitVec 2) : FpFmt := if ty = 0 then Fp.f32 else if ty = 1 then Fp.bf16 else Fp.f16

/-- An operation on the elements of a lane: one of 32 bits, or two of 16. -/
def elems (ty : BitVec 2) (op : FpFmt → Nat → Nat → Nat → Nat) (a b c : BitVec 32) : BitVec 32 :=
  let f := vfpFmt ty
  if ty = 0 then BitVec.ofNat 32 (op f a.toNat b.toNat c.toNat)
  else BitVec.ofNat 32 (op f (a.toNat % 65536) (b.toNat % 65536) (c.toNat % 65536) +
    65536 * op f (a.toNat / 65536) (b.toNat / 65536) (c.toNat / 65536))

/-- Run a VFP operation of vVA, vVB and vVD; type 3 is reserved. -/
def vfp (m : Nat) (f : FmtV) (ty : BitVec 2) (fn : Nat) (op : FpFmt → Nat → Nat → Nat → Nat) (s : State) :
    State :=
  runInstr m (encV 0x21 f (ty.toNat * 64 + fn)) (fun _ s =>
    let x := s.mill m
    needZero (decide (ty ≠ 3)) (putV m f (fun i =>
      elems ty op (lane (x.vr f.va.val) i) (lane (x.vr f.vb.val) i) (lane (x.vr f.vd.val) i)) s)) s

/-- Minimum or maximum: NaN when either is NaN, −0 below +0. -/
def fpMinMax (isMax : Bool) (f : FpFmt) (a b : Nat) : Nat :=
  match f.dec a, f.dec b with
  | .nan, _ => f.nanCode
  | _, .nan => f.nanCode
  | x, y =>
    let aLow := if x.lt y then true else if y.lt x then false
      else decide (a / 2 ^ (f.ew + f.fw) % 2 = 1)
    if aLow != isMax then a else b

/-- The order of two codes; a NaN is in no order. -/
def fpLt (f : FpFmt) (a b : Nat) : Bool := (f.dec a).lt (f.dec b)
/-- Equality of two codes; a NaN equals nothing, and the zeros are equal. -/
def fpEq (f : FpFmt) (a b : Nat) : Bool :=
  decide (f.dec a ≠ .nan) && decide (f.dec b ≠ .nan) && !(fpLt f a b) && !(fpLt f b a)
/-- At most. -/
def fpLe (f : FpFmt) (a b : Nat) : Bool := fpLt f a b || fpEq f a b

/-- A compare of the elements of a lane: both elements of a pair. -/
def elemCmp (ty : BitVec 2) (op : FpFmt → Nat → Nat → Bool) (a b : BitVec 32) : Bool :=
  let f := vfpFmt ty
  if ty = 0 then op f a.toNat b.toNat
  else op f (a.toNat % 65536) (b.toNat % 65536) && op f (a.toNat / 65536) (b.toNat / 65536)


/-- VFADD. -/
def execVfadd (m : Fin 256) (f : FmtV) (ty : BitVec 2) (s : State) : Res :=
  .next (vfp m.val f ty 0x0 (fun f a b _ => f.addCodes a b) s)

/-- VFSUB. -/
def execVfsub (m : Fin 256) (f : FmtV) (ty : BitVec 2) (s : State) : Res :=
  .next (vfp m.val f ty 0x1 (fun f a b _ => f.enc .rne false ((f.dec a).add (f.dec b).neg)) s)

/-- VFMUL. -/
def execVfmul (m : Fin 256) (f : FmtV) (ty : BitVec 2) (s : State) : Res :=
  .next (vfp m.val f ty 0x2 (fun f a b _ => f.enc .rne false ((f.dec a).mul (f.dec b))) s)

/-- VFMA: rounded once. -/
def execVfma (m : Fin 256) (f : FmtV) (ty : BitVec 2) (s : State) : Res :=
  .next (vfp m.val f ty 0x3 (fun f a b c => f.enc .rne false (((f.dec a).mul (f.dec b)).add (f.dec c))) s)

/-- VFMIN. -/
def execVfmin (m : Fin 256) (f : FmtV) (ty : BitVec 2) (s : State) : Res :=
  .next (vfp m.val f ty 0x4 (fun f a b _ => fpMinMax false f a b) s)

/-- VFMAX. -/
def execVfmax (m : Fin 256) (f : FmtV) (ty : BitVec 2) (s : State) : Res :=
  .next (vfp m.val f ty 0x5 (fun f a b _ => fpMinMax true f a b) s)

/-- The integer square root, bit by bit from `2^fuel` down. -/
def isqrt (n : Nat) : Nat → Nat → Nat
  | 0, r => r
  | fuel + 1, r => isqrt n fuel (if (r + 2 ^ fuel) * (r + 2 ^ fuel) ≤ n then r + 2 ^ fuel else r)

/-- A choice among the FP32 magnitude codes from `lo` to `hi` that the fixed algorithm makes for an
operand: the spec bounds it and does not say which (R307, log entry 6). -/
def vecPick (op : Nat) (x : BitVec 32) (lo hi : Nat) : Nat := lo + Config.vecChoice op x % (hi + 1 - lo)

/-- A result within one unit in the last place of `m · 2^e`, which is met exactly or from below. -/
def vecNear (op : Nat) (x : BitVec 32) (neg exact : Bool) (m : Nat) (e : Int) : Nat :=
  let c := Fp.f32.roundCode .rtz neg m e
  let r := if Fp.f32.infCode ≤ c then Fp.f32.infCode
    else if exact then vecPick op x (c - 1) (c + 1) else vecPick op x c (c + 1)
  Fp.f32.signBit neg + r

/-- VRCP of an operand. -/
def vrcp1 (x : BitVec 32) : Nat :=
  match Fp.f32.dec x.toNat with
  | .nan => Fp.f32.nanCode
  | .inf neg => Fp.f32.signBit neg
  | .fin neg m e =>
    if m = 0 then Fp.f32.signBit neg + Fp.f32.infCode
    else vecNear 1 x neg (decide (2 ^ 100 % m = 0)) (2 ^ 100 / m) (-e - 100)

/-- VRSQ of an operand: NaN of a negative number, and an infinity of a zero with its sign. -/
def vrsq1 (x : BitVec 32) : Nat :=
  match Fp.f32.dec x.toNat with
  | .nan => Fp.f32.nanCode
  | .inf neg => if neg then Fp.f32.nanCode else 0
  | .fin neg m e =>
    if m = 0 then Fp.f32.signBit neg + Fp.f32.infCode
    else if neg then Fp.f32.nanCode
    else
      let m' := if e % 2 = 0 then m else 2 * m
      let e' := if e % 2 = 0 then e else e - 1
      let q := isqrt (2 ^ 200 / m') 101 0
      vecNear 2 x false (decide (q * q * m' = 2 ^ 200)) q (-(e' / 2) - 100)

/-- The FP32 code of a power of two, or of the value next to it that FP32 holds. -/
def pow2Code (n : Int) : Nat :=
  if 128 ≤ n then Fp.f32.infCode
  else if -126 ≤ n then (n + 127).toNat * 2 ^ 23
  else if -149 ≤ n then 2 ^ (n + 149).toNat
  else 0

/-- VEXP2 of an operand: a power of two is met within one unit, any other value lies between the powers
of two around it (log entry 27). -/
def vexp1 (x : BitVec 32) : Nat :=
  match Fp.f32.dec x.toNat with
  | .nan => Fp.f32.nanCode
  | .inf neg => if neg then 0 else Fp.f32.infCode
  | .fin neg m e =>
    let big := decide (m ≠ 0) && decide (8 ≤ Int.ofNat (Nat.log2 m) + e)
    if big then (if neg then vecPick 0 x 0 1 else Fp.f32.infCode)
    else
      let v := sig neg m e (min e 0)
      let k := (-(min e 0)).toNat
      let n := v / 2 ^ k
      let lo := pow2Code n
      if 128 ≤ n then Fp.f32.infCode
      else if v % 2 ^ k = 0 then vecPick 0 x (lo - 1) (lo + 1)
      else vecPick 0 x lo (max (lo + 1) (pow2Code (n + 1)))

/-- Run VEXP2, VRCP or VRSQ; they accept type 0 only. -/
def vfn (m : Nat) (f : FmtV) (ty : BitVec 2) (fn : Nat) (op : BitVec 32 → Nat) (s : State) : State :=
  runInstr m (encV 0x21 f (ty.toNat * 64 + fn)) (fun _ s =>
    let x := s.mill m
    needZero (decide (ty = 0)) (putV m f (fun i => BitVec.ofNat 32 (op (lane (x.vr f.va.val) i))) s)) s


/-- VEXP2. -/
def execVexp2 (m : Fin 256) (f : FmtV) (ty : BitVec 2) (s : State) : Res :=
  .next (vfn m.val f ty 0x6 vexp1 s)

/-- VRCP. -/
def execVrcp (m : Fin 256) (f : FmtV) (ty : BitVec 2) (s : State) : Res :=
  .next (vfn m.val f ty 0x7 vrcp1 s)

/-- VRSQ. -/
def execVrsq (m : Fin 256) (f : FmtV) (ty : BitVec 2) (s : State) : Res :=
  .next (vfn m.val f ty 0x8 vrsq1 s)

/-- VFCMPEQ. -/
def execVfcmpeq (m : Fin 256) (f : FmtV) (ty : BitVec 2) (s : State) : Res :=
  .next (vcmp m.val f 0x21 (ty.toNat * 64 + 0x10) (decide (ty ≠ 3)) (elemCmp ty fpEq) s)

/-- VFCMPLT. -/
def execVfcmplt (m : Fin 256) (f : FmtV) (ty : BitVec 2) (s : State) : Res :=
  .next (vcmp m.val f 0x21 (ty.toNat * 64 + 0x11) (decide (ty ≠ 3)) (elemCmp ty fpLt) s)

/-- VFCMPLE. -/
def execVfcmple (m : Fin 256) (f : FmtV) (ty : BitVec 2) (s : State) : Res :=
  .next (vcmp m.val f 0x21 (ty.toNat * 64 + 0x12) (decide (ty ≠ 3)) (elemCmp ty fpLe) s)

/-! ### VCVT (R308) -/

/-- Bits of an element of a VCVT format; none for a format that VCVT does not take. -/
def vcvtBits (fmt : Nat) : Option Nat :=
  match fmt with
  | 1 => some 16
  | 2 => some 16
  | 3 => some 8
  | 4 => some 8
  | 10 => some 8
  | 11 => some 32
  | _ => none

/-- Element `i` of a vector of `n`-bit elements (R304). -/
def vecElem (v : BitVec 1024) (n i : Nat) : Nat := v.toNat / 2 ^ (n * i) % 2 ^ n

/-- An integer of `n` bits, saturated or wrapped. -/
def narrowInt (n : Nat) (sat : Bool) (v : Int) : Nat :=
  let lo : Int := -(2 ^ (n - 1))
  let hi : Int := 2 ^ (n - 1) - 1
  ((if sat then max lo (min hi v) else v) % 2 ^ n).toNat

/-- A widened element. -/
def widen (fmt c : Nat) : BitVec 32 :=
  if fmt = 10 then BitVec.ofInt 32 (sext 8 c)
  else if fmt = 11 then BitVec.ofNat 32 (Fp.f32.enc .rne false (numOf (sext 32 c) 0 false))
  else BitVec.ofNat 32 (Fp.f32.enc .rne false ((afmtFp fmt).dec c))

/-- A narrowed lane. An infinity that wraps to an integer has no stated result: a free value. -/
def narrow (fmt : Nat) (sat : Bool) (x : BitVec 32) : Nat :=
  if fmt = 10 then narrowInt 8 sat x.toInt
  else if fmt = 11 then
    match Fp.f32.dec x.toNat with
    | .nan => 0
    | .inf neg => if sat then (if neg then 2 ^ 31 else 2 ^ 31 - 1) else Config.vecChoice 3 x % 2 ^ 32
    | .fin neg m e =>
      let r := roundAt .rne neg m e 0
      narrowInt 32 sat (if neg then -Int.ofNat r else Int.ofNat r)
  else (afmtFp fmt).enc .rne sat (Fp.f32.dec x.toNat)

/-- The fields of a VCVT meet their limits: a format, FN [1:0] zero, and the part. -/
def vcvtOk (f : FmtV) (fn : BitVec 7) : Bool :=
  match vcvtBits (fn.toNat / 8) with
  | none => false
  | some n => fn.toNat % 4 == 0 && decide (f.vb.val < 32 / n)

/-- VCVT that widens part VB to 32-bit lanes. -/
def execVcvtWiden (m : Fin 256) (f : FmtV) (fn : BitVec 7) (s : State) : Res :=
  .next (runInstr m.val (encV 0x26 f fn.toNat) (fun _ s =>
    let x := s.mill m.val
    let fmt := fn.toNat / 8
    let n := (vcvtBits fmt).getD 32
    needZero (vcvtOk f fn) (putV m.val f (fun i => widen fmt (vecElem (x.vr f.va.val) n (32 * f.vb.val + i))) s)) s)

/-- VCVT that narrows the lanes into part VB; predication is by destination lane. -/
def execVcvtNarrow (m : Fin 256) (f : FmtV) (fn : BitVec 7) (s : State) : Res :=
  .next (runInstr m.val (encV 0x26 f (128 + fn.toNat)) (fun _ s =>
    let x := s.mill m.val
    let fmt := fn.toNat / 8
    let n := (vcvtBits fmt).getD 32
    let per := 32 / n
    needZero (vcvtOk f fn) (putV m.val f (fun i =>
      BitVec.ofNat 32 ((List.range per).foldr (fun j acc =>
        let k := i * per + j
        acc * 2 ^ n + (if 32 * f.vb.val ≤ k ∧ k < 32 * f.vb.val + 32 then
            narrow fmt (fn.toNat / 4 % 2 == 1) (lane (x.vr f.va.val) (k - 32 * f.vb.val)) % 2 ^ n
          else vecElem (x.vr f.vd.val) n k)) 0)) s)) s)

/-! ### Loads, stores, gather and scatter (R309) -/

/-- Address of VLD and VST. -/
def vea (x : Mill) (f : FmtI) : Word := x.sr f.sa.val + (f.imm.signExtend 64 <<< 7)

/-- VLD. -/
def execVld (m : Fin 256) (f : FmtI) (s : State) : Res :=
  .next (runInstr m.val (encI 0x22 f) (fun a s =>
    loadAt a m.val (vea (s.mill m.val) f) 128 128 (.vload f.da.val)
      (fun d s => s.mapMill m.val (fun x => x.setVr f.da.val (vecOf d))) s) s)

/-- VST. -/
def execVst (m : Fin 256) (f : FmtI) (s : State) : Res :=
  .next (runInstr m.val (encI 0x23 f) (fun a s =>
    let x := s.mill m.val
    storeAt a m.val (vea x f) (vecBytes (x.vr f.da.val)) 128 s) s)

/-- The addresses of the active lanes, in lane order. -/
def vgsAddrs (x : Mill) (f : FmtV) : List (Nat × Word) :=
  ((List.range 32).filter (fun i => (x.pr f.pm.val).getLsbD i)).map (fun i =>
    (i, x.sr f.va.val + (lane (x.vr f.vb.val) i).setWidth 64))

/-- Offset in the mill's own scratch of a 4-byte word. -/
def ownWord (s : State) (a m : Nat) (addr : Word) : Option Nat :=
  match s.reach a m addr.toNat 4 with
  | some (.scratch k o) => if k = m then some o else none
  | _ => none

/-- The first lane whose address is misaligned or not in the mill's own scratch: its exception. -/
def vgsCheck (s : State) (a m : Nat) (write : Bool) (l : List (Nat × Word)) : Option MRes :=
  l.findSome? (fun p =>
    if p.2.toNat % 4 ≠ 0 then some (.exc Exc.ALIGN p.2)
    else match ownWord s a m p.2 with
      | none => some (.exc Exc.ACCESS p.2)
      | some o => if write && decide (o < s.textEnd a) then some (.exc Exc.ACCESS p.2) else none)

/-- VGATHER. -/
def execVgather (m : Fin 256) (f : FmtV) (s : State) : Res :=
  .next (runInstr m.val (encV 0x24 f 0) (fun a s =>
    let x := s.mill m.val
    match vgsCheck s a m.val false (vgsAddrs x f) with
    | some r => r
    | none => putV m.val f (fun i =>
        BitVec.ofNat 32 (natOf (s.scratch m.val
          ((ownWord s a m.val (x.sr f.va.val + (lane (x.vr f.vb.val) i).setWidth 64)).getD 0) 4))) s) s)

/-- VSCATTER: of two lanes that name one word the higher remains. -/
def execVscatter (m : Fin 256) (f : FmtV) (s : State) : Res :=
  .next (runInstr m.val (encV 0x24 f 1) (fun a s =>
    let x := s.mill m.val
    let l := vgsAddrs x f
    match vgsCheck s a m.val true l with
    | some r => r
    | none => .done (l.foldl (fun s p =>
        s.setScratch m.val ((ownWord s a m.val p.2).getD 0) (bytesOf 4 (lane (x.vr f.vd.val) p.1).toNat)) s)) s)

/-! ### Reductions (R310) -/

/-- One level of the reduction: lanes 0 to `k - 1` combined with those `k` above. -/
def foldLanes (op : Nat → Nat → Nat) (k : Nat) (l : List Nat) : List Nat :=
  List.zipWith op (l.take k) (l.drop k)

/-- The reduction of 32 lanes in the fixed order. -/
def reduceLanes (op : Nat → Nat → Nat) (l : List Nat) : Nat :=
  ([16, 8, 4, 2, 1].foldl (fun l k => foldLanes op k l) l).headD 0

/-- Run a reduction; a masked lane takes the identity. VB is not used. -/
def vred (m : Nat) (f : FmtV) (fn ident : Nat) (op : Nat → Nat → Nat) (s : State) : State :=
  runInstr m (encV 0x25 f fn) (fun _ s =>
    let x := s.mill m
    putS m f.vd.val (wd (reduceLanes op ((List.range 32).map (fun i =>
      if (x.pr f.pm.val).getLsbD i then (lane (x.vr f.va.val) i).toNat else ident)))) s) s


/-- RSUMF. -/
def execRsumf (m : Fin 256) (f : FmtV) (s : State) : Res :=
  .next (vred m.val f 0 0x80000000 (Fp.f32.addCodes) s)

/-- RMAXF. -/
def execRmaxf (m : Fin 256) (f : FmtV) (s : State) : Res :=
  .next (vred m.val f 1 0xFF800000 (fpMinMax true Fp.f32) s)

/-- RMINF. -/
def execRminf (m : Fin 256) (f : FmtV) (s : State) : Res :=
  .next (vred m.val f 2 0x7F800000 (fpMinMax false Fp.f32) s)

/-- RSUMI. -/
def execRsumi (m : Fin 256) (f : FmtV) (s : State) : Res :=
  .next (vred m.val f 3 0 (fun a b => (a + b) % 2 ^ 32) s)

/-- RMAXI. -/
def execRmaxi (m : Fin 256) (f : FmtV) (s : State) : Res :=
  .next (vred m.val f 4 0x80000000 (fun a b => if sext 32 a < sext 32 b then b else a) s)

/-- RMINI. -/
def execRmini (m : Fin 256) (f : FmtV) (s : State) : Res :=
  .next (vred m.val f 5 0x7FFFFFFF (fun a b => if sext 32 a < sext 32 b then a else b) s)

end Sys2Proof.Machine
end

