-- ==== Sys2Proof/Machine/Services.lean ====
section
/-! DEFINITION. The resident services: KV pages (R334-R342), attention at the Granary (R343-R347) and the
optimizer step (R348-R355). -/

namespace Sys2Proof.Machine

/-! ### Allotments of the services (R331-R333) -/

/-- Placed allotments of a service type, in the order of their entries. -/
def State.svcAllots (s : State) (ty : Nat) : List Nat :=
  (List.range 8).filterMap (fun k =>
    if s.fl (F.SVC_PLACE_TYPE k) = ty ∧ s.fl ⟨R.SVC_STS, 8 * k + 6, 1⟩ = 1 then some (s.fl ⟨R.SVC_STS, 8 * k, 6⟩) else none)

/-- Descriptors in progress at an allotment. -/
def State.svcLoad (s : State) (a : Nat) : Nat :=
  (s.qd.rings.qs.flatMap (fun q => q.2.descs)).countP (fun d => d.prog == a + 1 && decide (d.stage < 5))

/-- The allotment that takes a descriptor: the fewest in progress, then the lowest index (R332). -/
def State.svcPick (s : State) (ty : Nat) : Option Nat :=
  (s.svcAllots ty).foldl (fun r a => match r with
    | none => some a
    | some b =>
      if s.svcLoad a < s.svcLoad b ∨ (s.svcLoad a = s.svcLoad b ∧ a < b) then some a else some b) none

/-- A started descriptor of a service; it ends GP (R520). Without a placed allotment it completes with
ERR_ABSENT (R331). -/
def svcDesc (q : Nat) (ridx : BitVec 32) (ty opc : Nat) (act : Nat → Desc → State → State) (s : State) : State :=
  match s.ready q ridx ty opc with
  | none => s
  | some (k, d) =>
    let s := s.mapQd (fun q => { q with boot := { q.boot with gp := false } })
    match s.svcPick ty with
    | none => descEnd k ridx St.ABSENT s
    | some a => act k d (s.mapDesc k ridx (fun d => { d with prog := a + 1 }))

/-- A key slot named by a descriptor does not serve its context (R333, R444). -/
def badKey (s : State) (k slot : Nat) : Bool :=
  decide (slot ≠ 0) && !(decide ((s.keySlot .own slot).st = 1) && decide ((s.keySlot .own slot).ctx = (s.bind k).qctx))

/-- Write bytes to the owner's memory as tiles of one row, from a mill of the allotment that performs the
descriptor; which mill is open, a free value (log entry 6). -/
def svcWrite (k : Nat) (ridx : BitVec 32) (slot : Nat) (gen : Byte) (fa : Word) (data : List Byte) (s : State) : State :=
  let a := ((s.desc? k ridx).map (fun d => d.prog - 1)).getD 0
  let m := pickMany 1 (s.millsOf a) s
  let que := m.1.headD 0
  (chunksOf 65536 (data.length + 1) data).mapIdx (fun i c => (i, c)) |>.foldl (fun s x =>
    let fa := fa + wd (65536 * x.1)
    let c := if slot = 0 then x.2
      else xtsData false (s.keySlot .own slot).key gen (fun i => fa + wd (64 * i)) x.2
    let h : Hdr := { dst := faNode fa, ctx := (s.bind k).qctx, opc := Opc.TWR, kslot := BitVec.ofNat 6 slot,
                     src := s.qNode k, cls := 2, gen := gen, que := que, woff := (faWoff fa).toNat }
    unitReq { que := que, purpose := .unit Un.SVC k ridx.toNat 0,
              parts := tileParts h (mkGeom c.length 1 0 (faWoff fa).toNat) c }
      (descWrites k ridx (fun n => n + 1) s)) m.2

/-- The writes of a descriptor have been sent: its work is over, and its entry follows their answers. -/
def svcDone (k : Nat) (ridx : BitVec 32) (result : Nat) (s : State) : State := descDone k ridx St.OK (wd result) s

/-- A write of a service is answered: the first failure is the descriptor's status. -/
def svcAck (k ridx : Nat) (o : OutReq) (s : State) : State :=
  let r := BitVec.ofNat 32 ridx
  let s := descWrites k r (fun n => n - 1) s
  if o.st = 0 then s
  else
    let node := match o.parts.head? with
      | some x => ((x.pkts.headD default).dst).toNat
      | none => 0
    s.mapDesc k r (fun d => if d.status = 0 ∧ d.stage < 5 then
      { d with stage := 4, status := o.st, result := wd (node * 2 ^ 50 + o.woff.toNat) } else d)

/-! ### Pools (R334-R338) -/

namespace Pool
def id (p : Pool) : Nat := fget p.w7 16 8
def layers (p : Pool) : Nat := fget p.w7 0 8
def kh (p : Pool) : Nat := fget p.w7 8 6
def d (p : Pool) : Nat := fget p.w7 24 10
def kfmt (p : Pool) : Nat := fget p.w7 34 4
def maxseq (p : Pool) : Nat := fget p.w7 38 12
def pgen (p : Pool) : Byte := BitVec.ofNat 8 (fget p.w7 50 8)
/-- Element size of KFMT. -/
def e (p : Pool) : Nat := afmtBits p.kfmt / 8
/-- Page size, page-map size, and the offset of slot 0. -/
def pb (p : Pool) : Nat := p.kh * 512 * p.d * p.e
def ms (p : Pool) : Nat := roundUp (228 * p.layers * 8) 4096
def sb (p : Pool) : Nat := roundUp (4096 + 32 * p.maxseq + p.ms * p.maxseq) 65536
def plen (p : Pool) : Nat := p.w6.toNat
def nslot (p : Pool) : Nat := (p.plen - p.sb) / max 1 p.pb
/-- Offset of a sequence entry, of a page-map entry and of a slot. -/
def seqOff (_ : Pool) (seq : Nat) : Nat := 4096 + 32 * seq
def mapOff (p : Pool) (seq i : Nat) : Nat := 4096 + 32 * p.maxseq + p.ms * seq + 8 * i
def slotOff (p : Pool) (n : Nat) : Nat := p.sb + p.pb * n
/-- Offset within a page of key and value element 0 of a token. -/
def keyOff (p : Pool) (h t : Nat) : Nat := h * 512 * p.d * p.e + t % 256 * p.d * p.e
def valOff (p : Pool) (h t : Nat) : Nat := p.keyOff h t + 256 * p.d * p.e
/-- Ranges of the fields. -/
def rangesOk (p : Pool) : Bool :=
  decide (1 ≤ p.layers) && decide (1 ≤ p.kh) && decide (32 ≤ p.d) && decide (p.d ≤ 512) && p.d % 32 == 0 &&
  decide (1 ≤ p.kfmt) && decide (p.kfmt ≤ 4) && decide (1 ≤ p.maxseq) && decide (1 ≤ p.nslot) && decide (p.sb ≤ p.plen)
/-- Its region, for a queue. -/
def region (p : Pool) (k : Nat) : Region :=
  { bank := svcBank k, win := faWin p.w5, off := faOff p.w5, len := p.plen, ctx := p.ctx, gen := p.pgen }
end Pool

/-- The pools that serve a queue: those of this QD1, or the partner's. -/
def State.pools (s : State) (k : Nat) : List Pool := if k < 4096 then s.qd.svc.pools else s.qd.svc.mpools
def State.mapPools (s : State) (k : Nat) (f : List Pool → List Pool) : State :=
  s.mapQd (fun q => { q with svc :=
    if k < 4096 then { q.svc with pools := f q.svc.pools } else { q.svc with mpools := f q.svc.mpools } })

/-- A pool by its key. -/
def State.poolAt (s : State) (k id : Nat) : Option Pool :=
  (s.pools k).find? (fun p => decide (p.ctx = (s.bind k).qctx) && p.id == id)

/-- A page-map entry. -/
structure PageEnt where
  slot : Nat
  fill : Nat
  v : Bool
  deriving DecidableEq, Repr

def PageEnt.word (x : PageEnt) : Word :=
  wd (x.slot + x.fill * 2 ^ 24 + b2n x.v * 2 ^ 33 + (2 ^ 24 - 1 - x.slot % 2 ^ 24) * 2 ^ 40)

/-- The page-map entry that a word spells: one that is reserved must match its complement; none that is not
reserved is looked at. -/
def pageEnt (w : Word) : Option PageEnt :=
  let x : PageEnt := ⟨fget w 0 24, fget w 24 9, bitAt w 33⟩
  if !x.v then some ⟨0, 0, false⟩ else if x.slot + fget w 40 24 = 2 ^ 24 - 1 then some x else none

/-- Read a page-map entry of a sequence. -/
def Pool.page (p : Pool) (k seq layer b : Nat) (s : State) : Except (BitVec 7) PageEnt :=
  match (p.region k).read s (p.mapOff seq (b / 18 * p.layers + layer)) 8 with
  | .error st => .error st
  | .ok d => match pageEnt (wd (natOf d)) with
    | some x => .ok x
    | none => .error St.COMPL

/-- A sequence is open, with its MAXLEN. The entry's form is the service's own (log entry 39). -/
def Pool.seq (p : Pool) (k seq : Nat) (s : State) : Except (BitVec 7) (Option Nat) :=
  match (p.region k).read s (p.seqOff seq) 8 with
  | .error st => .error st
  | .ok d => .ok (if slice d 0 1 = [1] then some (natOf (slice d 4 4)) else none)

def seqEntry (maxlen : Nat) : List Byte := slice ([1, 0, 0, 0] ++ bytesOf 4 maxlen) 0 32

/-- The plane that homes block `b` of a sequence (R337). -/
def blockPlane (seq b : Nat) : Nat := (seq + b) % 18

/-- Blocks below `n` that a plane homes. -/
def homeBlocks (plane seq n : Nat) : List Nat := (List.range n).filter (fun b => blockPlane seq b == plane)

/-- Collect a list of reads, or the first failure. -/
def allOk {α : Type} (l : List (Except (BitVec 7) α)) : Except (BitVec 7) (List α) :=
  l.foldl (fun acc x => match acc, x with
    | .error e, _ => .error e
    | _, .error e => .error e
    | .ok l, .ok x => .ok (l ++ [x])) (.ok [])

/-- A failure of a service on its region: a broken complement raises an event (R338, R350). -/
def regionFail (k : Nat) (ridx : BitVec 32) (st : BitVec 7) (fa : Word) (s : State) : State :=
  let s := if st = St.COMPL then
    s.event Rg.hm { cat := Cat.INTEGRITY, obj := Obj.HBM, ctx := (s.bind k).qctx, status := st, arg0 := fa } else s
  descDone k ridx st fa s

namespace Kv
def pool (d : Desc) : Nat := fget (d.w 7) 16 8
def seq (d : Desc) : Nat := fget (d.w 7) 0 16
def layer (d : Desc) : Nat := fget (d.w 7) 24 8
def kslot (d : Desc) : Nat := fget (d.w 7) 32 6
def agen (d : Desc) : Byte := BitVec.ofNat 8 (fget (d.w 7) 38 8)
def ka (d : Desc) : Word := d.w 5
def va (d : Desc) : Word := d.w 6
def t0 (d : Desc) : Nat := fget (d.w 9) 0 32
end Kv

/-- Descriptors of a context's sequence, or of its pool, that are not complete: queue key and descriptor. -/
def State.svcDescs (s : State) (ctx : BitVec 16) (pool : Nat) : List (Nat × Desc) :=
  (s.qd.rings.qs.flatMap (fun q => q.2.descs.map (fun d => (q.1, d)))).filter (fun x =>
    decide ((s.bind x.1).qctx = ctx) && (x.2.type == Ty.KVPG || x.2.type == Ty.ATTN) && Kv.pool x.2 == pool &&
    decide (x.2.stage < 4))

/-- A descriptor was fetched after a CLOSE of its sequence (R341). -/
def afterClose (s : State) (k : Nat) (d : Desc) : Bool :=
  (s.svcDescs ((s.bind k).qctx) (Kv.pool d)).any (fun x =>
    x.2.type == Ty.KVPG && x.2.opc == 7 && Kv.seq x.2 == Kv.seq d && decide (x.2.no < d.no))

/-- A PART or READ of a descriptor's sequence is in progress (R341). -/
def readersBefore (s : State) (k : Nat) (d : Desc) : Bool :=
  (s.svcDescs ((s.bind k).qctx) (Kv.pool d)).any (fun x =>
    (x.2.type == Ty.ATTN || x.2.opc == 5) && Kv.seq x.2 == Kv.seq d && decide (2 ≤ x.2.stage) &&
    decide (x.2.no < d.no ∨ x.2.stage = 3))

/-- A change of a pool waits for the partner, or an APPEND of it fetched earlier has not been performed
(R340, R341). -/
def poolBusy (s : State) (k : Nat) (d : Desc) : Bool :=
  s.qd.node.mirrors.any (fun m => match m.then_ with
    | .svc _ _ (some (j, r, _, _)) _ => match s.desc? j r with
      | some x => x.type == Ty.KVPG && Kv.pool x == Kv.pool d && decide ((s.bind j).qctx = (s.bind k).qctx)
      | none => false
    | _ => false) ||
  (d.opc == 4 && (s.svcDescs ((s.bind k).qctx) (Kv.pool d)).any (fun x =>
    x.2.type == Ty.KVPG && x.2.opc == 4 && x.2.stage == 2 && decide (x.2.no < d.no)))

/-! ### POOL and PFREE -/

/-- POOL. Its header, entries and maps are cleared. -/
def poolMake (k : Nat) (d : Desc) (s : State) : State :=
  let ctx := (s.bind k).qctx
  let p : Pool := { ctx := ctx, w5 := d.w 5, w6 := d.w 6, w7 := d.w 7 }
  let r := p.region k
  let e := r.ent s
  if !p.rangesOk then descDone k d.ridx St.DESC 7 s
  else if !(r.placed s k (d.w 5)) ∨ p.plen % 65536 ≠ 0 then descDone k d.ridx St.PERM (d.w 5) s
  else if (e.ctx ≠ 0xFFFF ∧ e.ctx ≠ ctx) ∨ !e.rd ∨ !e.wr then descDone k d.ridx St.PERM (d.w 5) s
  else match s.poolAt k p.id with
    | some x =>
      if x.w5 = p.w5 ∧ x.w6 = p.w6 ∧ x.w7 = p.w7 then descDone k d.ridx St.OK (wd p.nslot) s
      else descDone k d.ridx St.DESC 7 s
    | none =>
      if 1024 ≤ (s.pools k).length then descDone k d.ridx St.DESC 7 s
      else if r.status s ≠ St.OK then descDone k d.ridx (r.status s) (d.w 5) s
      else match r.patches s [(0, List.replicate p.sb 0)] with
        | .error st => descDone k d.ridx st (d.w 5) s
        | .ok ws =>
          let s := descTake k d.ridx (s.mapPools k (fun l => l ++ [{ p with kslot := e.kslot }]))
          let s := if k < 4096 ∧ s.mirroring then
              s.mirror (fun id => [.mirror (.pool id ctx p.w5 p.w6 p.w7 true)]) .nothing [] [] else s
          svcCommit r.bank ws (some (k, d.ridx, St.OK, wd p.nslot)) none (fun s => s) s

/-- POOL. -/
def execPool (q : Fin 4096) (ridx : BitVec 32) (s : State) : Res :=
  .next (svcDesc q.val ridx Ty.KVPG 1 (fun k d s => if poolBusy s k d then s else poolMake k d s) s)

/-- A descriptor that names a pool and a sequence: what it does with them. A pool that does not exist is
answered as one that is not open (R344). -/
def kvSeq (q : Nat) (ridx : BitVec 32) (opc : Nat) (act : Nat → Desc → Pool → Option Nat → State → State) (s : State) : State :=
  svcDesc q ridx Ty.KVPG opc (fun k d s =>
    if poolBusy s k d then s
    else match s.poolAt k (Kv.pool d) with
      | none => descEnd k ridx St.NOWIN s
      | some p =>
        let r := p.region k
        if p.maxseq ≤ Kv.seq d then descDone k ridx St.DESC 7 s
        else if r.status s ≠ St.OK then descDone k ridx (r.status s) p.w5 s
        else match p.seq k (Kv.seq d) s with
          | .error st => regionFail k ridx st (r.fa s (p.seqOff (Kv.seq d))) s
          | .ok o => act k d p o s) s

/-- PFREE. -/
def execPfree (q : Fin 4096) (ridx : BitVec 32) (s : State) : Res :=
  .next (svcDesc q.val ridx Ty.KVPG 2 (fun k d s =>
    if poolBusy s k d then s
    else match s.poolAt k (Kv.pool d) with
      | none => descEnd k ridx St.NOWIN s
      | some p =>
        let st := (p.region k).status s
        if st ≠ St.OK then descDone k ridx st p.w5 s
        else if (List.range p.maxseq).any (fun q => match p.seq k q s with
            | .ok (some _) => true
            | _ => false) then descEnd k ridx St.PERM s
        else
          let s := s.mapPools k (fun l => l.filter (fun x => x != p))
          let s := if k < 4096 ∧ s.mirroring then
              s.mirror (fun id => [.mirror (.pool id p.ctx p.w5 p.w6 p.w7 false)]) .nothing [] [] else s
          descEnd k ridx St.OK s) s)

/-! ### OPEN, TRUNC and CLOSE (R339, R341) -/

/-- Slots of a pool that an open sequence holds. -/
def Pool.used (p : Pool) (k : Nat) (s : State) : Except (BitVec 7) (List Nat) :=
  let plane := s.sharePlane k
  let seqs := (List.range p.maxseq).filterMap (fun q => match p.seq k q s with
    | .ok (some m) => some (q, m)
    | _ => none)
  match allOk (seqs.flatMap (fun q => (homeBlocks plane q.1 ((q.2 + 255) / 256)).flatMap (fun b =>
      (List.range p.layers).map (fun l => p.page k q.1 l b s)))) with
  | .error e => .error e
  | .ok l => .ok ((l.filter (fun x => x.v)).map (fun x => x.slot))

/-- OPEN: which free slots it takes is open, a free value picks each (log entry 6). -/
def seqOpen (k : Nat) (d : Desc) (p : Pool) (o : Option Nat) (s : State) : State :=
  let seq := Kv.seq d
  let r := p.region k
  let pages := (homeBlocks (s.sharePlane k) seq ((d.len + 255) / 256)).flatMap (fun b =>
    (List.range p.layers).map (fun l => b / 18 * p.layers + l))
  if d.len = 0 ∨ 1048576 < d.len then descDone k d.ridx St.DESC 1 s
  else match o with
    | some m => if m = d.len then descDone k d.ridx St.OK (wd pages.length) s else descDone k d.ridx St.DESC 1 s
    | none => match p.used k s with
      | .error st => regionFail k d.ridx st p.w5 s
      | .ok used =>
        let free := (List.range p.nslot).filter (fun n => !(used.contains n))
        if free.length < pages.length then descEnd k d.ridx St.BOUNDS s
        else
          let c := pickMany pages.length free s
          let s := c.2
          let ps := (pages.zip c.1).map (fun x => (p.mapOff seq x.1, wordBytes (PageEnt.word ⟨x.2, 0, true⟩)))
          match r.patches s (ps ++ [(p.seqOff seq, seqEntry d.len)]) with
          | .error st => regionFail k d.ridx st p.w5 s
          | .ok ws =>
            svcCommit r.bank ws (some (k, d.ridx, St.OK, wd pages.length)) none (fun s => s) (descTake k d.ridx s)

/-- OPEN. -/
def execOpenSeq (q : Fin 4096) (ridx : BitVec 32) (s : State) : Res := .next (kvSeq q.val ridx 3 seqOpen s)

/-- Pages of an open sequence homed here: block, place in the map, and entry. -/
def Pool.pages (p : Pool) (k seq maxlen : Nat) (s : State) : Except (BitVec 7) (List (Nat × Nat × PageEnt)) :=
  let l := (homeBlocks (s.sharePlane k) seq ((maxlen + 255) / 256)).flatMap (fun b =>
    (List.range p.layers).map (fun y => (b, y)))
  match allOk (l.map (fun x => p.page k seq x.2 x.1 s)) with
  | .error e => .error e
  | .ok es => .ok ((l.zip es).map (fun x => (x.1.1, p.mapOff seq (x.1.1 / 18 * p.layers + x.1.2), x.2)))

/-- TRUNC. -/
def seqTrunc (k : Nat) (d : Desc) (p : Pool) (o : Option Nat) (s : State) : State :=
  match o with
  | none => descEnd k d.ridx St.NOWIN s
  | some m =>
    if readersBefore s k d then s
    else match p.pages k (Kv.seq d) m s with
      | .error st => regionFail k d.ridx st p.w5 s
      | .ok l =>
        let ps := (l.filter (fun x => x.2.2.v)).map (fun x =>
          (x.2.1, wordBytes (PageEnt.word { x.2.2 with fill := min x.2.2.fill (d.len - 256 * x.1) })))
        match (p.region k).patches s ps with
        | .error st => regionFail k d.ridx st p.w5 s
        | .ok ws =>
          let f := draw 64 s
          svcCommit (svcBank k) ws (some (k, d.ridx, St.OK, f.1)) none (fun s => s) (descTake k d.ridx f.2)

/-- TRUNC. -/
def execTrunc (q : Fin 4096) (ridx : BitVec 32) (s : State) : Res := .next (kvSeq q.val ridx 6 seqTrunc s)

/-- CLOSE. A repeat of one that was performed at a lost QD1 completes with OK (R342). -/
def seqClose (k : Nat) (d : Desc) (p : Pool) (o : Option Nat) (s : State) : State :=
  match o with
  | none => descEnd k d.ridx (if d.inherited then St.OK else St.NOWIN) s
  | some m =>
    if readersBefore s k d then s
    else match p.pages k (Kv.seq d) m s with
      | .error st => regionFail k d.ridx st p.w5 s
      | .ok l =>
        match (p.region k).patches s (l.map (fun x => (x.2.1, List.replicate 8 0)) ++
            [(p.seqOff (Kv.seq d), List.replicate 32 0)]) with
        | .error st => regionFail k d.ridx st p.w5 s
        | .ok ws =>
          let f := draw 64 s
          svcCommit (svcBank k) ws (some (k, d.ridx, St.OK, f.1)) none (fun s => s) (descTake k d.ridx f.2)

/-- CLOSE. -/
def execClose (q : Fin 4096) (ridx : BitVec 32) (s : State) : Res := .next (kvSeq q.val ridx 7 seqClose s)

/-! ### APPEND and READ (R340, R341) -/

/-- Blocks homed here that tokens `t0` to `t0 + n - 1` touch, each with its first token and the number of its
tokens. -/
def tokenBlocks (plane seq t0 n : Nat) : List (Nat × Nat × Nat) :=
  if n = 0 then []
  else ((List.range ((t0 + n - 1) / 256 - t0 / 256 + 1)).map (fun i => t0 / 256 + i)).filterMap (fun b =>
    let a := max t0 (256 * b)
    let e := min (t0 + n) (256 * b + 256)
    if blockPlane seq b = plane then some (b, a, e - a) else none)

/-- The key and value arrays of a command overlap (R334). -/
def overlapped (ka va : Word) (n : Nat) : Bool :=
  decide (ka.toNat < va.toNat + n) && decide (va.toNat < ka.toNat + n)

/-- An APPEND or READ of an open sequence: the blocks that it touches here with their pages. -/
def kvTokens (k : Nat) (d : Desc) (p : Pool) (o : Option Nat)
    (act : List ((Nat × Nat × Nat) × PageEnt) → State → State) (s : State) : State :=
  match o with
  | none => descEnd k d.ridx St.NOWIN s
  | some m =>
    if afterClose s k d then descEnd k d.ridx St.NOWIN s
    else if p.layers ≤ Kv.layer d then descDone k d.ridx St.DESC 7 s
    else if overlapped (Kv.ka d) (Kv.va d) (d.len * p.kh * p.d * p.e) then descDone k d.ridx St.DESC 6 s
    else if badKey s k (Kv.kslot d) then descEnd k d.ridx St.KEY s
    else
      let bs := tokenBlocks (s.sharePlane k) (Kv.seq d) (Kv.t0 d) d.len
      if bs.any (fun b => decide (m < b.2.1 + b.2.2)) then descEnd k d.ridx St.BOUNDS s
      else match allOk (bs.map (fun b => p.page k (Kv.seq d) (Kv.layer d) b.1 s)) with
        | .error st => regionFail k d.ridx st p.w5 s
        | .ok es => act (bs.zip es) s

/-- Bytes of a token's element runs in the source arrays: keys and values of head `h`. -/
def srcRun (p : Pool) (d : Desc) (data : List Byte) (value : Bool) (t h : Nat) : List Byte :=
  let row := p.d * p.e
  slice data ((if value then d.len * p.kh * row else 0) + ((t - Kv.t0 d) * p.kh + h) * row) row

/-- APPEND: page bytes first, then FILL. The command's operand is the plaintext of KA and then of VA (log
entry 35). -/
def kvAppend (data : InData) (k : Nat) (d : Desc) (p : Pool) (o : Option Nat) (s : State) : State :=
  kvTokens k d p o (fun l s =>
    let n := l.foldl (fun n x => n + x.1.2.2) 0
    let ends := l.all (fun x => x.2.fill == x.1.2.1 + x.1.2.2 - 256 * x.1.1)
    if d.inherited ∧ ends then descDone k d.ridx St.OK (wd n) s
    else if l.any (fun x => !x.2.v || x.2.fill != x.1.2.1 - 256 * x.1.1) then descEnd k d.ridx St.BOUNDS s
    else if l.isEmpty then descDone k d.ridx St.OK 0 s
    else if data.status ≠ St.OK then descDone k d.ridx data.status (Kv.ka d) s
    else
      let toks := fun (x : (Nat × Nat × Nat) × PageEnt) => (List.range x.1.2.2).map (fun i => x.1.2.1 + i)
      let bytes := l.flatMap (fun x => (toks x).flatMap (fun t => (List.range p.kh).flatMap (fun h =>
        [(p.slotOff x.2.slot + p.keyOff h t, srcRun p d data.data false t h),
         (p.slotOff x.2.slot + p.valOff h t, srcRun p d data.data true t h)])))
      let fills := l.map (fun x => (p.mapOff (Kv.seq d) (x.1.1 / 18 * p.layers + Kv.layer d),
        wordBytes (PageEnt.word { x.2 with fill := x.1.2.1 + x.1.2.2 - 256 * x.1.1 })))
      match (p.region k).patches s (bytes ++ fills) with
      | .error st => regionFail k d.ridx st p.w5 s
      | .ok ws => svcCommit (svcBank k) ws (some (k, d.ridx, St.OK, wd n)) none (fun s => s) (descTake k d.ridx s)) s

/-- APPEND. -/
def execAppend (q : Fin 4096) (ridx : BitVec 32) (d : InData) (s : State) : Res :=
  .next (kvSeq q.val ridx 4 (kvAppend d) s)

/-- Bytes of the tokens of a block as READ copies them: token-major, heads in order. -/
def readTokens (p : Pool) (k : Nat) (x : (Nat × Nat × Nat) × PageEnt) (value : Bool) (s : State) :
    Except (BitVec 7) (List Byte) :=
  match allOk ((List.range x.1.2.2).flatMap (fun i => (List.range p.kh).map (fun h =>
      (p.region k).read s (p.slotOff x.2.slot + (if value then p.valOff h (x.1.2.1 + i) else p.keyOff h (x.1.2.1 + i)))
        (p.d * p.e)))) with
  | .error e => .error e
  | .ok l => .ok l.flatten

/-- READ. -/
def kvReadGo (k : Nat) (d : Desc) (p : Pool) (o : Option Nat) (s : State) : State :=
  kvTokens k d p o (fun l s =>
    if l.any (fun x => !x.2.v || decide (x.2.fill < x.1.2.1 + x.1.2.2 - 256 * x.1.1)) then descEnd k d.ridx St.BOUNDS s
    else match allOk (l.map (fun x => readTokens p k x false s)), allOk (l.map (fun x => readTokens p k x true s)) with
      | .ok ks, .ok vs =>
        let at_ := fun (x : (Nat × Nat × Nat) × PageEnt) => wd ((x.1.2.1 - Kv.t0 d) * p.kh * p.d * p.e)
        let s := (l.zip (ks.zip vs)).foldl (fun s x =>
          svcWrite k d.ridx (Kv.kslot d) (Kv.agen d) (Kv.va d + at_ x.1) x.2.2
            (svcWrite k d.ridx (Kv.kslot d) (Kv.agen d) (Kv.ka d + at_ x.1) x.2.1 s)) s
        let f := draw 64 s
        descDone k d.ridx St.OK f.1 f.2
      | .error st, _ => regionFail k d.ridx st p.w5 s
      | _, .error st => regionFail k d.ridx st p.w5 s) s

/-- READ. -/
def execKvRead (q : Fin 4096) (ridx : BitVec 32) (s : State) : Res := .next (kvSeq q.val ridx 5 kvReadGo s)

/-! ### PART (R343-R347) -/

namespace At
def qa (d : Desc) : Word := d.w 5
def pa (d : Desc) : Word := d.w 6
def scale (d : Desc) : Nat := fget (d.w 9) 0 32
def wlo (d : Desc) : Nat := fget (d.w 9) 32 32
def qh (d : Desc) : Nat := fget (d.w 10) 0 16
def nqt (d : Desc) : Nat := fget (d.w 10) 16 8
end At

/-- FP32 operations of R307 on codes. -/
def f32add (a b : Nat) : Nat := Fp.f32.addCodes a b
def f32sub (a b : Nat) : Nat := Fp.f32.enc .rne false ((Fp.f32.dec a).add (Fp.f32.dec b).neg)
def f32mul (a b : Nat) : Nat := Fp.f32.enc .rne false ((Fp.f32.dec a).mul (Fp.f32.dec b))
def f32fma (a b c : Nat) : Nat := Fp.f32.enc .rne false (((Fp.f32.dec a).mul (Fp.f32.dec b)).add (Fp.f32.dec c))
def f32max (a b : Nat) : Nat := fpMinMax true Fp.f32 a b
def f32exp2 (a : Nat) : Nat := vexp1 (BitVec.ofNat 32 a)
abbrev f32NegInf : Nat := 0xFF800000

/-- A tensor result over two vectors, from zero: products in groups of the format, one rounding each (R313). -/
def tensorDot (fmt : Nat) (xs ys : List Num) : Nat :=
  (chunksOf (tensorG fmt) (xs.length + 1) (xs.zip ys)).foldl (fun acc g =>
    Fp.f32.enc .rne false (g.foldl (fun n p => n.add (p.1.mul p.2)) (Fp.f32.dec acc))) 0

/-- Elements of a vector of a format. -/
def numsOf (fmt n : Nat) (d : List Byte) : List Num :=
  (List.range n).map (fun i => (afmtFp fmt).dec (bitsAt d (i * afmtBits fmt) (afmtBits fmt)))

/-- The partial of one query row. -/
structure PartRow where
  m : Nat := f32NegInf
  l : Nat := 0
  n : Nat := 0
  o : List Nat
  deriving DecidableEq, Repr

/-- One block of a row: its scores by token, with the invisible ones at −Inf, and its values (R345). -/
def partBlock (pfmt : Nat) (vis : Nat → Bool) (sc : List Nat) (vs : List (List Num)) (r : PartRow) : PartRow :=
  let st := sc.mapIdx (fun i x => if vis i then x else f32NegInf)
  let mb := (chunksOf 32 (st.length + 1) st).foldl (fun a g => f32max a (reduceLanes f32max g)) f32NegInf
  let mn := f32max r.m mb
  let a := if r.m = f32NegInf then 0 else f32exp2 (f32sub r.m mn)
  let e := st.mapIdx (fun i x => if vis i then f32exp2 (f32sub x mn) else 0)
  let lb := (chunksOf 32 (e.length + 1) e).foldl (fun l g => f32add l (reduceLanes f32add g)) 0
  let pn := e.map (fun x => (afmtFp pfmt).dec ((afmtFp pfmt).enc .rne false (Fp.f32.dec x)))
  let pv := (List.range r.o.length).map (fun x => tensorDot pfmt pn (vs.map (fun v => v.getD x (.fin false 0 0))))
  { m := mn, l := f32fma r.l a lb, n := r.n + ((List.range st.length).filter vis).length,
    o := List.zipWith (fun o p => f32fma o a p) r.o pv }

/-- The record of a row (R346). -/
def PartRow.record (r : PartRow) (plane : Nat) : List Byte :=
  slice (bytesOf 4 r.m ++ bytesOf 4 r.l ++ bytesOf 4 r.n ++ bytesOf 1 plane) 0 64 ++ f32Bytes r.o

/-- The first offending word of a PART, with the pool's KV heads where the pool is known (R343, R344). -/
def partBad (s : State) (k : Nat) (d : Desc) (kh : Option Nat) : Option Nat :=
  let owner := (s.bind k).owner
  let per : Bool := match kh with
    | some h => At.qh d % max 1 h != 0 || decide (32 < At.nqt d * (At.qh d / max 1 h))
    | none => false
  if d.len < At.nqt d then some 1
  else if faNode (At.qa d) ≠ owner ∨ (At.qa d).toNat % 64 ≠ 0 then some 5
  else if faNode (At.pa d) ≠ owner ∨ (At.pa d).toNat % 64 ≠ 0 ∨ faWin (At.pa d) ≠ faWin (At.qa d) then some 6
  else if d.len ≤ At.wlo d then some 9
  else if per ∨ At.qh d = 0 ∨ At.nqt d = 0 ∨ 32 < At.nqt d then some 10
  else none

/-- The scores and values of a block for a KV head. -/
def blockNums (p : Pool) (k h : Nat) (slot : Nat) (value : Bool) (s : State) : Except (BitVec 7) (List (List Num)) :=
  match (p.region k).read s (p.slotOff slot + (if value then p.valOff h 0 else p.keyOff h 0)) (256 * p.d * p.e) with
  | .error e => .error e
  | .ok d => .ok (chunksOf p.d 257 (numsOf p.kfmt (256 * p.d) d))

/-- The rows of a PART: every query token and head, with its partial over the pages here. -/
def partRows (p : Pool) (d : Desc) (q : List Byte) (k : Nat) (pages : List (Nat × PageEnt)) (s : State) :
    Except (BitVec 7) (List (Nat × Nat × PartRow)) :=
  let pfmt := if p.kfmt = 2 then 2 else 1
  let blocks := fun (h : Nat) => allOk (pages.map (fun x =>
    match blockNums p k h x.2.slot false s, blockNums p k h x.2.slot true s with
    | .ok ks, .ok vs => .ok (x.1, ks, vs)
    | .error e, _ => .error e
    | _, .error e => .error e))
  match allOk ((List.range p.kh).map blocks) with
  | .error e => .error e
  | .ok heads =>
    .ok ((List.range (At.nqt d)).flatMap (fun j => (List.range (At.qh d)).map (fun hq =>
      let row := p.d * p.e
      let qs := numsOf p.kfmt p.d (slice q ((j * At.qh d + hq) * row) row)
      let pos := d.len - At.nqt d + j
      let r := (heads.getD (hq / (At.qh d / max 1 p.kh)) []).foldl (fun (r : PartRow) x =>
        let vis := fun (i : Nat) => decide (At.wlo d ≤ 256 * x.1 + i) && decide (256 * x.1 + i ≤ pos)
        if (List.range 256).any vis then
          partBlock pfmt vis (x.2.1.map (fun kt => f32mul (tensorDot p.kfmt qs kt) (At.scale d))) x.2.2 r
        else r) ({ o := List.replicate p.d 0 } : PartRow)
      (j, hq, r))))

/-- Check a PART and compute its records. -/
def partGo (data : InData) (k : Nat) (d : Desc) (s : State) : State :=
  let pool := s.poolAt k (Kv.pool d)
  match partBad s k d (pool.map Pool.kh), pool with
  | some w, _ => descDone k d.ridx St.DESC (wd w) s
  | none, none => descEnd k d.ridx St.NOWIN s
  | none, some p =>
    let r := p.region k
    if r.status s ≠ St.OK then descDone k d.ridx (r.status s) p.w5 s
    else if p.maxseq ≤ Kv.seq d ∨ p.layers ≤ Kv.layer d then descDone k d.ridx St.DESC 7 s
    else match p.seq k (Kv.seq d) s with
      | .error st => regionFail k d.ridx st p.w5 s
      | .ok none => descEnd k d.ridx St.NOWIN s
      | .ok (some m) =>
        if afterClose s k d then descEnd k d.ridx St.NOWIN s
        else if m < d.len then descEnd k d.ridx St.BOUNDS s
        else
          let bs := (homeBlocks (s.sharePlane k) (Kv.seq d) ((d.len + 255) / 256)).filter (fun b =>
            decide (At.wlo d < 256 * b + 256))
          match allOk (bs.map (fun b => p.page k (Kv.seq d) (Kv.layer d) b s)) with
          | .error st => regionFail k d.ridx st p.w5 s
          | .ok es =>
            if (bs.zip es).any (fun x => !x.2.v || decide (x.2.fill < min 256 (d.len - 256 * x.1))) then
              descEnd k d.ridx St.BOUNDS s
            else if badKey s k (Kv.kslot d) then descEnd k d.ridx St.KEY s
            else if data.status ≠ St.OK then descDone k d.ridx data.status (At.qa d) s
            else match partRows p d data.data k (bs.zip es) s with
              | .error st => regionFail k d.ridx st p.w5 s
              | .ok rows =>
                let plane := s.sharePlane k
                let rb := 64 + 4 * p.d
                let s := rows.foldl (fun s x => svcWrite k d.ridx (Kv.kslot d) (Kv.agen d)
                  (At.pa d + wd (((plane * At.nqt d + x.1) * At.qh d + x.2.1) * rb)) (x.2.2.record plane) s) s
                let n := (rows.find? (fun x => x.1 + 1 == At.nqt d && x.2.1 == 0)).map (fun x => x.2.2.n)
                svcDone k d.ridx (n.getD 0) s

/-- PART. The command's operand is the plaintext of the queries (log entry 35). -/
def execPart (q : Fin 4096) (ridx : BitVec 32) (d : InData) (s : State) : Res :=
  .next (svcDesc q.val ridx Ty.ATTN 1 (partGo d) s)

/-! ### LOAD and SAVE (R351) -/

namespace Op
def wa (d : Desc) : Word := d.w 5
def ma (d : Desc) : Word := d.w 6
def step (d : Desc) : BitVec 32 := BitVec.ofNat 32 (fget (d.w 7) 0 32)
def va (d : Desc) : Word := d.w 9
def sta (d : Desc) : Word := d.w 10
def tgen (d : Desc) : Byte := BitVec.ofNat 8 (fget (d.w 11) 0 8)
def alg (d : Desc) : Nat := fget (d.w 11) 8 8
end Op

/-- What LOAD writes to a block: its elements of the three arrays and its header. `x` is SLOT, which the spec
leaves open while nothing is staged. -/
def loadBlock (o : OptRegion) (d : Desc) (data : List Byte) (x : BitVec 16) (b : Nat) : List (Nat × List Byte) :=
  let total := ((List.range o.nb).map o.elems).foldl (· + ·) 0
  let before := ((List.range b).map o.elems).foldl (· + ·) 0
  let n := o.elems b
  let arr := fun (i : Nat) (a : Word) =>
    if i ≠ 0 ∧ a = 0 then List.replicate (4 * n) 0
    else slice data (4 * ((if i = 2 ∧ Op.ma d = 0 then i - 1 else i) * total + before)) (4 * n)
  [(o.block b, arr 0 (Op.wa d)), (o.block b + 65536, arr 1 (Op.ma d)), (o.block b + 131072, arr 2 (Op.va d)),
   (OptRegion.header b, (OptHead.mk (Op.step d) 0xFFFFFFFF x).bytes)]

/-- LOAD. The command's operand is the plaintext of the plane's elements of WA, then of MA and VA where they
are not 0 (log entry 35). -/
def optLoad (data : InData) (k : Nat) (d : Desc) (s : State) : State :=
  let o := optRegion s k (Op.sta d) (Op.tgen d) d.len
  let st := optStatus s k (Op.sta d) o
  if 1 < Op.alg d then descDone k d.ridx St.DESC 11 s
  else if st ≠ St.OK then descDone k d.ridx st (if st = St.DESC then 10 else Op.sta d) s
  else if badKey s k (Kv.kslot d) then descEnd k d.ridx St.KEY s
  else if data.status ≠ St.OK then descDone k d.ridx data.status (Op.wa d) s
  else
    let x := draw 16 s
    let s := x.2
    match o.r.patches s ([(0, o.top (Op.alg d))] ++ (List.range o.nb).flatMap (loadBlock o d data.data x.1)) with
    | .error st => regionFail k d.ridx st (Op.sta d) s
    | .ok ws =>
      let f := draw 64 s
      svcCommit (svcBank k) ws (some (k, d.ridx, St.OK, f.1)) none (fun s => s) (descTake k d.ridx f.2)

/-- OPTS LOAD. -/
def execOptsLoad (q : Fin 4096) (ridx : BitVec 32) (d : InData) (s : State) : Res :=
  .next (svcDesc q.val ridx Ty.OPTS 1 (optLoad d) s)

/-- SAVE. -/
def optSave (k : Nat) (d : Desc) (s : State) : State :=
  let o := optRegion s k (Op.sta d) (Op.tgen d) d.len
  let st := optStatus s k (Op.sta d) o
  if st ≠ St.OK then descDone k d.ridx st (if st = St.DESC then 10 else Op.sta d) s
  else if badKey s k (Kv.kslot d) then descEnd k d.ridx St.KEY s
  else match o.mismatch s 10 0 none with
    | .error st => regionFail k d.ridx st (Op.sta d) s
    | .ok (some w) => descDone k d.ridx St.DESC (wd w) s
    | .ok none =>
      match allOk ((List.range o.nb).map (fun b => o.head s b)) with
      | .error st => regionFail k d.ridx st (Op.sta d) s
      | .ok hs =>
        if hs.any (fun h => decide (h.staged ≠ 0xFFFFFFFF ∨ h.last ≠ Op.step d)) then descDone k d.ridx St.DESC 7 s
        else
          let arrays := [(0, Op.wa d), (65536, Op.ma d), (131072, Op.va d)].filter (fun a => a.1 == 0 || decide (a.2 ≠ 0))
          let parts := (List.range o.nb).flatMap (fun b => arrays.map (fun a =>
            (a.2 + wd (65536 * (18 * b + o.plane)), o.r.read s (o.block b + a.1) (4 * o.elems b))))
          match allOk (parts.map (fun x => x.2)) with
          | .error st => regionFail k d.ridx st (Op.sta d) s
          | .ok ds =>
            let s := (parts.zip ds).foldl (fun s x => svcWrite k d.ridx (Kv.kslot d) (Kv.agen d) x.1.1 x.2 s) s
            let f := draw 64 s
            descDone k d.ridx St.OK f.1 f.2

/-- OPTS SAVE. -/
def execSave (q : Fin 4096) (ridx : BitVec 32) (s : State) : Res := .next (svcDesc q.val ridx Ty.OPTS 3 optSave s)

/-! ### STEP (R352-R355) -/

/-- The words of a STEP as the collective table holds them: an all-reduce of type OPTS. -/
def stepWords (w : List Word) : List Word := (fset (w.getD 0 0) 0 8 0x11) :: w.tail

/-- The first offending word of a STEP (R352): the rules of an all-reduce, with an extension 3 of its own. -/
def stepForm (s : State) (k : Nat) (seedSet : Bool) (w0 : List Word) : Option Nat :=
  let w := stepWords w0
  let a := Gd.actl w
  let rules := ((greenRules s k seedSet w).filter (fun r => r.1 != 0 && decide (r.1 < 24))) ++
    [(0, Gd.ext w == 3), (7, (a.ifmt == 0 || a.ifmt == 1) && a.ofmt == 0 && a.rmode == 0),
     (24, fget (Gd.word w 24) 32 32 == 0),
     (26, decide (entryNat w 3 17 1 ≤ 1) && entryNat w 3 18 2 == 0), (31, entryNat w 3 60 4 == 0)]
  (rules.filter (fun r => !r.2)).foldl (fun m r => match m with
    | none => some r.1
    | some x => some (min x r.1)) none

/-- The region of a STEP. -/
def stepRegion (s : State) (k : Nat) (w : List Word) : OptRegion :=
  optRegion s k (Gd.word w 25) (BitVec.ofNat 8 (entryNat w 3 16 1)) (Gd.len w)

/-- STEP: entered in the Green's table when its region's header agrees with it. -/
def optStep (k : Nat) (d : Desc) (s : State) : State :=
  let w := d.words
  let o := stepRegion s k w
  let sta := Gd.word w 25
  let st := optStatus s k sta o
  if st ≠ St.OK then descDone k d.ridx st (if st = St.DESC then 25 else sta) s
  else match o.mismatch s 25 (entryNat w 3 17 1) (some 26) with
    | .error st => regionFail k d.ridx st sta s
    | .ok (some w) => descDone k d.ridx St.DESC (wd w) s
    | .ok none => greenEnter k { d with words := stepWords w } s

/-- OPTS STEP. -/
def execOptsStep (q : Fin 4096) (ridx : BitVec 32) (s : State) : Res := .next (svcDesc q.val ridx Ty.OPTS 2 optStep s)

/-- The constants of a step, by byte of extension 3. -/
def stepConst (w : List Word) (off : Nat) : Nat := entryNat w 3 off 4

/-- The update of one element (R353): weight and moments from the gradient code. -/
def optUpdate (w : List Word) (g w0 m v : Nat) : Nat × Nat × Nat :=
  let c := stepConst w
  let g := f32mul g (c 20)
  let mvu :=
    if entryNat w 3 17 1 = 0 then
      let m := f32fma (c 28) m (f32mul g (c 32))
      let v := f32fma (c 36) v (f32mul (f32mul g g) (c 40))
      (m, v, f32mul (f32mul m (c 44)) (vrsq1 (BitVec.ofNat 32 (f32fma v (c 48) (c 52)))))
    else
      let m := f32fma (c 28) m g
      (m, v, m)
  (f32fma (c 24) (f32fma (c 56) w0 mvu.2.2) w0, mvu.1, mvu.2.1)

/-- An FP32 code that is no finite number. -/
def nonFinite (c : Nat) : Bool := match Fp.f32.dec c with
  | .fin _ _ _ => false
  | _ => true

/-- Step 7 of R354: the block's weights in BF16 go to every member, and the chunk is watched. -/
def optWeights (no c : Nat) (s : State) : State :=
  match s.coll? no with
  | none => s
  | some e =>
    match e.ready.find? (fun x => x.chunk == c) with
    | none => s
    | some x =>
      let w := e.words
      let k := (e.mems.head?.map (·.key)).getD 0
      let o := stepRegion s k w
      let b := c / 18
      let s := s.mapColl no (fun e => { e with ready := e.ready.filter (fun y => y.chunk != c) })
      match o.r.read s (o.block b) (4 * o.elems b) with
      | .error st => collEnd no st (Gd.word w 25) false s
      | .ok d =>
        let codes := (f32Codes d).map (fun y => Fp.bf16.enc .rne false (Fp.f32.dec y))
        let p : Piece := { n := codes.length, data := packBits 16 codes }
        let item : WatchItem :=
          { kind := 1, ctx := e.ctx, key := e.coll.toNat, index := c, fmt := 1, n := p.n, data := p.data,
            prot := decide (Gd.kslot w ≠ 0) }
        writeSum no c p (fun l => (x.icrcs.find? (fun y => y.1 == l)).map (·.2)) (s.watch item)

/-- Steps 2 to 6 of R354 as writes to the region; a block already committed needs none. None while no staging
slot is free. -/
def optCommit (o : OptRegion) (w : List Word) (b : Nat) (g : List Nat) (s : State) :
    Except (BitVec 7) (Option (List (Nat × List Byte)) × State) :=
  let step := BitVec.ofNat 32 (Gd.step w)
  let n := o.elems b
  match o.head s b with
  | .error st => .error st
  | .ok h =>
    let copy := fun (x y z : List Byte) => [(o.block b, x), (o.block b + 65536, y), (o.block b + 131072, z)]
    if h.last = step then .ok (some [], s)
    else if h.staged = step then
      match o.r.read s (o.slot h.slot.toNat) (4 * n), o.r.read s (o.slot h.slot.toNat + 65536) (4 * n),
          o.r.read s (o.slot h.slot.toNat + 131072) (4 * n) with
      | .ok x, .ok y, .ok z =>
        .ok (some (copy x y z ++ [(OptRegion.header b, (OptHead.mk step 0xFFFFFFFF h.slot).bytes)]), s)
      | .error e, _, _ => .error e
      | _, .error e, _ => .error e
      | _, _, .error e => .error e
    else
      match o.r.read s (o.block b) (4 * n), o.r.read s (o.block b + 65536) (4 * n), o.r.read s (o.block b + 131072) (4 * n),
          allOk ((List.range o.nb).map (fun i => o.head s i)) with
      | .ok x, .ok y, .ok z, .ok hs =>
        let used := (hs.filter (fun h => decide (h.staged ≠ 0xFFFFFFFF))).map (fun h => h.slot.toNat)
        let free := (List.range 64).filter (fun t => !(used.contains t))
        if free.isEmpty then .ok (none, s)
        else
          let c := pickMany 1 free s
          let t := c.1.headD 0
          let new := (List.range n).map (fun i => optUpdate w (g.getD i 0) (natOf (slice x (4 * i) 4))
            (natOf (slice y (4 * i) 4)) (natOf (slice z (4 * i) 4)))
          let xs := f32Bytes (new.map (fun r => r.1))
          let ys := f32Bytes (new.map (fun r => r.2.1))
          let zs := f32Bytes (new.map (fun r => r.2.2))
          .ok (some ([(o.slot t, xs), (o.slot t + 65536, ys), (o.slot t + 131072, zs),
              (OptRegion.header b, (OptHead.mk h.last step (BitVec.ofNat 16 t)).bytes)] ++ copy xs ys zs ++
              [(OptRegion.header b, (OptHead.mk step 0xFFFFFFFF (BitVec.ofNat 16 t)).bytes)]), c.2)
      | .error e, _, _, _ => .error e
      | _, .error e, _, _ => .error e
      | _, _, .error e, _ => .error e
      | _, _, _, .error e => .error e

/-- OPTS_BLOCK_COMMIT: a delivered gradient chunk is applied to its block. Non-finite gradients are counted in
every member's RESULT. -/
def execOptsBlockCommit (ctx : BitVec 16) (coll : BitVec 32) (b : Nat) (g : List (BitVec 32)) (s : State) : Res :=
  .next (
    match s.colls.find? (fun e => decide (e.ctx = ctx) && decide (e.coll = coll) && e.running && Gd.opts e.words &&
        e.ready.any (fun x => x.chunk == 18 * b + e.plane && !x.busy && decide (x.data = f32Bytes (g.map BitVec.toNat)))) with
    | none => s
    | some e =>
      let c := 18 * b + e.plane
      let k := (e.mems.head?.map (·.key)).getD 0
      let o := stepRegion s k e.words
      match optCommit o e.words b (g.map BitVec.toNat) s with
      | .error st => collEnd e.no st (Gd.word e.words 25) false (headEvent k o b st s)
      | .ok (none, _) => s
      | .ok (some ps, s) =>
        match o.r.patches s ps with
        | .error st => collEnd e.no st (Gd.word e.words 25) false s
        | .ok ws =>
          let bad := (g.filter (fun x => nonFinite x.toNat)).length
          let s := e.mems.foldl (fun s m => s.mapDesc m.key m.ridx (fun d => { d with result := d.result + wd bad })) s
          let s := s.mapColl e.no (fun x => { x with ready := x.ready.map (fun y =>
            if y.chunk = c then { y with busy := true } else y) })
          svcCommit (svcBank k) ws none (some (e.no, c)) (optWeights e.no c) s)

/-- The weights that a mirrored commit lets out once it is settled. -/
def optSettled (m : MirrorPend) (s : State) : State :=
  match m.then_ with
  | .svc _ _ _ (some (no, c)) => optWeights no c s
  | _ => s

end Sys2Proof.Machine
end

