-- ==== Sys2Proof/Machine/Partner.lean ====
section
/-! DEFINITION. The partner QD1: the mirroring messages that it sends and acknowledges (R84, R117, R475), and
what a spare is loaded with (R476). -/

namespace Sys2Proof.Machine

/-- Change fault management. -/
def State.mapFault (s : State) (f : FaultMgr → FaultMgr) : State := s.mapQd (fun q => { q with fault := f q.fault })

/-! ### What the partner receives -/

/-- The number of a mirroring message. -/
def mirrorId : MirrorMsg → Nat
  | .data id .. => id
  | .atomic id .. => id
  | .window id .. => id
  | .binding id .. => id
  | .queue id .. => id
  | .seed id .. => id
  | .pool id .. => id
  | .count id .. => id
  | .home m => mirrorId m

/-- First key of the queues of a responder's node. -/
def keyBase (b : Bank) : Nat := if b = .mir then 4096 else 0

/-- A binding of a mirrored queue. -/
def mirrorBind (b : Bank) (q : Nat) (e : Entry) (s : State) : State :=
  let k := keyBase b + q
  let fresh := decide ((s.bind k).qstate = 0) || decide (e.qstate = 0)
  let s := s.mapRings (fun r => { r with bind := Tbl.put r.bind k e })
  if fresh then s.mapSq k (fun _ => {}) else s

/-- Replace the COUNT of a collective member. -/
def putCount (ctx : BitVec 16) (coll : BitVec 32) (slot n : Nat) (l : List (BitVec 16 × BitVec 32 × Nat × Nat)) :
    List (BitVec 16 × BitVec 32 × Nat × Nat) :=
  (ctx, coll, slot, n) :: l.filter (fun x => !(x.1 == ctx && x.2.1 == coll && x.2.2.1 == slot))

/-- A mirroring message is applied to the copies of a responder's node: the partner's, or the own node's of a
QD1 that is loaded. -/
def mirrorApply (b : Bank) : MirrorMsg → State → State
  | .data _ a bytes, s => s.poke b a bytes
  | .atomic _ a bytes key st old, s =>
    (s.poke b a bytes).addReplay b { key := key, status := st, old := old, at_ := s.stamp, mirrored := b == .mir }
  | .window _ w w0 w1 w2 w3, s => (s.setWte b w.val (mkEntry w0 w1 w2 w3)).dropTrans b w.val
  | .binding _ q w0 w1 w2 w3, s => mirrorBind b q.val (mkEntry w0 w1 w2 w3) s
  | .queue _ q pi ci pend, s =>
    s.mapSq (keyBase b + q.val) (fun x => { x with pi := pi, ci := ci, fp := ci, redo := pend })
  | .seed _ ctx seed, s => s.mapGreen (fun g =>
      let put := fun (l : List (BitVec 16 × Word)) => (ctx, seed) :: l.filter (fun x => decide (x.1 ≠ ctx))
      if b = .mir then { g with mseeds := put g.mseeds } else { g with seeds := put g.seeds })
  | .pool _ ctx w5 w6 w7 made, s =>
    let p : Pool := { ctx := ctx, w5 := w5, w6 := w6, w7 := w7, kslot := (s.wte b (faWin w5)).kslot }
    s.mapPools (keyBase b) (fun l =>
      let l := l.filter (fun x => !(x.ctx == ctx && x.id == p.id))
      if made then l ++ [p] else l)
  | .count _ ctx coll slot n, s => s.mapGreen (fun g =>
      if b = .mir then { g with mcounts := putCount ctx coll slot.toNat n.toNat g.mcounts }
      else { g with hcounts := putCount ctx coll slot.toNat n.toNat g.hcounts })
  | .home m, s => mirrorApply .own m s

/-- A mirrored replay entry waits while the cache holds 16,384 entries within their hold (R84). -/
def mirrorWaits (s : State) : MirrorMsg → Bool
  | .atomic _ _ _ key _ _ => s.replayFull .own key
  | .home m => mirrorWaits s m
  | _ => false

/-- MIRROR_WRITE: applied and acknowledged, once there is room for its replay entry. -/
def execMirrorWrite (m : MirrorMsg) (s : State) : Res :=
  .next (if s.fenced ∨ mirrorWaits s m then s else emit (mirrorApply .mir m s) (.mirrorAck (mirrorId m)))

/-- Requests that waited for a mirrored update go on. -/
def mirrorGoOn (s : State) : State := retryWaits .mir none (retryWaits .own none s)

/-- MIRROR_ACK: with the last acknowledgement of an update it takes effect and its answers go out. -/
def execMirrorAck (id : Nat) (s : State) : Res :=
  .next (
    match s.qd.node.mirrors.find? (fun m => m.id == id) with
    | none => s
    | some m =>
      if 1 < m.need then
        s.mapNode .own (fun n => { n with mirrors := n.mirrors.map (fun x =>
          if x.id = id then { x with need := x.need - 1 } else x) })
      else
        mirrorGoOn (optSettled m (mirrorSettle m true
          (s.mapNode .own (fun n => { n with mirrors := n.mirrors.filter (fun x => x.id != id) })))))

/-- Every unacknowledged mirroring message is settled as if it had never been sent (R475). -/
def settleMirrors (s : State) : State :=
  let ms := s.qd.node.mirrors
  mirrorGoOn (ms.foldl (fun s m => optSettled m (mirrorSettle m false s))
    (s.mapNode .own (fun n => { n with mirrors := [] })))

/-- Add updates whose records the partner has not acknowledged are sent without them (R190, R475). -/
def settleRecords (s : State) : State :=
  s.mergeEnts.foldl (fun s x => match x.2.update with
    | some u => if u.isAdd && u.recSent then sendUpdate x.1 s else s
    | none => s) s

/-! ### What a QD1 copies to the other (R475, R476) -/

/-- Frames of 64 KiB that the mirrored windows of a responder's node map, with the page tables that map them. -/
def mirFrames (b : Bank) (s : State) : List Nat :=
  let run := fun (a n : Nat) => (List.range ((a + n - 1) / 65536 - a / 65536 + 1)).map (fun i => a / 65536 + i)
  ((List.range 48).flatMap (fun w =>
    let e := s.wte b w
    if e.state = 0 ∨ !e.mir ∨ e.limit = 0 then []
    else if e.pgsz = 3 then run e.baseAddr e.limit
    else
      run e.baseAddr (8 * (e.limit / e.pageSize)) ++
      (List.range (e.limit / e.pageSize)).flatMap (fun i =>
        let pte := wd (natOf ((s.hbm b).read (e.pteAddr i) 8))
        if pteMapped s b e pte then run (fget pte 16 48 * 65536) e.pageSize else []))).eraseDups

/-- The number of a copied message: no update waits for its acknowledgement. -/
abbrev copyId : Nat := 2 ^ 64

/-- The message that copies a frame. -/
def frameMsg (b : Bank) (s : State) (f : Nat) : Out :=
  .mirror (homeOf b (.data copyId (f * 65536) ((s.hbm b).read (f * 65536) 65536)))

/-- Copy the frames of the resync set: those of the own node, and from 2^40 on those of the partner's. -/
def copyResync (s : State) : State :=
  let fs := s.qd.fault.resync
  let s := emits s (fs.map (fun f => if f < 2 ^ 40 then frameMsg .own s f else frameMsg .mir s (f - 2 ^ 40)))
  s.setFl F.FT_STS_LOADED (fs.length * 65536 / 2 ^ 30)

/-- The queue and service state of a responder's node: windows, bindings, queues, pools, seeds and COUNTs. -/
def stateMsgs (b : Bank) (s : State) : List Out :=
  let m := fun (x : MirrorMsg) => Out.mirror (homeOf b x)
  let k0 := keyBase b
  (List.range 48).flatMap (fun w =>
    let e := s.wte b w
    if e.state ≠ 0 ∧ e.mir then [m (.window copyId (Fin.ofNat 48 w) e.w0 e.w1 e.w2 e.w3)] else []) ++
  (s.qd.rings.bind.filter (fun x => decide (x.1 / 4096 = k0 / 4096) && x.2.qmir && decide (x.2.qstate ≠ 0))).flatMap
    (fun x =>
      let q := s.sq x.1
      [m (.binding copyId (Fin.ofNat 4096 x.1) x.2.w0 x.2.w1 x.2.w2 x.2.w3),
       m (.queue copyId (Fin.ofNat 4096 x.1) q.pi q.ci (q.pend ++ q.redo))]) ++
  (s.pools k0).map (fun p => m (.pool copyId p.ctx p.w5 p.w6 p.w7 true)) ++
  (if b = .mir then s.qd.green.mseeds else s.qd.green.seeds).map (fun x => m (.seed copyId x.1 x.2)) ++
  (s.colls.filter (fun c => decide ((c.plane = s.qdPlane) ↔ b = .own))).flatMap (fun c => c.mems.map (fun x =>
    m (.count copyId c.ctx c.coll (BitVec.ofNat 8 x.slot) (BitVec.ofNat 32 (((s.desc? x.key x.ridx).map (·.count)).getD 0)))))

/-- The replay entries of a responder's node: requests that it answered, and those that it holds for the other. -/
def replayMsgs (s : State) : List Out :=
  s.qd.node.replay.map (fun r =>
    Out.mirror (homeOf (if r.mirrored then .mir else .own) (.atomic copyId 0 [] r.key r.status r.old)))

/-- Load a spare: every mirrored frame of both nodes, and their state (step 4 of R476). -/
def loadSpare (s : State) : State :=
  let own := mirFrames .own s
  let mir := mirFrames .mir s
  let s := emits s (own.map (frameMsg .own s) ++ mir.map (frameMsg .mir s) ++ stateMsgs .own s ++ stateMsgs .mir s ++
    replayMsgs s)
  s.setFl F.FT_STS_LOADED ((own.length + mir.length) * 65536 / 2 ^ 30)

end Sys2Proof.Machine
end

