-- ==== Sys2Proof/Machine/FaultMgr.lean ====
section
/-! DEFINITION. Fault management: the loss of a QD1, a pair and an end point, exposure and resync, the
admission of a spare, and the Granary patrol (R465-R485, R490). -/

namespace Sys2Proof.Machine

/-! ### Pieces -/

/-- A FAULT event, sent on both rack service links too. The spec states no cause codes: the cause is a free
value (log entry 48). -/
def faultEvent (obj arg0 : Nat) (s : State) : State :=
  let d := draw 64 s
  d.2.eventBoth Rg.hm { cat := Cat.FAULT, obj := obj, arg0 := wd arg0, arg1 := d.1 }

def State.partnerPlane (s : State) : Nat := s.qdPlane ^^^ 1
def State.setPair (s : State) (n : Nat) : State := s.setFl F.FT_STS_PAIR n

/-- Both partner ports are down. -/
def State.partnerGone (s : State) : Bool := !(s.portUp 144) && !(s.portUp 145)

/-- The QD1 has booted and is in service. -/
def State.serving (s : State) : Bool := decide (s.fl F.BOOT_STS_STEP = 12) && !s.fenced

/-- The QD1 is outside LIVE: a spare, or one of a pair that returns. -/
def State.outside (s : State) : Bool := s.serving && !(bitAt (s.rg R.FT_LIVE) s.qdPlane)

/-- Write SV_LIVE at every end point whose port is up (step 6 of R472 and of R476). -/
def sendLive (v : Word) (s : State) : State :=
  (List.range 144).foldl (fun s n =>
    if s.portUp n then
      unitReq { que := 576, purpose := .unit Un.HM n 0 0, parts := [[mgmtSta s n SR.SV_LIVE v]] } s
    else s) s

/-- FT_LIVE with bits of planes set or clear. -/
def State.liveWith (s : State) (planes : List Nat) (on : Bool) : Word :=
  List.foldl (fun (w : Word) (d : Nat) => Machine.fset w d 1 (b2n on)) (s.rg R.FT_LIVE &&& 0x3FFFF) planes

/-- The QD1 is fenced: its end-point ports go to electrical idle, and it performs nothing more (R471). -/
def fence (s : State) : State :=
  let s := (List.range 144).foldl (fun s n =>
    emit (((s.setFl (F.LN_PORT_STS_STATE n) 0).setFl (F.LN_PORT_STS_STEP n) 0).mapLink (.qd (Fin.ofNat 160 n)) linkCleared)
      (.lane (.qd (Fin.ofNat 160 n)) 0 0)) s
  s.setPair 5

/-- The pair is lost (R480). -/
def pairLost (s : State) : State :=
  settleMirrors ((faultEvent Obj.PAIR (s.qdPlane / 2) s).setPair 4)

/-! ### Takeover (R190, R472) -/

/-- Resend the total of a combine record under the lost QD1's node and key, and keep its members for the answer.
The record names no opcode of a member: each is answered as an FADD (log entry 47). -/
def combineTake (s : State) (r : CombineRec) : State :=
  let n := atomSize r.head.aux
  let h : Hdr := { r.head.hdr with
    dst := r.dst, src := s.partnerNode, opc := Opc.FADD, rty := true, rsp := false, ord := 0, que := 512
    tag := r.tag.toNat, tseq := r.tseq, len := n }
  let pkt := Hdr.packet h none none (bytesOf n r.total.toNat)
  let mem := fun (m : CombineMember) =>
    let g : Hdr := { h with src := m.key.src, rty := false, que := m.key.que.toNat, tag := m.key.tag.toNat, tseq := m.key.tseq }
    (Hdr.packet g none none [], m.pre)
  let u : Update := { isAdd := true, head := pkt, tseq := r.tseq, total := r.total, members := r.members.map mem,
                      closed := true, awaiting := 1 }
  emit (s.mapSw (fun w => { w with sentUpd := w.sentUpd ++ [(512 + r.entry.val, r.dst, nodeSlot r.dst, u)] }))
    (.unitSend pkt)

/-- The partner's plane is lost: its node is served here from the mirror copies (steps 4 to 6 of R472). -/
def takeOver (s : State) : State :=
  let d := s.partnerPlane
  let s := faultEvent Obj.PLANE d s
  let s := s.mapFault (fun f => { f with takeover := true, copying := false })
  let s := keepMirrored true (fun _ => true) s
  let s := (s.qd.sw.partnerRecs.foldl combineTake s).mapSw (fun w => { w with partnerRecs := [] })
  let s := settleRecords (settleMirrors (s.setPair 1))
  sendLive (s.liveWith [d] false) s

/-- The partner is lost: it is taken over from a PAIRED pair, and from an EXPOSED one the pair is lost (R475). -/
def planeLost (s : State) : State :=
  if s.pair = 0 then takeOver s
  else if s.pair = 1 ∧ !s.qd.fault.takeover then pairLost s
  else s

/-- PARTNER_POLL: what the end points report of their port controllers of the partner's plane (R470). -/
def execPartnerPoll (states : List (Option (BitVec 3))) (s : State) : Res :=
  .next (
    if s.flag F.FT_STS_PLINK ∨ !s.serving then s
    else
      let down := (states.zipIdx.filter (fun x => decide (x.2 < 144) && s.portUp x.2 &&
        (x.1 == some 0 || x.1 == some 1))).length
      s.mapFault (fun f => { f with polled := decide (72 ≤ down) }))

/-- PLANE_DECLARE: both partner ports have been down for CONFIRM (R470). -/
def execPlaneDeclare (s : State) : Res :=
  .next (if s.partnerGone ∧ s.qd.fault.polled ∧ s.serving then planeLost s else s)

/-- FENCE_STOP: the partner's stop (R471). -/
def execFenceStop (s : State) : Res := .next (if s.pair = 5 then s else fence s)

/-! ### LIVE notices (R473, R478) -/

/-- The end points whose ports are up have all sent a notice with this QD1's bit: it runs its census (R476,
R478). -/
def spareNotice (slot : Nat) (first : Bool) (s : State) : State :=
  if !first ∧ s.qd.dir.noticed.isEmpty then s
  else
    let up := (List.range 144).filter (fun n => s.portUp n)
    let whole := fun (l : List Nat) => up.all (fun n => l.contains n)
    let old := s.qd.dir.noticed
    let new := if old.contains slot then old else old ++ [slot]
    let s := s.mapDir (fun d => { d with noticed := new })
    if whole new ∧ (first ∨ !(whole old)) then
      startCensus s.qdPlane ((List.range 144).foldl (fun m i => if i % 18 = s.qdPlane then m ||| (1#144 <<< i) else m) 0) s
    else s

/-- A bit of FT_LIVE is cleared: the maps follow, and the indices that come here are rebuilt (R168). -/
def planeLeaves (d : Nat) (s : State) : State :=
  if d = s.qdPlane then fence s
  else
    let r := homeLeave d s
    startCensus d r.1 r.2

/-- With both planes of a pair out of LIVE, its shares of every collective are gone (R257, R480). The node that
the abort names is not stated (log entry 48). -/
def pairGone (old new : Word) (s : State) : State :=
  let gone := (List.range 9).any (fun j => fget new (2 * j) 2 == 0 && fget old (2 * j) 2 != 0)
  if gone then s.colls.foldl (fun s c => let d := draw 14 s; collAbort c.no d.1.toNat 0 d.2) s else s

/-- A LIVE notice of an end point. -/
def liveNotice (slot : Nat) (mask : BitVec 18) (s : State) : State :=
  let old := s.rg R.FT_LIVE &&& 0x3FFFF
  let new := wd mask.toNat
  let gone := (List.range 18).filter (fun d => bitAt old d && !(bitAt new d))
  let come := (List.range 18).filter (fun d => !(bitAt old d) && bitAt new d)
  let s := s.setFl F.FT_LIVE_LIVE mask.toNat
  let s := pairGone old new (gone.foldl (fun s d => planeLeaves d s) s)
  let s := if bitAt new s.partnerPlane then s
    else keepMirrored false (fun r => decide (r.key.src = mkNode s.qdRack slot)) s
  let s := come.foldl (fun s d => homeReturn d s) s
  let own := come.contains s.qdPlane
  let s := if own then (s.setPair 0).mapFault (fun f => { f with spare := false }) else s
  if bitAt new s.qdPlane then spareNotice slot own s else s

/-- LIVE_NOTICE. -/
def execLiveNotice (slot : Fin 144) (mask : BitVec 18) (s : State) : Res :=
  .next (if s.serving then liveNotice slot.val mask s else s)

/-! ### Exposure and resync (R475) -/

/-- The pair becomes EXPOSED. -/
def expose (s : State) : State :=
  let s := (s.setPair 1).mapFault (fun f => { f with copying := false })
  let s := (settleRecords (settleMirrors s)).mapSw (fun w => { w with partnerRecs := [] })
  if s.qd.fault.takeover then s else keepMirrored false (fun _ => true) s

/-- PAIR_EXPOSE: both partner ports have been down for MIRR_TMO. A spare that loses its survivor finds the pair
lost (R480), and a survivor that loses its spare is EXPOSED again (log entry 48). -/
def execPairExpose (s : State) : Res :=
  .next (
    if !s.partnerGone ∨ !s.serving then s
    else if s.qd.fault.spare then (if s.pair = 4 then s else pairLost s)
    else if s.pair = 0 ∨ s.pair = 2 ∨ s.pair = 3 ∨ (s.pair = 1 ∧ s.qd.fault.copying) then expose s
    else s)

/-- PARTNER_LINK_UP: both partner ports are up again, and each QD1 copies its resync set and its state. -/
def execPartnerLinkUp (s : State) : Res :=
  .next (
    if !(s.flag F.FT_STS_PLINK) ∨ s.fenced then s
    else if s.pair = 1 ∧ !s.qd.fault.takeover ∧ !s.qd.fault.copying then
      let s := s.mapFault (fun f => { f with copying := true })
      emits (copyResync s) (stateMsgs .own s)
    else if s.pair = 0 then keepMirrored false (fun _ => true) s
    else s)

/-- RESYNC_DONE: both resync sets are empty. -/
def execResyncDone (s : State) : Res :=
  .next (
    if s.pair = 1 ∧ s.qd.fault.copying ∧ s.flag F.FT_STS_PLINK then
      ((s.mapFault (fun f => { f with copying := false, resync := [] })).setFl F.FT_STS_RESYNC 0).setPair 0
    else s)

/-! ### Admission of a spare (R476, R480) -/

/-- SPARE_TEST_DONE: at the spare its tests have ended, and at the survivor loading starts. -/
def execSpareTestDone (ok : Bool) (s : State) : Res :=
  .next (
    if s.outside ∧ !s.qd.fault.tested then
      if ok then
        let s := s.mapFault (fun f => { f with tested := true })
        if s.qd.fault.spare then s.setPair 2 else s
      else faultEvent Obj.PLANE s.qdPlane s
    else if s.serving ∧ ok ∧ s.pair = 1 ∧ s.qd.fault.spareCmd ∧ s.flag F.FT_STS_PLINK then
      loadSpare (((s.setPair 2).mapFault (fun f => { f with copying := false, resync := [] })).setFl F.FT_STS_RESYNC 0)
    else s)

/-- SPARE_LOAD_DONE: the spare holds every copy. -/
def execSpareLoadDone (s : State) : Res :=
  .next (if s.pair = 2 ∧ !s.qd.fault.spare then (s.setPair 3).setFl F.FT_ADMIT_SEEN_SEEN 0 else s)

/-- Contexts of FT_ADMIT, eight fields; 0x0000 is unused. -/
def State.admitCtx (s : State) (i : Nat) : Nat := fget (s.rg (R.FT_ADMIT (i / 4))) (16 * (i % 4)) 16

/-- Every context of FT_ADMIT has posted a BOUNDARY. -/
def State.admitAll (s : State) : Bool :=
  (List.range 8).all (fun i => s.admitCtx i == 0 || bitAt (s.rg R.FT_ADMIT_SEEN) i)

/-- What the survivor served for the lost node goes over to the spare. -/
def handOver (s : State) : State :=
  let s := emits s (stateMsgs .own s ++ stateMsgs .mir s)
  let d := s.partnerPlane
  let s := s.mapGreen (fun g => { g with colls := g.colls.filter (fun c => c.plane != d) })
  let s := s.mapRings (fun r => { r with qs := r.qs.map (fun x =>
    if x.1 < 4096 then x
    else (x.1, { ({ pi := x.2.pi, ci := x.2.ci, fp := x.2.ci, redo := x.2.pend ++ x.2.redo } : SQ) with rerr := x.2.rerr })) })
  s.mapFault (fun f => { f with takeover := false, spareCmd := false })

/-- The survivor admits the spare (step 6 of R476). -/
def admitSpare (s : State) : State :=
  let d := s.partnerPlane
  sendLive (s.liveWith [d, s.qdPlane] true) ((handOver s).setPair 0)

/-- SPARE_ADMIT: every listed context has posted BOUNDARY. -/
def execSpareAdmit (s : State) : Res := .next (if s.pair = 3 ∧ s.admitAll then admitSpare s else s)

/-- BOUNDARY: the step is marked in the journal, and while the QD1 is READY its context is seen (R479). -/
def execBoundary (q : Fin 4096) (ridx : BitVec 32) (s : State) : Res :=
  .next (
    match s.ready q.val ridx Ty.STEP 1 with
    | none => s
    | some (k, d) =>
      let ctx := (s.bind k).qctx
      let s := s.journal Lg.MARK ctx 0x0F 0 (bytesOf 4 2 ++ bytesOf 4 (fget (d.w 5) 0 32) ++ bytesOf 8 0)
      let s := if s.pair = 3 then
          s.setFl F.FT_ADMIT_SEEN_SEEN ((List.range 8).foldl (fun n i =>
            if s.admitCtx i ≠ 0 ∧ s.admitCtx i = ctx.toNat ∧ !(bitAt (wd n) i) then n + 2 ^ i else n)
            (s.fl F.FT_ADMIT_SEEN_SEEN))
        else s
      descEnd k ridx St.OK s)

/-! ### End points (R481) -/

/-- The end point of a slot is lost. -/
def loseEp (slot : Nat) (s : State) : State :=
  let o := R.FT_EPLOST (slot / 64)
  let s := faultEvent Obj.EP slot (s.setRg o (s.rg o ||| (1#64 <<< (slot % 64))))
  let p := PortSel.qd (Fin.ofNat 160 slot)
  let s := if s.inService p ∨ (s.pst p = 1 ∧ s.pstep p = 7) then portReset p s else s
  let s := keepMirrored false (fun r => decide (r.key.src = mkNode s.qdRack slot)) s
  memberLost slot s

def State.epLost (s : State) (slot : Nat) : Bool := bitAt (s.rg (R.FT_EPLOST (slot / 64))) (slot % 64)

/-- END_POINT_DECLARE: the port has been down for 10 µs here and at the partner, or for 20 ms while the pair is
not PAIRED. -/
def execEndPointDeclare (slot : Fin 144) (s : State) : Res :=
  .next (
    if s.serving ∧ !(s.epLost slot.val) ∧ !(s.portUp slot.val) ∧
        (s.pair ≠ 0 ∨ s.qd.fault.farDown.getLsbD slot.val) then loseEp slot.val s
    else s)

/-- PORT_VECTOR_EXCHANGE: the partner's port-down vector comes, and this QD1's goes. -/
def execPortVectorExchange (down : BitVec 144) (s : State) : Res :=
  .next (
    if !(s.flag F.FT_STS_PLINK) ∨ s.fenced then s
    else
      let w := fun (k : Nat) => (List.range (min 64 (144 - 64 * k))).foldl (fun (m : Word) i =>
        if s.portUp (64 * k + i) then m else m ||| (1#64 <<< i)) 0
      emit (s.mapFault (fun f => { f with farDown := down })) (.partner 3 [w 0, w 1, w 2]))

/-! ### FT_CMD (R490) -/

/-- DECLARE: the partner's plane; a partner that can be reached is stopped first (R471). -/
def ftDeclare (idx : Nat) (s : State) : Option State :=
  if idx = s.partnerPlane ∧ (s.pair = 0 ∨ (s.pair = 1 ∧ !s.qd.fault.takeover)) then
    some (planeLost (if s.flag F.FT_STS_PLINK then emit s (.partner 2 []) else s))
  else none

/-- PAIRLOST: steps 6 to 8 of R472 for both planes of a lost pair (R480). -/
def ftPairlost (idx : Nat) (s : State) : Option State :=
  if 9 ≤ idx ∨ (idx = s.qdPlane / 2 ∧ s.pair ≠ 4) then none
  else some (sendLive (s.liveWith [2 * idx, 2 * idx + 1] false) (faultEvent Obj.PAIR idx s))

/-- SPARE: an EXPOSED survivor serves images to a spare (R515). -/
def ftSpare (idx : Nat) (s : State) : Option State :=
  if idx = s.partnerPlane ∧ s.pair = 1 then some (s.mapFault (fun f => { f with spareCmd := true })) else none

/-- ADMIT: a READY spare without waiting, or a pair that was lost and returns. -/
def ftAdmit (idx : Nat) (s : State) : Option State :=
  if s.pair = 3 ∧ idx = s.partnerPlane then some (admitSpare s)
  else if s.outside ∧ s.qd.fault.tested ∧ !s.qd.fault.spare ∧ s.flag F.FT_STS_PLINK ∧ idx / 2 = s.qdPlane / 2 then
    some (sendLive (s.liveWith [s.partnerPlane, s.qdPlane] true) (s.setPair 0))
  else none

/-- READMIT: the port of a declared end point leaves T6. -/
def ftReadmit (idx : Nat) (s : State) : Option State :=
  if idx < 144 ∧ s.epLost idx then
    let o := R.FT_EPLOST (idx / 64)
    let s := s.setRg o (s.rg o &&& ~~~ (1#64 <<< (idx % 64)))
    let p := PortSel.qd (Fin.ofNat 160 idx)
    some (if s.pst p = 6 then (s.setPst p 1).setPstep p 6 else s)
  else none

/-- ABORTLOAD: a LOADING or READY pair is EXPOSED again, and the spare's copy is discarded. -/
def ftAbortload (idx : Nat) (s : State) : Option State :=
  if idx = s.partnerPlane ∧ (s.pair = 2 ∨ s.pair = 3) ∧ !s.qd.fault.spare then
    some (expose (emit (s.mapFault (fun f => { f with spareCmd := false })) (.partner 4 [])))
  else none

/-- EPLOST: an end point is declared lost at once. -/
def ftEplost (idx : Nat) (s : State) : Option State :=
  if idx < 144 ∧ !(s.epLost idx) then some (loseEp idx s) else none

/-- Perform a command of FT_CMD. One that does not suit leaves ERR_DESC in FT_CMD_STS; one written before the
QD1 serves, or after it has been fenced, suits no state. -/
def ftCmd (f : Nat → State → Option State) (idx : Nat) (ans : BitVec 7 → List Out) (s : State) : State :=
  match (if s.serving then f idx s else none) with
  | some t => emits (t.setFl F.FT_CMD_STS_STATUS 0) (ans St.OK)
  | none => emits (s.setFl F.FT_CMD_STS_STATUS St.DESC.toNat) (ans St.OK)

/-- The command of an OP; other codes are reserved. -/
def ftOp (op : Nat) : Nat → State → Option State :=
  match op with
  | 0 => ftDeclare
  | 1 => ftPairlost
  | 2 => ftSpare
  | 3 => ftAdmit
  | 4 => ftReadmit
  | 5 => ftAbortload
  | 6 => ftEplost
  | _ => fun _ _ => none

/-- A write of FT_CMD. -/
def ftCmdWrite (v : Word) (ans : BitVec 7 → List Out) (s : State) : State := ftCmd (ftOp (fget v 0 4)) (fget v 4 8) ans s

/-- DECLARE. -/
def execDeclare (l : RslLink) (index : Byte) (s : State) : Res :=
  .next (ftCmd ftDeclare index.toNat (regAns (rslSrc l)) s)
/-- PAIRLOST. -/
def execPairlost (l : RslLink) (index : Byte) (s : State) : Res :=
  .next (ftCmd ftPairlost index.toNat (regAns (rslSrc l)) s)
/-- SPARE. -/
def execSpare (l : RslLink) (index : Byte) (s : State) : Res :=
  .next (ftCmd ftSpare index.toNat (regAns (rslSrc l)) s)
/-- ADMIT. -/
def execFtAdmit (l : RslLink) (index : Byte) (s : State) : Res :=
  .next (ftCmd ftAdmit index.toNat (regAns (rslSrc l)) s)
/-- READMIT. -/
def execReadmit (l : RslLink) (index : Byte) (s : State) : Res :=
  .next (ftCmd ftReadmit index.toNat (regAns (rslSrc l)) s)
/-- ABORTLOAD. -/
def execAbortload (l : RslLink) (index : Byte) (s : State) : Res :=
  .next (ftCmd ftAbortload index.toNat (regAns (rslSrc l)) s)
/-- EPLOST. -/
def execEplost (l : RslLink) (index : Byte) (s : State) : Res :=
  .next (ftCmd ftEplost index.toNat (regAns (rslSrc l)) s)

/-! ### The Granary patrol (R482-R485) -/

/-- The patrol finds a word that fails ECC; which stack holds it is a free value (log entry 46). A frame with
CE_RETIRE corrected words within 24 h is moved. An uncorrectable word of a mirrored page is rewritten from the
partner's copy while the pair is PAIRED, and stays uncorrectable otherwise. -/
def execGranaryScrub (f : EccFinding) (s : State) : Res :=
  .next (
    let word := f.addr / 8 * 8
    let frame := f.addr / 65536
    if granarySize s.qd.variant ≤ f.addr then s
    else
      let d := draw 3 s
      let k := d.1.toNat % stacksOf s.qd.variant
      let s := d.2.event (Rg.hbm k) { cat := Cat.INTEGRITY, obj := Obj.HBM, status := if f.correctable then 0 else St.DATA,
                                      arg0 := wd word, arg1 := f.found }
      if f.correctable then
        let now := s.qd.aon.ns.toNat
        let l := (Tbl.at s.qd.fault.corrected frame).filter (fun t => decide (now < t + 86400000000000)) ++ [now]
        let s := (s.score 3 k 1).mapFault (fun x => { x with corrected := Tbl.put x.corrected frame l })
        if s.fl F.FT_CTL_CE_RETIRE ≤ l.length then s.retireFrame word else s
      else
        let s := (s.score 3 k 512).retireFrame word
        if s.pair = 0 ∧ (mirFrames .own s).contains frame then
          s.mapHbm .own (fun h => { h with bad := h.bad.filter (fun w => w != word) })
        else if s.qd.hbm.bad.contains word then s
        else s.mapHbm .own (fun h => { h with bad := h.bad ++ [word] }))

end Sys2Proof.Machine
end

