-- ==== Sys2Proof/Machine/Fetch.lean ====
section
/-! DEFINITION. Descriptor fetches that return: the checks of R99 and the start of descriptors. -/

namespace Sys2Proof.Machine

/-! ### The form of a descriptor (check 4 of R99) -/

/-- Opcodes of a type other than NOP (R230, R288, R334, R343, R348, R445, R479). -/
def opcDefined (ty o : Nat) : Bool :=
  match ty with
  | 1 => greenListed o
  | 2 => decide (1 ≤ o) && decide (o ≤ 7)
  | 3 => o == 1
  | 4 => decide (1 ≤ o) && decide (o ≤ 3)
  | 5 => decide (1 ≤ o) && decide (o ≤ 5)
  | 6 => decide (1 ≤ o) && decide (o ≤ 4)
  | 7 => o == 1
  | _ => false

/-- A buffer of the owner's node at a multiple of 64. -/
def ownBuf (owner : BitVec 14) (a : Word) : Bool := decide (faNode a = owner) && faOff a % 64 == 0

/-- Conditions on a KVPG descriptor, each with the word that breaks it (R334). -/
def kvRules (owner : BitVec 14) (w : List Word) : List (Nat × Bool) :=
  let o := Gd.opc w
  let d := Gd.word w 7
  let two := o == 4 || o == 5
  [(0, Gd.ext w == if two then 1 else 0), (1, if o = 1 ∨ o = 2 ∨ o = 7 then Gd.len w == 0 else true)] ++
  (if o = 1 then
    [(5, (Gd.word w 5).toNat % 65536 == 0), (6, (Gd.word w 6).toNat % 65536 == 0),
     (7, fget d 14 2 == 0 && fget d 58 6 == 0)]
   else if two then
    [(5, ownBuf owner (Gd.word w 5)), (6, ownBuf owner (Gd.word w 6) && faWin (Gd.word w 6) == faWin (Gd.word w 5)),
     (7, fget d 46 18 == 0), (9, fget (Gd.word w 9) 32 32 == 0)] ++
    (List.range 6).map (fun i => (10 + i, decide (Gd.word w (10 + i) = 0)))
   else
    [(5, decide (Gd.word w 5 = 0)), (6, decide (Gd.word w 6 = 0)),
     (7, if o = 2 then decide (d &&& ~~~ 0xFF0000 = 0) else fget d 24 40 == 0)])

/-- Conditions on a PART that its fields alone decide (R343). -/
def partRules (w : List Word) : List (Nat × Bool) :=
  [(0, Gd.ext w == 1), (7, fget (Gd.word w 7) 46 18 == 0), (10, fget (Gd.word w 10) 24 40 == 0)] ++
  (List.range 5).map (fun i => (11 + i, decide (Gd.word w (11 + i) = 0)))

/-- Conditions on an OPTS LOAD or SAVE (R351). -/
def loadRules (owner : BitVec 14) (w : List Word) : List (Nat × Bool) :=
  let own := fun (a : Word) => decide (a = 0) || (decide (faNode a = owner) && faWin a == faWin (Gd.word w 5))
  [(0, Gd.ext w == 1), (1, decide (1 ≤ Gd.len w)), (5, decide (faNode (Gd.word w 5) = owner)), (6, own (Gd.word w 6)),
   (7, fget (Gd.word w 7) 46 18 == 0), (9, own (Gd.word w 9)), (10, (Gd.word w 10).toNat % 65536 == 0),
   (11, fget (Gd.word w 11) 16 48 == 0)] ++
  (List.range 4).map (fun i => (12 + i, decide (Gd.word w (12 + i) = 0)))

/-- Conditions on an ALLOT descriptor (R288). -/
def allotRules (s : State) (k : Nat) (w : List Word) : List (Nat × Bool) :=
  let o := Gd.opc w
  let z := fun (i lo : Nat) => fget (Gd.word w i) lo (64 - lo) == 0
  let img := Gd.word w 5
  [(0, Gd.ext w == 0),
   (1, if o = 2 then Gd.len w % 64 == 0 && decide (Gd.len w ≤ 2097152) else Gd.len w == 0),
   (5, match o with
     | 1 => z 5 26
     | 2 => (decide (faNode img = s.qNode k) && decide (faWin img < 48)) || decide (faNode img = (s.bind k).owner)
     | 3 => true
     | _ => z 5 0),
   (6, match o with
     | 1 => z 6 16
     | 2 => z 6 9
     | 3 => z 6 21 && fget (Gd.word w 6) 0 2 == 0
     | _ => z 6 0),
   (7, if o = 1 then z 7 0 else z 7 6)]

/-- Conditions on a CUST descriptor (R445). -/
def custRules (owner : BitVec 14) (w : List Word) : List (Nat × Bool) :=
  let o := Gd.opc w
  let z := fun (i lo : Nat) => fget (Gd.word w i) lo (64 - lo) == 0
  [(0, Gd.ext w == 0),
   (1, match o with
     | 1 => Gd.len w == 18304
     | 2 => decide (1728 ≤ Gd.len w) && decide (Gd.len w ≤ 1728 + 32 * 144) && Gd.len w % 32 == 0
     | 3 => Gd.len w == 0
     | _ => true),
   (5, if o = 3 then z 5 0 else ownBuf owner (Gd.word w 5)),
   (6, if o = 1 then ownBuf owner (Gd.word w 6) && faWin (Gd.word w 6) == faWin (Gd.word w 5) else z 6 0),
   (7, match o with
     | 3 => z 7 6
     | 4 => z 7 14
     | _ => z 7 8)]

/-- Conditions on a BOUNDARY (R479). -/
def boundaryRules (w : List Word) : List (Nat × Bool) :=
  [(0, Gd.ext w == 0), (1, Gd.len w == 0), (5, fget (Gd.word w 5) 32 32 == 0), (6, decide (Gd.word w 6 = 0)),
   (7, decide (Gd.word w 7 = 0))]

/-- Conditions on every descriptor (R92, R93). -/
def headRules (w : List Word) (ty : Nat) : List (Nat × Bool) :=
  [(0, fget (Gd.word w 0) 8 8 == ty && fget (Gd.word w 0) 20 12 == 0 && (Gd.opc w == 0 || opcDefined ty (Gd.opc w))),
   (2, fget (Gd.word w 2) 40 24 == 0 && (decide (Gd.sig w ≠ 0) || fget (Gd.word w 2) 32 8 == 0)),
   (4, (Gd.sig w).toNat % 16 == 0)] ++
  (List.range (Gd.ext w)).map (fun e => (8 * (e + 1), fget (Gd.word w (8 * (e + 1))) 32 32 == 0))

/-- The least word of those that break a condition. -/
def firstWord (l : List (Nat × Bool)) : Option Nat :=
  (l.filter (fun r => !r.2)).foldl (fun m r => match m with
    | none => some r.1
    | some x => some (min x r.1)) none

/-- The first offending word of a descriptor of a queue. -/
def descForm (s : State) (k : Nat) (w : List Word) : Option Nat :=
  let ty := (s.bind k).qtype
  let owner := (s.bind k).owner
  let seed := (s.seedNow k (s.bind k).qctx).isSome
  let own : Option Nat :=
    if Gd.opc w = 0 then
      firstWord [(0, Gd.ext w == 0), (1, Gd.len w == 0), (4, decide (Gd.sig w = 0))]
    else match ty with
      | 1 => greenForm s k seed w
      | 2 => firstWord (kvRules owner w)
      | 3 => firstWord (partRules w)
      | 4 => if Gd.opc w = 2 then stepForm s k seed w else firstWord (loadRules owner w)
      | 5 => firstWord (allotRules s k w)
      | 6 => firstWord (custRules owner w)
      | _ => firstWord (boundaryRules w)
  match firstWord (headRules w ty), own with
  | some a, some b => some (min a b)
  | some a, none => some a
  | none, r => r

/-! ### The checks in order (R99) -/

/-- Check 5: the unit that performs the type is present and not gated (R115, R260, R423). -/
def unitThere (s : State) (k : Nat) (w : List Word) : Bool :=
  let ty := (s.bind k).qtype
  let five := decide (s.qd.variant = .qd15)
  if Gd.opc w = 0 then true
  else if ty = Ty.GREEN then
    s.flag F.CLK_ENABLE_GREEN && !(five && (Gd.expert w || decide (2 ≤ Gd.nrack w)))
  else if 2 ≤ ty ∧ ty ≤ 5 then !five && s.flag F.CLK_ENABLE_GRID && (ty != Ty.OPTS || s.flag F.CLK_ENABLE_GREEN || Gd.opc w != 2)
  else true

/-- The first of checks 2 to 5 that a descriptor fails: status and RESULT. -/
def descCheck (s : State) (k : Nat) (d : Desc) : Option (BitVec 7 × Option Word) :=
  let w := d.words
  let idx := fun (e : Nat) => fget (Gd.word w (if e = 0 then 2 else 8 * e)) 0 32 == (d.ridx + BitVec.ofNat 32 e).toNat
  if !((List.range (Gd.ext w + 1)).all idx) then some (St.STALE, none)
  else if fget (Gd.word w 0) 32 32 + fget (Gd.word w 0) 0 32 ≠ 2 ^ 32 - 1 ∨
      fget (Gd.word w 1) 32 32 + fget (Gd.word w 1) 0 32 ≠ 2 ^ 32 - 1 then some (St.COMPL, none)
  else match descForm s k w with
    | some i => some (St.DESC, some (wd i))
    | none => if unitThere s k w then none else some (St.ABSENT, none)

/-- A descriptor whose entries have all come is checked, journalled and started, or held by BARRIER. -/
def descBegin (k : Nat) (ridx : BitVec 32) (s : State) : State :=
  match s.desc? k ridx with
  | none => s
  | some d =>
    match descCheck s k d with
    | some (st, some r) => descDone k ridx st r s
    | some (st, none) => descEnd k ridx st s
    | none =>
      let ctx := (s.bind k).qctx
      let s := if (s.bind k).qtype = Ty.CUST then s
        else s.journal Lg.DESC ctx 0x0E 0 (bytesOf 2 (k % 4096) ++ bytesOf 1 d.ext ++ [0] ++ bytesOf 4 ridx.toNat ++
          List.replicate 8 0 ++ d.words.flatMap wordBytes)
      let aux := if (s.bind k).qtype = Ty.GREEN ∨ (s.bind k).qtype = Ty.OPTS then [(s.seedNow k ctx).getD 0] else []
      s.mapDesc k ridx (fun d => { d with stage := if d.barrier then 1 else 2, aux := aux })

/-- A new head: its descriptor joins the queue. -/
def addDesc (k : Nat) (d : Desc) (s : State) : State :=
  (s.mapSq k (fun q => { q with descs := q.descs ++ [{ d with no := s.qd.rings.fetchNo }] })).mapRings
    (fun r => { r with fetchNo := r.fetchNo + 1 })

/-- The descriptor of a queue that waits for extensions. -/
def State.waitsExt (s : State) (k : Nat) : Option Desc := (s.sq k).descs.find? (fun d => d.stage == 0)

/-- One entry that a fetch has brought. -/
def takeEntry (k : Nat) (inherited : Bool) (x : BitVec 32 × List Word) (s : State) : State :=
  match s.waitsExt k with
  | some d =>
    let s := s.mapDesc k d.ridx (fun d => { d with words := d.words ++ x.2 })
    if 8 * (d.ext + 1) ≤ d.words.length + 8 then descBegin k d.ridx s else s
  | none =>
    let d : Desc := { ridx := x.1, words := x.2, stage := 0, inherited := inherited }
    let s := addDesc k d s
    if d.ext = 0 then descBegin k x.1 s else s

/-- Check 1 failed: a descriptor that waits for extensions completes with the status, and every other entry is
the head of a descriptor of its own. -/
def failEntries (k : Nat) (st : BitVec 7) (fa : Word) (xs : List (BitVec 32)) (s : State) : State :=
  let w := s.waitsExt k
  let need := match w with
    | some d => d.ext + 1 - d.words.length / 8
    | none => 0
  let s := match w with
    | some d => descDone k d.ridx st fa s
    | none => s
  (xs.drop need).foldl (fun s x =>
    descDone k x st fa (addDesc k { ridx := x, words := [], stage := 1 } s)) s

/-- The fetch of the rest of a single descriptor's entries goes before later fetches. -/
def fetchRest (k : Nat) (f : FetchRun) (s : State) : State :=
  let s := sendFetch k f s
  s.mapSq k (fun q => { q with fetching := [f] ++ q.fetching.take (q.fetching.length - 1) })

/-- Entries of the ring that a fetch covers. -/
def FetchRun.entries (f : FetchRun) : List (BitVec 32) := (List.range f.n).map (fun i => f.ridx + BitVec.ofNat 32 i)

/-- Take up a fetch that has returned, the oldest of its queue. -/
def fetchTake (k : Nat) (f : FetchRun) (st : BitVec 7) (d : List Byte) (s : State) : State :=
  let e := s.bind k
  let fa := e.ring + wd (f.ridx.toNat % e.ringN * 64)
  let xs := f.entries
  let ws := xs.mapIdx (fun i x => (x, wordsOf 8 (slice d (64 * i) 64)))
  if st ≠ St.OK ∧ st ≠ St.DATA ∧ st ≠ St.CHECK then queueFail k st s
  else if f.single then
    if st ≠ St.OK then
      (match s.waitsExt k with
       | some x => descDone k x.ridx st fa s
       | none => descDone k f.ridx st fa (addDesc k { ridx := f.ridx, words := [], stage := 1 } s))
    else
      let need := match s.waitsExt k with
        | some x => x.ext + 1 - x.words.length / 8
        | none => fget ((((ws.head?.map (·.2)).getD []).getD 0 0)) 16 2 + 1
      let s := (ws.take need).foldl (fun s x => takeEntry k f.inherited x s) s
      if need ≤ f.n then s
      else
        let nx := f.ridx + BitVec.ofNat 32 f.n
        fetchRest k { f with ridx := nx, n := min (need - f.n) (4 - nx.toNat % 4) } s
  else
    let s := if st ≠ St.OK then failEntries k st fa xs s else ws.foldl (fun s x => takeEntry k false x s) s
    mirrorQueue k (s.mapSq k (fun q => { q with ci := f.ridx + BitVec.ofNat 32 f.n, statusDue := true }))

/-- Take up the returned fetches of a queue, in the order in which they were sent. -/
def fetchPump (k : Nat) : Nat → State → State
  | 0, s => s
  | n + 1, s =>
    match (s.sq k).fetching with
    | f :: rest => match f.back with
      | some (st, d) => fetchPump k n (fetchTake k f st d (s.mapSq k (fun q => { q with fetching := rest })))
      | none => s
    | [] => s

/-- The answer to a fetch. -/
def fetchDone (o : OutReq) (s : State) : State :=
  match o.purpose with
  | .unit _ k ridx _ =>
    let r := BitVec.ofNat 32 ridx
    let s := s.mapSq k (fun q => { q with fetching := q.fetching.map (fun f =>
      if f.ridx = r ∧ f.back.isNone then { f with back := some (o.st, o.bytes (64 * f.n)) } else f) })
    fetchPump k (s.sq k).fetching.length s
  | _ => s

/-- DESCRIPTOR_FETCH_RETURN: a response to a descriptor fetch. -/
def execDescriptorFetchReturn (p : Packet) (s : State) : Res :=
  .next (
    if !p.rsp ∨ s.fenced then s
    else match s.reqOf .qd p.que.toNat p.tag.toNat p.tseq with
      | none => s
      | some o => match o.purpose with
        | .unit u _ _ _ => if u = Un.FETCH ∧ p.opc = Opc.LD then
            (if p.complOk then unitResponse fetchDone o p s else pktEvent .unit St.COMPL p s) else s
        | _ => s)

end Sys2Proof.Machine
end

