-- ==== Sys2Proof/Machine/Trace.lean ====
section
/-! DEFINITION. The trace's commands (R496-R499), replay (R506) and the health scores (R488, R489). -/

namespace Sys2Proof.Machine

/-! ### Triggers (R496-R499) -/

/-- A hang trigger of an event in a ring. Where the event's category makes it an error trigger too, the error
trigger comes first (R499). -/
def hangTrigger (ring : Nat) (e : Ev) (s : State) : State :=
  if bitAt (s.rg R.TR_CTL) (44 + e.cat) then (s.event ring e).countSat F.TR_STS_TRIG2
  else if s.fl F.TR_STS_STATE = 0 then
    ((s.openTrigger 2).record ring e true).record Rg.trace { cat := Cat.TRIGGER, arg1 := 2 } true
  else (s.record ring e false).countSat F.TR_STS_TRIG2

/-- HANG_TIMEOUT: a wait that has lasted HANG_TMO is recorded open, and its event may be a hang trigger. -/
def execHangTimeout (w : WaitInfo) (s : State) : Res :=
  .next (
    if w.dur.toNat < s.fl F.TR_CTL_HANG_TMO * 10000 then s
    else
      let x : SyncWait := { kind := w.kind.toNat, start := w.start, wclass := w.wclass.toNat, windex := w.windex.toNat,
                            wsub := w.wsub.toNat, ctx := w.ctx, node := w.node, q := w.q.toNat, obj := w.obj.toNat }
      let s := s.toRegion (x.record true w.dur.toNat)
      let e : Ev := { cat := Cat.TIMEOUT, obj := Obj.WAIT, ctx := w.ctx, arg0 := wd w.obj.toNat, arg1 := wd w.dur.toNat }
      if s.flag F.TR_CTL_HANG_EN then hangTrigger w.ring.val e s else s.event w.ring.val e)

/-- TR_CMD ARM: rings unfreeze and the regions restart empty. -/
def trArm (s : State) : State :=
  let s := s.mapQd (fun q => { q with trace := { q.trace with pre := [], post := [] } })
  ((((s.setFl F.TR_STS_STATE 0).setFl F.TR_STS_TRIG2 0).setFl F.TR_STS_POST_DROP 0).setRg R.TR_PRE_WR 0)

/-- ARM. -/
def execArm (src : RegSrc) (s : State) : Res := .next (emits (trArm s) (regAns src St.OK))

/-- TRIG: a software trigger. -/
def execTrig (src : RegSrc) (s : State) : Res := .next (emits (s.trigger 0) (regAns src St.OK))

/-- POST_TIMEOUT: POST_TMO after the trigger every open ring freezes and the fill closes. -/
def execPostTimeout (s : State) : Res :=
  .next (if s.fl F.TR_STS_STATE = 1 then s.setFl F.TR_STS_STATE 2 else s)

/-! ### Replay (R506) -/

/-- The records of a segment from its first byte on, each with its number. -/
def lgRecords : Nat → Nat → List Byte → List (Nat × List Byte)
  | 0, _, _ => []
  | n + 1, no, b =>
    let len := 16 * fget (wordAt b 8) 8 12
    if len = 0 ∨ b.length < len then []
    else (no, b.take len) :: lgRecords n (no + 1) (b.drop len)

/-- A segment as it stands in the Ledger region. -/
def State.lgSeg (s : State) (n : Nat) : List Byte := Tbl.at s.qd.trace.ledger.segs (n % max 1 s.lgSegs)

/-- A segment that may be replayed: its number, its CRC, no GAP but in the first, and this QD1's plane, variant
and M_FW. -/
def lgSegOk (s : State) (from_ n : Nat) : Bool :=
  let b := s.lgSeg n
  b.length == 65536 && natOf (slice b 0 4) == 0x47444C51 && natOf (slice b 4 4) == n % 2 ^ 32 &&
  natOf (slice b 28 4) == (crc32c (b.drop 32)).toNat && (n == from_ || (b.getD 48 0).toNat % 2 == 0) &&
  natOf (slice b 26 1) == s.qdPlane && natOf (slice b 27 1) == variantNo s.qd.variant &&
  slice b 32 16 == slice s.qd.boot.mfw 0 16

/-- The records of segments. -/
def replayRecords (s : State) (a b : Nat) : List (Nat × List Byte) :=
  (List.range (b + 1 - a)).flatMap (fun i =>
    let g := s.lgSeg (a + i)
    lgRecords 4096 (natOf (slice g 8 8)) (g.drop 64))

def recType (r : Nat × List Byte) : Nat := natOf (slice r.2 8 1)
def recCtx (r : Nat × List Byte) : Nat := fget (wordAt r.2 8) 20 16
def recBody (r : Nat × List Byte) : List Byte := r.2.drop 16

/-- A queue is bound for a DESC record: STATE 1, and its TYPE and CTX. -/
def replayQueueOk (s : State) (r : Nat × List Byte) : Bool :=
  let e := s.bind (natOf (slice (recBody r) 0 2) % 4096)
  e.qstate == 1 && e.qtype == fget (wordAt (recBody r) 16) 8 8 && e.qctx.toNat == recCtx r

/-- The conditions under which a replay starts. -/
def replayOk (s : State) (a b : Nat) : Bool :=
  let rs := replayRecords s a b
  let frz := fun (i : Nat) => bitAt (s.rg R.LOOP_CTL) (2 * i + 1)
  decide (a ≤ b) && (List.range (b + 1 - a)).all (fun i => lgSegOk s a (a + i)) &&
  (List.range 64).all (fun i => s.fl (F.ALLOT_STS_W0_STATE i) == 0 || s.flag (F.ALLOT_STS_W0_RES i)) &&
  (rs.filter (fun r => recType r == Lg.DESC)).all (replayQueueOk s) &&
  s.qd.rings.qs.all (fun x => (x.2.descs.isEmpty && x.2.fetching.isEmpty) || (s.bind x.1).qtype == Ty.CUST) &&
  frz 1 && frz 2 && frz 3 && s.flag F.DVFS_CTL_FORCE &&
  s.inBand && decide (s.qd.clk.offBand + 1000000000 ≤ s.qd.aon.ns.toNat)

/-- LG_CMD REPLAY. -/
def lgReplay (v : Word) (ans : BitVec 7 → List Out) (s : State) : State :=
  let a := fget v 2 32
  let b := s.qd.trace.ledger.upTo
  if s.replaying ∨ !(replayOk s a b) then emits (s.refused Rg.trace R.LG_CMD v) (ans St.PERM)
  else
    let rs := replayRecords s a b
    let of := fun (ts : List Nat) => rs.filter (fun r => ts.contains (recType r))
    let s := s.mapLedger (fun l => { l with
      todo := of [Lg.DESC, Lg.MSG], expect := of [Lg.INDIG, Lg.WATCH], places := of [Lg.PLACE] })
    emits ((s.setRg R.LG_RSTS (wd (1 + 4))).setRg R.LG_RFIRST 0) (ans St.OK)

/-- REPLAY. -/
def execReplay (src : RegSrc) (v : Word) (s : State) : Res := .next (lgReplay v (regAns src) s)

/-- LG_CMD ABORT: a running replay stops. -/
def lgAbort (ans : BitVec 7 → List Out) (s : State) : State :=
  emits (if s.replaying then s.replayEnd 3 else s) (ans St.OK)

/-- LEDGER_ABORT. -/
def execLedgerAbort (src : RegSrc) (_v : Word) (s : State) : Res := .next (lgAbort (regAns src) s)

/-- Perform a DESC record as if it had been fetched at its RIDX. -/
def replayDesc (b : List Byte) (s : State) : State :=
  let k := natOf (slice b 0 2) % 4096
  let ridx := BitVec.ofNat 32 (natOf (slice b 4 4))
  let n := natOf (slice b 2 1) % 4 + 1
  descBegin k ridx (addDesc k { ridx := ridx, words := wordsOf (8 * n) (b.drop 16), replay := true } s)

/-- Deliver a MSG record. -/
def replayMsg (b : List Byte) (s : State) : State :=
  enqueueMsg (natOf (slice b 0 2) % 256) (natOf (slice b 2 1))
    { fabric := true, src := natOf (slice b 4 2), que := natOf (slice b 6 2)
      data := slice b 16 (natOf (slice b 8 2)) } s

/-- REPLAY_RECORD: the next DESC or MSG record is performed; the reads and watched items that follow from it are
compared as they come. With none left and none running the replay is done. -/
def execReplayRecord (s : State) : Res :=
  .next (
    if !s.replaying then s
    else match s.qd.trace.ledger.todo with
      | r :: rest =>
        let s := s.mapLedger (fun l => { l with todo := rest })
        if recType r = Lg.DESC then replayDesc (recBody r) s else replayMsg (recBody r) s
      | [] =>
        if s.qd.rings.qs.any (fun x => x.2.descs.any (fun d => d.replay)) then s else s.replayEnd 2)

/-! ### Health scores (R488, R489) -/

/-- The rise of a counter since it was last read, modulo its width, and the value now read. -/
def healthRise (f : Fld) (s : State) : Nat × State :=
  let key := f.off * 64 + f.lo
  let now := s.fl f
  let d := (now + 2 ^ f.wd - Tbl.at s.qd.health.last key) % 2 ^ f.wd
  (d, s.mapQd (fun q => { q with health := { q.health with last := Tbl.put q.health.last key now } }))

/-- Count the rise of a counter for a part with a weight. -/
def healthCount (cls idx weight : Nat) (f : Fld) (s : State) : State :=
  let r := healthRise f s
  if r.1 = 0 then r.2 else r.2.score cls idx (r.1 * weight)

/-- Count the rise of a counter for a part, one for each `per`, the rest being carried. -/
def healthPer (cls idx per : Nat) (f : Fld) (s : State) : State :=
  let key := f.off * 64 + f.lo
  let now := s.fl f
  let d := (now + 2 ^ f.wd - Tbl.at s.qd.health.last key) % 2 ^ f.wd
  let car := Tbl.at s.qd.health.last (2 ^ 40 + key) + d
  let s := s.mapQd (fun q => { q with health := { q.health with
    last := Tbl.put (Tbl.put q.health.last key now) (2 ^ 40 + key) (car % per) } })
  if car < per then s else s.score cls idx (car / per)

/-- A lane that has failed since it was last looked at. -/
def healthLane (port i : Nat) (s : State) : State :=
  let f : Fld := ⟨R.LN_PORT_STS port, 6 + i, 1⟩
  let key := f.off * 64 + f.lo
  let now := s.fl f
  let was := Tbl.at s.qd.health.last key
  let s := s.mapQd (fun q => { q with health := { q.health with last := Tbl.put q.health.last key now } })
  if was < now then s.score 2 (4 * port + i) 1024 else s

/-- The counts of a port and its lanes. A port down counts while its end point is not declared lost. -/
def healthPort (n : Nat) (s : State) : State :=
  let dead := decide (n < 144) && bitAt (s.rg (R.FT_EPLOST (n / 64))) (n % 64)
  let s := healthCount 1 n 1 (F.TEL_38_RTY_RX n) (healthCount 1 n 1 (F.TEL_38_RTY_TX n) s)
  let s := healthCount 1 n 1 (F.LN_ERR00_FEC_UNC n) (healthCount 1 n 64 (F.LN_ERR10_RETRAIN n) s)
  let s := healthCount 1 n (if dead then 0 else 256) (F.LN_ERR10_DOWN n) (healthCount 1 n 1024 (F.LN_ERR10_DEGRADE n) s)
  (List.range 4).foldl (fun s i =>
    healthLane n i (healthPer 2 (4 * n + i) (2 ^ 20) ⟨R.LN_ERR08 n, 16 * i, 16⟩ s)) s

/-- A part's entry: class, index, score, count of this second and total. -/
structure HealthEnt where
  cls : Nat
  idx : Nat
  sc : Nat
  delta : Nat
  total : Nat
  deriving DecidableEq, Repr

/-- LEVEL of a score. -/
def healthLevel (n : Nat) : Nat := if n = 0 then 0 else if n < 64 then 1 else if n < 192 then 2 else 3

def HealthEnt.bytes (e : HealthEnt) : List Byte :=
  bytesOf 1 e.cls ++ [0] ++ bytesOf 2 e.idx ++ bytesOf 1 e.sc ++ bytesOf 1 (healthLevel e.sc) ++ [0, 0] ++
  bytesOf 4 (min e.delta (2 ^ 32 - 1)) ++ bytesOf 4 (min e.total (2 ^ 32 - 1))

/-- Insert before the first entry with a lower score. -/
def healthIns (e : HealthEnt) : List HealthEnt → List HealthEnt
  | [] => [e]
  | x :: t => if x.sc < e.sc then e :: x :: t else x :: healthIns e t

/-- Score every part that has counted: the entries of this second, and the state. -/
def healthScore (s : State) : List HealthEnt × State :=
  let h := s.qd.health
  let keys := (h.acc.map (·.1) ++ h.delta.map (·.1)).eraseDups
  let one := fun (k : Nat) =>
    let d := Tbl.at h.delta k
    let acc := Tbl.at h.acc k - Tbl.at h.acc k / 8 + min d (2 ^ 24)
    (k, acc, ({ cls := k / 65536, idx := k % 65536, sc := min 255 (acc / 16), delta := d,
                total := Tbl.at h.total k + d } : HealthEnt))
  let l := keys.map one
  let h' : Health := { h with
    acc := l.foldl (fun t x => Tbl.put t x.1 x.2.1) h.acc
    total := l.foldl (fun t x => Tbl.put t x.1 x.2.2.total) h.total
    delta := [] }
  (((l.map (·.2.2)).filter (fun e => e.sc ≠ 0 || e.delta ≠ 0)).foldl (fun t e => healthIns e t) [],
   s.mapQd (fun q => { q with health := h' }))

/-- A key slot is active or retiring: the operator's view is coarsened (R456). -/
def State.coarseView (s : State) : Bool :=
  (s.qd.cust.keys.any (fun x => decide (x.2.st = 1) || decide (x.2.st = 2)))

/-- PWR and TJMAX as the operator sees them: coarsened values are free within their rounding (log entry 49). -/
def viewPower (s : State) : Nat × State :=
  if s.coarseView then let d := draw 9 s; (d.1.toNat * 8, d.2) else (s.fl F.DVFS_STS_PWR, s)
def viewTemp (s : State) : Nat × State :=
  if s.coarseView then let d := draw 7 s; (d.1.toNat * 2, d.2) else (s.fl F.DVFS_STS_TJMAX, s)

/-- The header of a HEALTH frame. -/
def healthHeader (s : State) (temp pwr frame frames nent evts : Nat) : List Byte :=
  wordBytes s.stamp ++ bytesOf 2 s.qdNode.toNat ++ bytesOf 1 s.qdPlane ++ bytesOf 1 s.pair ++
  bytesOf 1 (s.fl F.CLK_STS_HOLD + 2 * s.fl F.CUST_STS_APPROVED + 4 * s.fl F.DVFS_STS_THR + 8 * s.fl F.DVFS_CTL_FORCE) ++
  bytesOf 1 temp ++ bytesOf 1 (s.fl F.DVFS_CTL_TSET) ++ bytesOf 1 (frame % 16 + frames % 16 * 16) ++ bytesOf 2 pwr ++
  bytesOf 2 nent ++ bytesOf 4 (s.fl F.FT_LIVE_LIVE) ++ bytesOf 4 evts ++ bytesOf 4 0

/-- Payloads of the frames: up to 62 entries each, at least one frame. -/
def healthFrames (hdr : Nat → Nat → Nat → List Byte) (l : List HealthEnt) : List (List Byte) :=
  let n := max 1 ((l.length + 61) / 62)
  (List.range n).map (fun i =>
    let es := (l.drop (62 * i)).take 62
    hdr i n es.length ++ es.flatMap HealthEnt.bytes)

/-- HEALTH_SEND: the parts are scored, and the frames go out on every live link. -/
def execHealthSend (s : State) : Res :=
  .next (
    let s := (List.range 160).foldl (fun s n => healthPort n s) s
    let s := healthPer 9 0 256 F.RSL_ALIGN_VIOL_A s
    let s := healthPer 9 1 256 F.RSL_ALIGN_VIOL_B s
    let all := (s.qd.trace.rings.map (fun x => x.2.total.toNat)).foldl (· + ·) 0
    let evts := (all + 2 ^ 32 - s.qd.health.evts % 2 ^ 32) % 2 ^ 32
    let s := s.mapQd (fun q => { q with health := { q.health with evts := all } })
    let r := healthScore s
    let s := r.2
    if !(s.flag F.FT_CTL_HEALTH_EN) then s
    else
      let p := viewPower s
      let t := viewTemp p.2
      let s := t.2
      let fs := healthFrames (fun i n k => healthHeader s t.1 p.1 i n k evts) r.1
      [RslLink.a, RslLink.b].foldl (fun s l =>
        if s.flag (F.lock l) then fs.foldl (fun s f => rslSend l 0x21 f s) s else s) s)

end Sys2Proof.Machine
end

