-- ==== Sys2Proof/Machine/Registers.lean ====
section
/-! DEFINITION. Reaching the registers of window 63: what a read returns, what a write does, the checks of a
fabric request and the frames of the rack service links (R523-R539, R412, R455, R456). -/

namespace Sys2Proof.Machine

/-! ### Where an offset lies (R523, R524, R532) -/

/-- An offset of the fourteen blocks. -/
def inBlock (off : Nat) : Bool := decide (off < 14 * 2 ^ 24)

/-- An offset of the global trace aperture, which has no stated end (log entry 50). -/
def inAperture (off : Nat) : Bool := decide (2 ^ 40 ≤ off) && decide (off < 2 ^ 44)

namespace R
abbrev GRID_BASE : Nat := 0x8000000
abbrev TRACE_BASE : Nat := 0xC000000
/-- Event record `k` of ring `r`, first byte (R492). -/
abbrev EVENTS (r k : Nat) : Nat := 0xC100000 + 0x2000 * r + 32 * k
abbrev WT_READ (w : Nat) : Nat := 0x10000 + 64 * w
abbrev SQ_READ (q : Nat) : Nat := 0x100000 + 64 * q
/-- Lost-write-back ring (R167). -/
abbrev LWB (k : Nat) : Nat := 0x6020000 + 32 * k
end R

/-- The port that a register of the lanes or switch block belongs to. -/
def portOfReg (off : Nat) : Option Nat :=
  if R.LN_PORT_CTL 0 ≤ off ∧ off < R.LN_PORT_CTL 160 then some ((off - R.LN_PORT_CTL 0) / 16)
  else if R.LN_ERR00 0 ≤ off ∧ off < R.LN_ERR00 160 then some ((off - R.LN_ERR00 0) / 32)
  else if R.LN_PAT_W0 0 ≤ off ∧ off < R.LN_PAT_W0 640 then some ((off - R.LN_PAT_W0 0) / 64)
  else if R.SW_PORT_CTL 0 ≤ off ∧ off < R.SW_PORT_CTL 160 then some ((off - R.SW_PORT_CTL 0) / 8)
  else if R.TEL_00 0 ≤ off ∧ off < R.TEL_00 160 then some ((off - R.TEL_00 0) / 128)
  else none

/-- The unit behind a register is present and clocked (R4, R405, R423, R524). -/
def State.regThere (s : State) (off : Nat) : Bool :=
  match off / 2 ^ 24 with
  | 7 => s.unitOn 8 1
  | 8 => s.unitOn 0 0
  | 9 => s.unitOn 7 0
  | 12 => if 0xC000100 ≤ off ∧ off < 0xC000608 then bitAt (s.rg R.CLK_ENABLE) 3 else true
  | 13 => if R.HBM_STS 0 ≤ off ∧ off < R.HBM_STS 8 then decide ((off - R.HBM_STS 0) / 8 < stacksOf s.qd.variant) else true
  | _ => match portOfReg off with
    | some n => if 146 ≤ n then s.present (n - 146 + 32) else true
    | none => true

/-! ### Reads -/

/-- A counter word as the operator sees it while it is coarsened: a free value within its fields (R456, log
entry 49). -/
def coarseWord (m : Word) (s : State) : Word × State :=
  let d := draw 64 s
  (d.1 &&& m, d.2)

/-- The end point of a port holds an active or retiring slot (R456). -/
def State.holdsSlot (s : State) (n : Nat) : Bool :=
  s.qd.cust.keys.any (fun x => (decide (x.2.st = 1) || decide (x.2.st = 2)) && (Tbl.at s.qd.cust.holders x.1).contains n)

/-- A context that an active or retiring slot is bound to. -/
def State.ctxProtected (s : State) (c : Nat) : Bool :=
  s.qd.cust.keys.any (fun x => (decide (x.2.st = 1) || decide (x.2.st = 2)) && x.2.ctx.toNat == c)

/-- CTU_STS (R32, R34, R525). -/
def State.ctuSts (s : State) : Word :=
  (s.rg R.CTU_STS &&& 0xFFFFFFFF00000000) |||
    wd (s.pinned % 2 ^ 15 + (s.qd.node.streams.filter (fun st => st.prefetch)).length % 2 ^ 11 * 2 ^ 15)

/-- WIN_WD_STS of a node: its windows in STATE 2. -/
def State.winWdSts (s : State) (b : Bank) : Word :=
  (List.range 48).foldl (fun v w => if (s.wte b w).state = 2 ∧ (b = .own ∨ (s.wte b w).mir) then v ||| (1#64 <<< w) else v) 0

/-- SQ_STS with the queues that drain (R525). -/
def State.sqSts (s : State) : Word :=
  Machine.fset (s.rg R.SQ_STS) 19 13 (s.qd.rings.bind.filter (fun x => x.1 < 4096 && x.2.qstate == 2)).length

/-- GR_STS (R259). -/
def State.grSts (s : State) : Word :=
  wd (s.colls.length % 2 ^ 11 + (s.colls.filter (fun c => c.running)).length % 2 ^ 7 * 2 ^ 11)

/-- CLK_STS with the time in holdover (R422). -/
def State.clkSts (s : State) : Word :=
  if s.flag F.CLK_STS_HOLD then Machine.fset (s.rg R.CLK_STS) 32 32 ((s.qd.aon.ns.toNat - s.qd.aon.holdFrom) / 1000000)
  else s.rg R.CLK_STS

/-- KS_STS of a slot (R464). -/
def KeySlot.sts (k : KeySlot) : Word := k.word ||| wd (b2n k.done * 2 ^ 26 + k.missed.toNat * 2 ^ 27)

/-- RING_CTL of a ring (R491). -/
def State.ringCtl (s : State) (r : Nat) : Word :=
  let t := (Tbl.at s.qd.trace.rings r).total
  wd (t.toNat % 256 + b2n (s.ringFrozen r) * 2 ^ 8 + t.toNat * 2 ^ 16)

/-- The bit of this QD1's rack in JOB_RACKS, which always reads 1 (R525). -/
def State.ownRack (s : State) : Word := 1#64 <<< s.qdRack

/-- A register of the device block. -/
def readDevice (src : RegSrc) (off : Nat) (s : State) : Word :=
  if off = R.JOB_RACKS then s.rg off ||| s.ownRack
  else if off = R.CTU_STS then s.ctuSts
  else if off = R.WIN_WD_STS then s.winWdSts .own
  else if off = R.SQ_STS then s.sqSts
  else if R.WT_DATA 0 ≤ off ∧ off ≤ R.WT_DATA 3 then s.staged src 0 ((off - R.WT_DATA 0) / 8)
  else if R.SQ_DATA 0 ≤ off ∧ off ≤ R.SQ_DATA 3 then s.staged src 1 ((off - R.SQ_DATA 0) / 8)
  else if R.WT_READ 0 ≤ off ∧ off < R.WT_READ 48 then
    (s.wte .own ((off - R.WT_READ 0) / 64)).word (off % 64 / 8)
  else if R.SQ_READ 0 ≤ off ∧ off < R.SQ_READ 4096 then
    (s.bind ((off - R.SQ_READ 0) / 64)).word (off % 64 / 8)
  else s.rg off

/-- A register of the grid block: telemetry, which is coarsened for protected allotments, and the debug
windows. -/
def readGrid (off : Nat) (s : State) : Word × State :=
  if R.MT_00 0 ≤ off ∧ off < R.MT_00 256 then
    let m := (off - R.MT_00 0) / 64
    let w := off % 64 / 8
    if !(s.millThere m) ∨ 5 < w then (0, s)
    else if s.millProt m then coarseWord (if w = 4 then 0xFFFF else 0xFFFFFFFFFFFFFFFF) s
    else millTelemetry s m w
  else if debugBase 0 ≤ off ∧ off < debugBase 256 then
    let m := (off - debugBase 0) / 0x8000
    if !(s.millThere m) then (0, s) else (debugRead s m (off % 0x8000)).getD (0, s)
  else if off = R.GRID_STS then
    (fset (s.rg off) 0 9 ((List.range 256).filter s.millFree).length, s)
  else (s.rg off, s)

/-- A register of the switch block: the telemetry of a port whose end point holds a slot is coarsened. -/
def readSwitch (off : Nat) (s : State) : Word × State :=
  if R.TEL_00 0 ≤ off ∧ off < R.TEL_00 144 ∧ s.holdsSlot ((off - R.TEL_00 0) / 128) then
    coarseWord (if (off - R.TEL_00 0) % 128 = 0x30 then 0xFFFFFFFF else 0xFFFFFFFFFFFFFFFF) s
  else (s.rg off, s)

/-- A register of the Green's block (R259). -/
def readGreen (off : Nat) (s : State) : Word × State :=
  if off = R.GR_STS then (s.grSts, s)
  else if off = R.GR_SENT_CNT ∧ s.coarseView then coarseWord 0xFFFFFFFFFFFFFFFF s
  else if off = R.GR_SENT_LAST ∧ s.ctxProtected (s.fl F.GR_SENT_LAST_CTX) then (0, s)
  else (s.rg off, s)

/-- A register of the trace block with its event rings (R491, R492). -/
def readTrace (off : Nat) (s : State) : Word :=
  if R.RING_CTL 0 ≤ off ∧ off < R.RING_CTL 454 then s.ringCtl ((off - R.RING_CTL 0) / 8)
  else if R.EVENTS 0 0 ≤ off ∧ off < R.EVENTS 454 0 then
    (Tbl.at (Tbl.at s.qd.trace.rings ((off - R.EVENTS 0 0) / 0x2000)).recs (off % 0x2000 / 32)).word (off % 32 / 8)
  else s.rg off

/-- A register of the clock block. -/
def readClock (off : Nat) (s : State) : Word × State :=
  if off = R.CLK_STS then (s.clkSts, s)
  else if off = R.DVFS_STS then
    let p := viewPower s
    let t := viewTemp p.2
    (fset (fset (s.rg off) 31 12 p.1) 23 8 t.1, t.2)
  else if off = R.CLK_ENABLE then
    ((List.range 4).foldl (fun v u => if s.gateThere u then v else fset v u 1 0) (s.rg off), s)
  else (s.rg off, s)

/-- A status register of a stack: its temperature is coarsened as TJMAX (R531). -/
def readHbm (off : Nat) (s : State) : Word × State :=
  if s.coarseView ∧ R.HBM_STS 0 ≤ off ∧ off < R.HBM_STS 8 then
    let d := draw 7 s
    (fset (s.rg off) 3 8 (d.1.toNat * 2), d.2)
  else (s.rg off, s)

/-- What a read of a register returns: zero for an offset that no chapter lists, for the registers of an absent
or gated unit and for a write-only register (R4, R524, R537). -/
def readReg (src : RegSrc) (off : Nat) (s : State) : Word × State :=
  if !(s.regThere off) then (0, s)
  else match off / 2 ^ 24 with
    | 0 => (readDevice src off s, s)
    | 2 => readClock off s
    | 5 => readSwitch off s
    | 6 => if R.LWB 0 ≤ off ∧ off < R.LWB 4096 then
        ((Tbl.at s.qd.dir.lwb ((off - R.LWB 0) / 32)).word (off % 32 / 8), s) else (s.rg off, s)
    | 7 => readGreen off s
    | 8 => readGrid off s
    | 10 => if R.KS_STS 0 ≤ off ∧ off < R.KS_STS 64 then ((s.ks ((off - R.KS_STS 0) / 8)).sts, s) else (s.rg off, s)
    | 12 => (readTrace off s, s)
    | 13 => readHbm off s
    | _ => (s.rg off, s)

/-- A byte of the global trace region (R497, R532). -/
def State.regionByte (s : State) (o : Nat) : Byte :=
  let n := 32 * s.preCap
  if s.fl F.TR_REGION_MIB * 2 ^ 20 ≤ o then 0
  else
    let e := if o < n then Tbl.at s.qd.trace.pre (o / 32) else s.qd.trace.post.getD ((o - n) / 32) {}
    BitVec.ofNat 8 (fget (e.word (o % 32 / 8)) (o % 8 * 8) 8)

/-- Bytes of the trace aperture. -/
def State.aperture (s : State) (off n : Nat) : List Byte := (List.range n).map (fun i => s.regionByte (off - 2 ^ 40 + i))

/-! ### Writes -/

/-- The range and consistency rules of the owning chapters on the value that a register would hold. A code that
a field's table reserves counts as out of range (log entry 50). -/
def regRange (off : Nat) (n : Word) : Bool :=
  let f := fget n
  let within := fun (lo w a b : Nat) => decide (a ≤ f lo w) && decide (f lo w ≤ b)
  let row := match regRow? off with
    | some r => r.base
    | none => 0
  if off = R.QD_TXN_TMO then within 0 16 8 512 && decide (f 0 16 * (f 16 3 + 1) ≤ f 32 16)
  else if off = R.CTU_CTL then within 0 5 1 16
  else if off = R.WIN_WD_TMO then within 0 14 10 10000
  else if off = R.CLK_CTL then within 0 2 0 2
  else if off = R.DVFS_CTL then
    decide (f 0 3 ≤ f 3 3) && within 3 3 0 4 && within 7 3 0 4 && within 10 4 10 16 && within 14 12 800 2000
  else if off = R.CLKMON_CTL then within 4 4 4 15
  else if row = R.SW_CLS_CTL 0 then
    let c := (off - R.SW_CLS_CTL 0) / 8
    within 0 8 1 128 && decide (f 8 8 ≤ f 0 8) && decide (f 0 8 ≤ f 16 8) && decide (f 8 8 ≤ f 16 8) &&
    (c == 3 || decide (f 24 16 < f 40 16)) && (c == 0 || decide (f 56 4 ≠ 0))
  else if row = R.SW_CPROF_W0 0 then decide (f 0 16 ≤ f 16 16)
  else if off = R.RT_DRAIN_TMO then within 0 16 1 10000
  else if off = R.DIR_CTL then within 0 12 100 1500
  else if off = R.GR_CTL then within 0 5 0 16 && decide (f 16 16 ≠ 0)
  else if off = R.GRID_CTL then decide (f 4 12 ≠ 0)
  else if row = R.SVC_PLACE 0 then (f 0 8 == 0 || within 0 8 2 4) && within 16 11 0 1024
  else if row = R.LN_PAT_W0 0 then within 0 3 0 4
  else if off = R.FT_CTL then
    within 0 10 20 1000 && within 10 10 40 1000 && decide (f 0 10 + 20 ≤ f 10 10) && decide (f 20 8 ≠ 0) &&
    decide (f 28 8 ≠ 0) && within 36 8 20 200
  else if off = R.TR_CTL then decide (f 8 8 ≠ 0) && within 16 16 10 65535 && decide (f 32 12 ≠ 0)
  else if off = R.TR_REGION then within 0 12 16 4095 && decide (f 12 4 ≠ 0)
  else if row = R.TW_ENTRY_W0 0 then within 16 2 0 2
  else if off = R.LG_CTL then within 8 8 1 64
  else if off = R.HBM_CTL then within 0 2 0 2
  else true

/-- A port reset (R517): the port goes down and trains from T1, the key store is zeroized, and Customs draws a
new identity. -/
def resetPort (n : Fin 160) (s : State) : State := portReset (.qd n) (newIdentity (zeroizeAll true s))

/-- What a write of LN_PORT_CTL starts: a request for a low-power state, the test hold or its end, and a port
reset. -/
def portCtlAfter (n : Fin 160) (old v : Word) (s : State) : State :=
  let p := PortSel.qd n
  let s := if bitAt v 2 then pmAsk p 2 s else if bitAt v 1 then pmAsk p 1 s else s
  let s := if bitAt (s.rg (R.LN_PORT_CTL n.val)) 15 then (if bitAt old 15 then s else holdForTest n s)
    else if bitAt old 15 then portReset p s else s
  if bitAt v 0 then resetPort n s else s

/-- What a write of RSL_ALIGN slips. What the comma detector of a link then finds is not the write's: a free
value (log entry 6). -/
def alignAfter (v : Word) (s : State) : State :=
  let one := fun (b : Nat) (l : RslLink) (s : State) =>
    if bitAt v b then let d := draw 1 s; slipLink l (decide (d.1 = 1)) d.2 else s
  one 1 .b (one 0 .a s)

/-- A new selection of the reference (R415, R422). -/
def refAfter (s : State) : State :=
  if !(s.flag F.CLK_STS_LOCK) then s
  else match s.refChoice with
    | some r => takeRef r s
    | none => startHoldover s

/-- A set EN bit of the buffer loop notes the thresholds of the moment (R431). -/
def loopAfter (old : Word) (s : State) : State :=
  if bitAt (s.rg R.LOOP_CTL) 4 ∧ !(bitAt old 4) then
    s.mapClk (fun c => { c with marks := (List.range 4).foldl (fun t k =>
      Tbl.put t k (s.fl (F.SW_CLS_CTL_MARK_LO k) + 65536 * s.fl (F.SW_CLS_CTL_MARK_HI k))) c.marks })
  else s

/-- The journal is started or stopped: a MARK record says so (R505). -/
def journalAfter (old : Word) (s : State) : State :=
  let on := s.flag F.LG_CTL_EN
  if on = bitAt old 0 then s
  else s.lgWrite Lg.MARK 0 0x0F 0 (bytesOf 4 (b2n !on) ++ bytesOf 12 0)

/-- What follows from a write that a register has taken. -/
def afterWrite (off : Nat) (old v : Word) (s : State) : State :=
  if off = R.DVFS_CTL then noteBand s
  else if off = R.LOOP_CTL then loopAfter old s
  else if off = R.CLK_CTL then refAfter s
  else if off = R.LG_CTL then journalAfter old s
  else if off = R.RSL_ALIGN then alignAfter v s
  else if R.LN_PORT_CTL 0 ≤ off ∧ off < R.LN_PORT_CTL 160 ∧ off % 16 = 0 then
    portCtlAfter (Fin.ofNat 160 ((off - R.LN_PORT_CTL 0) / 16)) old v s
  else if R.LN_PAT_W0 0 ≤ off ∧ off < R.LN_PAT_W0 640 ∧ off % 16 = 0 ∧ bitAt v 4 then
    s.setRg (off + 8) (s.rg (off + 8) &&& 0xFFFFFFFF00000000)
  else s

/-- A write of a register that has no operation of its own (R9, R537). -/
def plainWrite (off : Nat) (v : Word) (ans : BitVec 7 → List Out) (s : State) : State :=
  match s.writeReg off v with
  | none => regDrop off v ans s
  | some t =>
    if t.rg off ≠ s.rg off ∧ !(regRange off (t.rg off)) then regDrop off v ans s
    else emits (afterWrite off (s.rg off) v t) (ans St.OK)

/-- An offset that reads a table, a ring or telemetry: writes change nothing there. -/
def readsOnly (off : Nat) : Bool :=
  (decide (R.WT_READ 0 ≤ off) && decide (off < R.WT_READ 64)) ||
  (decide (R.SQ_READ 0 ≤ off) && decide (off < R.SQ_READ 4096)) ||
  (decide (R.LWB 0 ≤ off) && decide (off < R.LWB 4096)) ||
  (decide (R.EVENTS 0 0 ≤ off) && decide (off < R.EVENTS 454 0))

/-- RT_CMD; the reserved operation is refused. -/
def rtCmd (v : Word) (ans : BitVec 7 → List Out) (s : State) : State :=
  match fget v 0 2 with
  | 0 => routeHold v ans s
  | 1 => routeUpdate v ans s
  | 2 => routeRelease v ans s
  | _ => regDrop R.RT_CMD v ans s

/-- TR_CMD. -/
def trCmd (v : Word) (ans : BitVec 7 → List Out) (s : State) : State :=
  let s := if bitAt v 0 then trArm s else s
  emits (if bitAt v 1 then s.trigger 0 else s) (ans St.OK)

/-- LG_CMD; a reserved operation is refused. -/
def lgCmd (v : Word) (ans : BitVec 7 → List Out) (s : State) : State :=
  match fget v 0 2 with
  | 1 => lgReplay v ans s
  | 2 => lgAbort ans s
  | _ => regDrop R.LG_CMD v ans s

/-- A write of the device block. -/
def writeDevice (src : RegSrc) (off : Nat) (v : Word) (ans : BitVec 7 → List Out) (s : State) : State :=
  if R.WT_DATA 0 ≤ off ∧ off ≤ R.WT_DATA 3 then emits (s.setStaged src 0 ((off - R.WT_DATA 0) / 8) v) (ans St.OK)
  else if R.SQ_DATA 0 ≤ off ∧ off ≤ R.SQ_DATA 3 then emits (s.setStaged src 1 ((off - R.SQ_DATA 0) / 8) v) (ans St.OK)
  else if off = R.WIN_WITHDRAW then winWithdraw .own (fget v 0 6) v ans s
  else if off = R.WT_CMD then wtCmd src v ans s
  else if off = R.SQ_CMD then sqLoad src v ans s
  else if off = R.SQ_UNBIND then sqUnbind v ans s
  else if off = R.JOB_RACKS then plainWrite off ((v &&& ~~~ s.ownRack) ||| (s.rg off &&& s.ownRack)) ans s
  else plainWrite off v ans s

/-- A write of the directory block. -/
def writeDir (off : Nat) (v : Word) (ans : BitVec 7 → List Out) (s : State) : State :=
  if off < R.HAM_CFG_W0 9 then hamWrite ((off - R.HAM_CFG_W0 0) / 32) (off % 32 / 8) v ans s
  else if R.COH_WIN 0 ≤ off ∧ off < R.COH_WIN 256 then cohWinWrite ((off - R.COH_WIN 0) / 8) v ans s
  else if off = R.COH_CMD then cohCmd (fget v 8 2) v ans s
  else plainWrite off v ans s

/-- A write of the grid block. -/
def writeGrid (off : Nat) (v : Word) (ans : BitVec 7 → List Out) (s : State) : State :=
  if R.MT_00 0 ≤ off ∧ off < R.MT_00 256 then
    let m := (off - R.MT_00 0) / 64
    emits (if s.millThere m ∧ off % 64 = 0x20 then s.mapMill m (fun x => { x with dmaPeak := BitVec.ofNat 16 (fget v 0 16) })
      else s) (ans St.OK)
  else if debugBase 0 ≤ off ∧ off < debugBase 256 then
    let r := debugWrite ((off - debugBase 0) / 0x8000) (off % 0x8000) v s
    emits r.2 (ans r.1)
  else plainWrite off v ans s

/-- A write of the trace block. -/
def writeTrace (off : Nat) (v : Word) (ans : BitVec 7 → List Out) (s : State) : State :=
  if off = R.TR_CMD then trCmd v ans s
  else if off = R.LG_CMD then lgCmd v ans s
  else if off = R.LG_CMD2 then emits (s.mapLedger (fun l => { l with upTo := fget v 0 32 })) (ans St.OK)
  else plainWrite off v ans s

/-- A write of a register from a source that may write it (R537). A notice reaches FT_LIVE_NOTE by a check of its
own; any other write to it is dropped (R490). -/
def writeRegister (src : RegSrc) (off : Nat) (v : Word) (ans : BitVec 7 → List Out) (s : State) : State :=
  if !(s.regThere off) then emits s (ans St.OK)
  else if readsOnly off then emits s (ans St.OK)
  else match off / 2 ^ 24 with
    | 0 => writeDevice src off v ans s
    | 5 => if off = R.RT_CMD then rtCmd v ans s else if off = R.RT_LOAD then rtLoad v ans s else plainWrite off v ans s
    | 6 => writeDir off v ans s
    | 8 => writeGrid off v ans s
    | 12 => writeTrace off v ans s
    | _ =>
      if off = R.CLK_ENABLE then clkEnable v ans s
      else if off = R.FMEAS_CTL then fmeasWrite v ans s
      else if off = R.KEY_RETIRE then keyRetire v ans s
      else if off = R.CUST_SCRUB then custScrub v ans s
      else if off = R.CUST_CTL then custCtl v ans s
      else if off = R.FT_LIVE_NOTE then regDrop off v ans s
      else if off = R.FT_CMD then ftCmdWrite v ans s
      else plainWrite off v ans s

/-! ### Who may reach a register (R533-R536, R539) -/

/-- Checks on an access of 8 bytes from a source that is not the fabric: its alignment, its place, and the
registers that only the rack service links reach (R534-R536). -/
def srcCheck (src : RegSrc) (wr : Bool) (off : Nat) : BitVec 7 :=
  let rsl := src == .rslA || src == .rslB
  if off % 8 ≠ 0 then St.DESC
  else if !(inBlock off || inAperture off) then St.NOWIN
  else if !rsl && (off == R.FT_CMD || off == R.FT_CMD_STS) then St.PERM
  else if src == .fabric && wr && (off == R.ACC_CTL || off == R.JOB_RACKS) then St.PERM
  else if wr && inAperture off then St.PERM
  else St.OK

/-- A write from a source (R533). -/
def writeFrom (src : RegSrc) (off : Nat) (v : Word) (ans : BitVec 7 → List Out) (s : State) : State :=
  let st := srcCheck src true off
  if st ≠ St.OK then emits s (ans st) else writeRegister src off v ans s

/-- A read of 8 bytes from a source: status and value. -/
def readFrom (src : RegSrc) (off : Nat) (s : State) : BitVec 7 × Word × State :=
  let st := srcCheck src false off
  if st ≠ St.OK then (st, 0, s)
  else if inAperture off then (St.OK, wd (natOf (s.aperture off 8)), s)
  else let r := readReg src off s; (St.OK, r.1, r.2)

/-- REGISTER_WRITE: a source of window 63, or the register channel of the Svapo block. -/
def execRegisterWrite (d : Side) (src : RegSrc) (off v : Word) (s : State) : Res :=
  .next (
    match d, src with
    | .qd, .channel => s
    | .qd, .management => s
    | .qd, _ => writeFrom src off.toNat v (regAns src) s
    | .sv, .channel => if s.sv.inReset then s else
        let r := svChanWrite off.toNat v s
        emits r.2 (regAns .channel r.1)
    | .sv, _ => s)

/-! ### Over a rack service link (R412, R539) -/

/-- The payload of a REGRSP. -/
def regRsp (st : BitVec 7) (v : Word) : List Byte := bytesOf 8 st.toNat ++ wordBytes v

/-- The answer of a REGWR. -/
def rslAns (l : RslLink) (seq : Byte) (st : BitVec 7) : List Out := [.rslFrame l 3 seq (regRsp st 0)]

/-- In DS and with its clocks stopped a QD1 serves only the RSL block and the boot block (R434, R539). -/
def State.rslServed (s : State) (off : Nat) : Bool :=
  !(s.qd.boot.ds || s.qd.boot.stopped) || off / 2 ^ 24 == 1 || off / 2 ^ 24 == 3

/-- Answers sent since a point of the output are kept. -/
def keepSince (n : Nat) (s : State) : State := (s.out.drop n).foldl keepAnswer s

/-- REGRD. -/
def execRegrd (l : RslLink) (seq : Byte) (off : Word) (s : State) : Res :=
  .next (rslRequest l seq (fun s =>
    if !(s.rslServed off.toNat) then rslAnswer l 3 seq (regRsp St.ABSENT 0) s
    else
      let r := readFrom (rslSrc l) off.toNat s
      rslAnswer l 3 seq (regRsp r.1 r.2.1) r.2.2) s)

/-- REGWR. -/
def execRegwr (l : RslLink) (seq : Byte) (off v : Word) (s : State) : Res :=
  .next (rslRequest l seq (fun s =>
    if !(s.rslServed off.toNat) then rslAnswer l 3 seq (regRsp St.ABSENT 0) s
    else keepSince s.out.length (writeFrom (rslSrc l) off.toNat v (rslAns l seq) (rslPlace l 3 seq s))) s)

/-! ### Over the fabric (R535) -/

/-- Check 1: an LD or STA of one register, or a load of the aperture (R532, R534). -/
def w63Form (p : Packet) : Bool :=
  if p.opc == Opc.LD ∧ inAperture p.off then
    decide (1 ≤ p.len) && decide (p.len ≤ 256) && decide (p.off / 256 = (p.off + p.len - 1) / 256)
  else (p.opc == Opc.LD || p.opc == Opc.STA) && p.len == 8 && p.off % 8 == 0

/-- A notice of an end point of this rack through the port to it (check 2). -/
def State.isNotice (s : State) (v : Via) (p : Packet) : Bool :=
  match v with
  | .link n => p.opc == Opc.STA && p.off == R.FT_LIVE_NOTE && decide (p.ctx = 0) && decide (n.val < 144) &&
      decide (p.src = mkNode s.qdRack n.val)
  | _ => false

/-- Checks 1 to 5 of R535. -/
def State.w63Check (s : State) (v : Via) (p : Packet) : BitVec 7 :=
  let op := s.fl F.ACC_CTL_OPCTX
  if !(w63Form p) then St.DESC
  else if !((decide (op ≠ 0) && decide (p.ctx.toNat = op) && s.flag F.ACC_CTL_FAB_EN) || s.isNotice v p) then St.CTX
  else if p.kslot ≠ 0 then St.PERM
  else if !(inBlock p.off || inAperture p.off) then St.NOWIN
  else srcCheck .fabric (p.opc == Opc.STA) (p.off / 8 * 8)

/-- Register accesses of a lost node that its partner serves: the withdrawal registers (R39, R555). -/
def w63Mirror (v : Via) (p : Packet) (s : State) : State :=
  if p.off = R.WIN_WITHDRAW ∧ p.opc = Opc.STA then
    winWithdraw .mir (fget (wordAt p.data 0) 0 6) (wordAt p.data 0) (fun st => [replyOut (p.answer st)]) s
  else if p.off = R.WIN_WITHDRAW then reply v (p.answer St.OK (wordBytes 0)) s
  else if p.off = R.WIN_WD_STS then
    reply v (p.answer St.OK (if p.opc = Opc.LD then wordBytes (s.winWdSts .mir) else [])) s
  else failPkt v p St.LOST none s

/-- An access to window 63 that has passed its checks. -/
def w63Perform (v : Via) (p : Packet) (s : State) : State :=
  let val := wordAt p.data 0
  if s.isNotice v p then
    let s := match v with
      | .link n => if s.serving then liveNotice n.val (BitVec.ofNat 18 (fget val 0 18)) s else s
      | _ => s
    reply v (p.answer St.OK) s
  else if p.opc == Opc.LD then
    (if inAperture p.off then reply v (p.answer St.OK (s.aperture p.off p.len)) s
     else
       let r := readReg .fabric p.off s
       reply v (p.answer St.OK (wordBytes r.1)) r.2)
  else writeRegister .fabric p.off val (fun st => [replyOut (p.answer st)]) s

/-- WINDOW63_ACCESS: a request to window 63 of the QD1's node, or of its lost partner's. -/
def execWindow63Access (v : Via) (p : Packet) (s : State) : Res :=
  .next (
    if v.isSv ∨ p.rsp ∨ p.win ≠ 63 ∨ s.fenced then s
    else match rxForm [p] with
      | some st => rxFail v [p] p st s
      | none => match s.bankFor v p.dst with
        | none => failPkt v p St.LOST none s
        | some b =>
          let st := s.w63Check v p
          if st ≠ St.OK then failPkt v p st none s
          else if b = .mir then w63Mirror v p s
          else w63Perform v p s)

end Sys2Proof.Machine
end

