-- ==== Sys2Proof/Machine/Manage.lean ====
section
/-! DEFINITION. A QD1 brings an end point into service (R556), and Customs reads the end point's key (R448). -/

namespace Sys2Proof.Machine

/-- The words of SV_HAM: the definition of the hamlet that holds an end point, or zeros. -/
def State.hamWords (s : State) (slot : Nat) : List Word :=
  match (List.range 9).find? (fun h => (s.hamlet h).contains slot) with
  | some h => [s.rg (R.HAM_CFG_W0 h), s.rg (R.HAM_CFG_W1 h), s.rg (R.HAM_CFG_W2 h), s.rg (R.HAM_CFG_W3 h)]
  | none => [0, 0, 0, 0]

/-- Word `w` of the initial PLANE_MAP and HOME_MAP: entry `i` holds plane `i mod 18` (R37). -/
def initialMap (w : Nat) : Word := wd (natOf ((List.range 8).map (fun j => BitVec.ofNat 8 ((8 * w + j) % 18))))

/-- What a QD1 writes to a block whose SV_LIVE is zero: offsets and words. -/
def State.bringUpWords (s : State) (slot : Nat) : List (Nat × Word) :=
  (List.range 18).map (fun w => (SR.PLANE_MAP w, initialMap w)) ++
  (List.range 18).map (fun w => (SR.HOME_MAP w, initialMap w)) ++
  (s.hamWords slot).mapIdx (fun i v => (SR.SV_HAM i, v)) ++
  (List.range 256).map (fun i => (SR.SV_COH i, s.rg (R.COH_WIN i)))

/-- The two bits of SV_LIVE that this QD1 writes, in what it has read (R474, R556). -/
def State.bringUpLive (s : State) (live : BitVec 18) : Word :=
  let m : Word := (1#64 <<< s.qdPlane) ||| (1#64 <<< (s.qdPlane ^^^ 1))
  (wd live.toNat &&& ~~~ m) ||| (s.rg R.FT_LIVE &&& m)

/-- A management store of the Harbourmaster. -/
def hmSta (slot off : Nat) (v : Word) (s : State) : State :=
  unitReq { que := 576, purpose := .unit Un.HM slot 0 0, parts := [[mgmtSta s slot off v]] } s

/-- A management load of 8 bytes. -/
def mgmtLd (s : State) (slot off : Nat) : Packet :=
  Hdr.packet { dst := mkNode s.qdRack slot, ctx := 0, opc := Opc.LD, src := s.qdNode, cls := 1, que := 576,
               woff := 63 * 2 ^ 44 + off, len := 8 } none none []

/-- Customs reads SV_EK of an end point, 8 bytes at a time (R448). -/
def readEk (slot : Nat) (s : State) : State :=
  (List.range 196).foldl (fun s j =>
    unitReq { que := 576, purpose := .unit Un.HM slot 1 j, parts := [[mgmtLd s slot (0xC800 + 8 * j)]] } s) s

/-- A word of SV_EK has come. -/
def ekWord (slot j : Nat) (d : List Byte) (s : State) : State :=
  s.mapCust (fun c =>
    let old := slice (Tbl.at c.eks slot) 0 1568
    { c with eks := Tbl.put c.eks slot (patch old (8 * j) d) })

/-- SVAPO_BRINGUP: SV_LIVE of the end point in a slot has been read, and its port is up. A QD1 that has not
reached step 12 or is in set-up state waits (R556). -/
def execSvapoBringup (slot : Fin 144) (live : BitVec 18) (s : State) : Res :=
  .next (
    if !s.serving ∨ s.inSetup ∨ !(s.portUp slot.val) then s
    else
      let s := if live = 0 then (s.bringUpWords slot.val).foldl (fun s x => hmSta slot.val x.1 x.2 s) s else s
      readEk slot.val (hmSta slot.val SR.SV_LIVE (s.bringUpLive live) s))

end Sys2Proof.Machine
end

