-- ==== Sys2Proof/Machine/Boot.lean ====
section
/-! DEFINITION. Boot, images and warm admission (R507-R515, R522). -/

namespace Sys2Proof.Machine

/-! ### Fetching an image (R508, R509) -/

/-- The longest image of a kind; none is stated for the certificate bundle. -/
def imgCap (kind : Nat) : Nat := if kind = 1 then 16 * 2 ^ 20 else 96 * 2 ^ 20

/-- The block at an offset. -/
def ImgFetch.block (f : ImgFetch) (off : Nat) : Option (List Byte) := (f.blocks.find? (fun b => b.1 == off)).map (·.2)

/-- The length that an image's header states, once its first block has come (R510, R512). -/
def ImgFetch.len? (f : ImgFetch) : Option Nat :=
  match f.block 0 with
  | none => none
  | some b => if f.kind = 0 then some (natOf (slice b 16 4)) else some (natOf (slice b 8 4))

/-- Blocks from the first on that have come without a gap, and whether the last of them is short. -/
def bundleRun (f : ImgFetch) : Nat → Nat → Nat × Bool
  | k, 0 => (k, false)
  | k, n + 1 => match f.block (65536 * k) with
    | none => (k, false)
    | some b => if b.length < 65536 then (k + 1, true) else bundleRun f (k + 1) n

/-- Every block has come. The end of a certificate bundle is a block shorter than 65,536 bytes (DESIGN CHOICE, log
entry 51). A header that states too long an image ends the fetch, and the image fails its verification. -/
def ImgFetch.whole (f : ImgFetch) : Bool :=
  if f.kind = 2 then (bundleRun f 0 1536).2
  else match f.len? with
    | none => false
    | some n => decide (imgCap f.kind < n) || (List.range ((n + 65535) / 65536)).all (fun k => (f.block (65536 * k)).isSome)

/-- The bytes of a whole image. -/
def ImgFetch.bytes (f : ImgFetch) : List Byte :=
  if f.kind = 2 then (List.range (bundleRun f 0 1536).1).flatMap (fun k => (f.block (65536 * k)).getD [])
  else
    let n := min (imgCap f.kind) (f.len?.getD 0)
    slice ((List.range ((n + 65535) / 65536)).flatMap (fun k => slice ((f.block (65536 * k)).getD []) 0 65536)) 0 n

/-- Blocks asked for that have not come. -/
def ImgFetch.open (f : ImgFetch) : List Nat := (f.asked.map (·.1)).filter (fun o => (f.block o).isNone)

/-- Offsets that can be asked for next, in order. -/
def ImgFetch.nextOffs (f : ImgFetch) : List Nat :=
  let all := if f.kind = 2 then [65536 * (bundleRun f 0 1536).1]
    else match f.len? with
      | none => [0]
      | some n => if imgCap f.kind < n then [] else (List.range ((n + 65535) / 65536)).map (65536 * ·)
  if f.whole then [] else all.filter (fun o => Tbl.at f.asked o == 0 && (f.block o).isNone)

/-- Length of a block's request. -/
def ImgFetch.askLen (f : ImgFetch) (off : Nat) : Nat :=
  match f.len? with
  | some n => if f.kind = 2 then 65536 else min 65536 (n - off)
  | none => 65536

/-- Ask for a block: in an IMGREQ frame on the link whose marks are in use (log entry 51), or of the partner's
Harbourmaster under warm admission; the certificate bundle always comes from the rack manager (R515). -/
def imgAsk (f : ImgFetch) (off : Nat) (s : State) : State :=
  let len := f.askLen off
  if s.qd.boot.warm ∧ f.kind ≠ 2 then emit s (.partner 6 [wd f.kind, wd off, wd len])
  else rslSend (if s.flag F.RSL_STS_SEL then .b else .a) 0x30 (bytesOf 4 f.kind ++ bytesOf 4 off ++ bytesOf 4 len) s

/-- Ask for further blocks, up to 16 requests outstanding. -/
def imgPump (s : State) : State :=
  match s.qd.boot.fetch with
  | [] => s
  | f :: rest =>
    let offs := f.nextOffs.take (16 - f.open.length)
    let f' := { f with asked := offs.foldl (fun t o => Tbl.put t o 1) f.asked }
    offs.foldl (fun s o => imgAsk f' o s) (s.mapBoot (fun b => { b with fetch := f' :: rest }))

/-- Start to fetch an image; images fetched before stay behind it. -/
def imgStart (kind : Nat) (s : State) : State :=
  imgPump (s.mapBoot (fun b => { b with fetch := { kind := kind } :: b.fetch }))

/-- A fetched image. -/
def State.fetched (s : State) (kind : Nat) : Option ImgFetch := s.qd.boot.fetch.find? (fun f => f.kind == kind && f.whole)

/-- A step fails (R514): FAIL and the status, an EVT frame, and every fetched image is discarded. -/
def bootFail (st : BitVec 7) (s : State) : State :=
  let s := ((s.setFl F.BOOT_STS_FAIL 1).setFl F.BOOT_STS_STATUS st.toNat).setFl F.BOOT_STS_SETUP 0
  let s := s.mapBoot (fun b => { b with fetch := [], going := false, applied := 0, image := [], setup := [] })
  s.eventBoth Rg.hm { cat := Cat.FAULT, status := st }

/-- A failure whose status is not stated: a free error (log entry 6). -/
def bootFailFree (s : State) : State := let e := freeErr s; bootFail e.1 e.2

/-- BULK_BLOCK: a block with a good CRC that has been asked for is kept; one with another image identifier
restarts the fetch. -/
def execBulkBlock (l : RslLink) (imgid : Word) (off : BitVec 32) (d : List Byte) (crcOk : Bool) (s : State) : Res :=
  .next (
    if !crcOk then s.count (F.crcOf l)
    else match s.qd.boot.fetch with
      | [] => s
      | f :: rest =>
        if Tbl.at f.asked off.toNat = 0 ∨ (f.block off.toNat).isSome then s
        else
          let kept := match f.imgid with
            | none => true
            | some i => decide (i = imgid)
          let f' := if kept then { f with imgid := some imgid, blocks := f.blocks ++ [(off.toNat, d)] }
            else { kind := f.kind, imgid := some imgid, blocks := [(off.toNat, d)], asked := [(off.toNat, 1)] }
          let s := s.mapBoot (fun b => { b with fetch := f' :: rest })
          if f'.whole ∧ f'.kind = 0 then imgStart 2 s else imgPump s)

/-- IMGREQ_TIMEOUT: a block that has not come within 1 ms is asked for again; the step fails after 8 requests. -/
def execImgreqTimeout (off : BitVec 32) (s : State) : Res :=
  .next (
    match s.qd.boot.fetch with
    | [] => s
    | f :: rest =>
      if !(f.open.contains off.toNat) then s
      else if 8 ≤ Tbl.at f.asked off.toNat then bootFailFree s
      else
        let f' := { f with asked := Tbl.mod f.asked off.toNat (· + 1) }
        imgAsk f' off.toNat (s.mapBoot (fun b => { b with fetch := f' :: rest })))

/-- PARTNER_IMGREQ: served while PAIR is EXPOSED and FT_CMD SPARE has been written (R515). The answer is status,
kind, offset and the bytes. -/
def execPartnerImgreq (kind : Byte) (off len : BitVec 32) (s : State) : Res :=
  .next (
    let img := if kind = 0 then s.qd.boot.image else s.qd.boot.partnerSetup
    let no := fun (st : BitVec 7) => emit s (.partner 5 [wd st.toNat, wd kind.toNat, wd off.toNat])
    if s.fenced then s
    else if s.pair ≠ 1 ∨ !s.qd.fault.spareCmd then no St.PERM
    else if 1 < kind.toNat ∨ 65536 < len.toNat then no St.DESC
    else emit s (.partner 5 [0, wd kind.toNat, wd off.toNat] ((img.drop off.toNat).take len.toNat)))

/-! ### Verification (R510-R512) -/

/-- Bytes of an image are zero. -/
def zeros (b : List Byte) (from_ to_ : Nat) : Bool := (slice b from_ (to_ - from_)).all (fun x => decide (x = 0))

/-- The bit of VARIANTS of this part. -/
def variantBit (v : Variant) : Nat :=
  match v with
  | .qd19 => 0
  | .qd17 => 1
  | .qd15 => 2

/-- The rules of R511 on a boot image. -/
def bootImageOk (v : Variant) (b : List Byte) : Bool :=
  let ilen := natOf (slice b 16 4)
  let var := natOf (slice b 24 1)
  let key := natOf (slice b 25 1)
  let fwkey := slice b 64 2592
  natOf (slice b 0 4) == 0x4D494251 && natOf (slice b 4 2) == 1 && zeros b 6 8 && decide (ilen ≤ 96 * 2 ^ 20) &&
  decide (7296 ≤ ilen) && ilen == b.length && decide (var < 8) && bitAt (wd var) (variantBit v) && decide (key < 4) &&
  zeros b 26 64 && zeros b 7283 7296 &&
  decide (Config.sha3 fwkey = Config.romDigest (Fin.ofNat 4 key)) &&
  Config.mldsaVerify fwkey (slice b 0 2656 ++ b.drop 7296) (slice b 2656 4627)

/-- The header table of R512, FWDIG and SIG. -/
def setupImageOk (mfw b : List Byte) : Bool :=
  let ilen := natOf (slice b 8 4)
  let node := natOf (slice b 20 2)
  let plane := natOf (slice b 22 1)
  let opkey := slice b 96 2592
  natOf (slice b 0 4) == 0x55505451 && natOf (slice b 4 2) == 1 && zeros b 6 8 && decide (ilen ≤ 16 * 2 ^ 20) &&
  ilen == b.length && decide (7360 + 16 * (natOf (slice b 12 4) + natOf (slice b 16 4)) ≤ ilen) &&
  decide (plane < 18) && node % 256 == 160 + plane && decide (node < 2 ^ 14) && zeros b 23 24 && zeros b 28 32 &&
  decide (slice b 32 64 = mfw) && zeros b 7315 7360 &&
  Config.mldsaVerify opkey (slice b 0 2688 ++ b.drop 7360) (slice b 2688 4627)

/-! ### Records of the set-up image (R512) -/

/-- What a record does: it is refused, waits, or is taken. -/
inductive RecOut where
  | refused (st : BitVec 7)
  | waits
  | taken (s : State)

/-- The status with which the Harbourmaster's last write was answered, OK while the answer is to come. -/
def hmStatus (n : Nat) (s : State) : BitVec 7 :=
  (s.out.drop n).foldl (fun st o => match o with
    | .regAnswer .hm st' _ => st'
    | _ => st) St.OK

/-- Apply a record; kind 1 comes only among the table records. -/
def applyRecord (table : Bool) (a v : Word) (s : State) : RecOut :=
  let addr := fget a 0 44
  if fget a 44 18 ≠ 0 then .refused St.DESC
  else match fget a 62 2 with
    | 0 =>
      let t := writeFrom .hm addr v (regAns .hm) s
      let st := hmStatus s.out.length t
      if st = St.OK then .taken t else .refused st
    | 1 =>
      if !table ∨ granarySize s.qd.variant < addr + 8 then .refused St.DESC else .taken (s.poke .own addr (wordBytes v))
    | 2 =>
      let r := readFrom .hm addr s
      if r.1 ≠ St.OK then .refused r.1 else if r.2.1 &&& v = 0 then .taken r.2.2 else .waits
    | _ => .refused St.DESC

/-- Apply records in order from number `i` on, `n` of them, noting how many have been applied. A record that is
refused fails the step; one that waits holds it. -/
def applyRecords (img : List Byte) (table : Bool) (i : Nat) : Nat → State → Except (BitVec 7) (State × Bool)
  | 0, s => .ok (s, true)
  | n + 1, s =>
    let o := 7360 + 16 * i
    match applyRecord table (wordAt img o) (wordAt img (o + 8)) s with
    | .refused st => .error st
    | .waits => .ok (s, false)
    | .taken s => applyRecords img table (i + 1) n (s.mapBoot (fun b => { b with applied := b.applied + 1 }))

/-- Run the records of a step; what follows when all are applied. A wait record that a failed step reports has
timed out. -/
def runRecords (table ok : Bool) (done : State → State) (s : State) : State :=
  let img := s.qd.boot.setup
  let nreg := natOf (slice img 12 4)
  let first := if table then nreg else 0
  let n := if table then natOf (slice img 16 4) else nreg
  match applyRecords img table (first + s.qd.boot.applied) (n - s.qd.boot.applied) s with
  | .error st => bootFail st s
  | .ok (s, true) => done (s.mapBoot (fun b => { b with applied := 0 }))
  | .ok (s, false) => if ok then s else bootFailFree s

/-! ### Steps (R507) -/

/-- A step is done. -/
def State.stepTo (s : State) (n : Nat) : State := s.setFl F.BOOT_STS_STEP n

/-- Step 1: a reference is present. -/
def bootStep1 (s : State) : State := if s.refChoice.isSome then s.stepTo 1 else s

/-- Step 2: the root PLL locks. -/
def bootStep2 (s : State) : State :=
  match s.refChoice with
  | some l => (takeRef l (s.setFl F.CLK_STS_LOCK 1)).stepTo 2
  | none => s

/-- Step 4: the links that are present are aligned (log entry 51), and a mark has been met. -/
def bootStep4 (s : State) : State :=
  if (s.flag F.CLK_STS_PRES_A → s.flag F.RSL_ALIGN_LOCK_A) ∧ (s.flag F.CLK_STS_PRES_B → s.flag F.RSL_ALIGN_LOCK_B) ∧
      s.qd.aon.sync then s.stepTo 4
  else s

/-- Step 5: the self-tests; a failure leaves Customs in its error state. -/
def bootStep5 (r : BootResult) (s : State) : State :=
  if r.ok then (s.setFl F.CUST_STS_APPROVED 1).stepTo 5
  else ((customsError ((r.words.headD 1).toNat % 256) s).setFl F.BOOT_STS_FAIL 1).setFl F.BOOT_STS_STATUS r.status.toNat

/-- Step 6: the boot image and the certificate bundle have come. -/
def bootStep6 (r : BootResult) (s : State) : State :=
  if !s.qd.boot.going then s
  else if !r.ok then bootFail r.status s
  else match s.fetched 0, s.fetched 2 with
    | some f, some c =>
      (s.mapBoot (fun b => { b with image := f.bytes, cert := c.bytes, fetch := [] })).stepTo 6
    | _, _ => s

/-- Step 7: the boot image is verified and the identity derived (R438, R439, R511). -/
def bootStep7 (r : BootResult) (s : State) : State :=
  if !s.qd.boot.going then s
  else if !r.ok then bootFail r.status s
  else
    let b := s.qd.boot.image
    if !(bootImageOk s.qd.variant b) then bootFailFree s
    else
      let s := s.mapBoot (fun x => { x with mfw := bytesOf 64 (Config.sha3 b).toNat, svn := natOf (slice b 20 4) })
      let s := newIdentity (s.mapCust (fun c => { c with devid := s.derive (ascii "QD1 DEVID") }))
      let s := if Config.mldsaPublic s.qd.cust.devid = Config.certKey s.qd.boot.cert then s
        else let d := draw 8 s; customsError d.1.toNat d.2
      imgStart 1 (s.stepTo 7)

/-- What the set-up image header loads (R525, R530). -/
def loadHeader (b : List Byte) (s : State) : State :=
  let plane := natOf (slice b 22 1)
  let s := ((s.setFl F.DEV_NODE_NODE (natOf (slice b 20 2))).setFl F.DEV_NODE_PLANE plane).setFl F.DEV_NODE_PARTNER (plane ^^^ 1)
  ((s.setFl F.RSL_DLY_DLY_A (natOf (slice b 24 2))).setFl F.RSL_DLY_DLY_B (natOf (slice b 26 2))).setFl F.BOOT_STS_SETUP 1

/-- Step 8: the set-up image is verified, and its register records are applied. -/
def bootStep8 (r : BootResult) (s : State) : State :=
  if !s.qd.boot.going then s
  else
    let more := fun (s : State) => runRecords false r.ok (fun s => s.stepTo 8) s
    if !s.qd.boot.setup.isEmpty then more s
    else if !r.ok then bootFail r.status s
    else match s.fetched 1 with
      | none => s
      | some f =>
        let b := f.bytes
        if !(setupImageOk s.qd.boot.mfw b) then bootFailFree s
        else more (loadHeader b (s.mapBoot (fun x => { x with
          setup := b, msetup := bytesOf 64 (Config.sha3 b).toNat, fetch := [], applied := 0 })))

/-- The stacks leave self-refresh. Records lost in between close the open Ledger segment; the next carries GAP and
begins with a gap MARK (R505, R520). -/
def leaveHs (s : State) : State :=
  let s := (List.range (stacksOf s.qd.variant)).foldl (fun s k => s.setFl (F.HBM_STS_SREF k) 0) s
  let n := s.qd.boot.lost
  let s := s.mapBoot (fun b => { b with hs := false, lost := 0 })
  if n = 0 ∨ !(s.flag F.LG_CTL_EN) then s
  else ((s.lgClose true).lgWrite Lg.MARK 0 0x0F 0 (bytesOf 8 3 ++ bytesOf 8 n)).count F.LG_STS_GAPS

/-- Step 10: every present stack is trained, or the boot stops with the failed stacks of `words`. -/
def bootStep10 (r : BootResult) (s : State) : State :=
  let bad := (r.words.headD 0).toNat
  let s := (List.range (stacksOf s.qd.variant)).foldl (fun s k =>
    let failed := !r.ok && bad.testBit k
    (s.setFl (F.HBM_STS_TRAINED k) (b2n !failed)).setFl (F.HBM_STS_FAILED k) (b2n failed)) s
  let s := leaveHs (s.mapBoot (fun b => { b with hsPwr := false }))
  if r.ok then s.stepTo 10
  else
    ((s.setFl F.BOOT_STS_FAIL 1).setFl F.BOOT_STS_STATUS r.status.toNat).eventBoth Rg.hm { cat := Cat.FAULT, status := r.status }

/-- Step 11: the table records, and the set-up image goes to the partner. What the partner sends is the operand's
data (log entry 51). -/
def bootStep11 (r : BootResult) (s : State) : State :=
  runRecords true r.ok (fun s =>
    let s := emit s (.partner 7 [] s.qd.boot.setup)
    (s.mapBoot (fun b => { b with partnerSetup := if r.data.isEmpty then b.partnerSetup else r.data })).stepTo 11) s

/-- Step 12: the resident allotments are created and set-up state ends. A spare that has booted by warm admission
stays outside LIVE (R476). -/
def bootStep12 (s : State) : State :=
  let warm := s.qd.boot.warm
  let s := ((placeServices s.gridCounts).setFl F.BOOT_STS_SETUP 0).stepTo 12
  let s := (s.count F.BOOT_STS_BOOTS).setRg R.BOOT_TIME s.stamp
  let s := s.mapBoot (fun b => { b with going := false })
  let s := if warm then
      (s.setFl F.FT_LIVE_LIVE (fset (s.rg R.FT_LIVE) s.qdPlane 1 0).toNat).mapFault (fun f => { f with spare := true })
    else s
  s.eventBoth Rg.hm { cat := Cat.INFO, arg0 := 12 }

/-- The boot can go on: the clocks run, the device is not in DS, and the step after STEP has not failed. Steps 1
to 5 follow a reset, and RESET_N is high when one is done (log entry 51). -/
def State.booting (s : State) : Bool :=
  !s.qd.boot.stopped && !s.qd.boot.ds && !(s.flag F.BOOT_STS_FAIL) && decide (s.fl F.BOOT_STS_STEP < 12)

/-- BOOT_STEP_DONE: the step after STEP has ended. One whose condition does not hold goes on. -/
def execBootStepDone (r : BootResult) (s : State) : Res :=
  .next (
    if !s.booting then s
    else
      let s := s.mapBoot (fun b => { b with resetLow := false })
      match s.fl F.BOOT_STS_STEP with
      | 0 => bootStep1 s
      | 1 => bootStep2 s
      | 2 => s.stepTo 3
      | 3 => bootStep4 s
      | 4 => bootStep5 r s
      | 5 => bootStep6 r s
      | 6 => bootStep7 r s
      | 7 => bootStep8 r s
      | 8 => s.stepTo 9
      | 9 => bootStep10 r s
      | 10 => bootStep11 r s
      | _ => bootStep12 s)

end Sys2Proof.Machine
end

