-- ==== Sys2Proof/Machine/MillScalar.lean ====
section
/-! DEFINITION. The scalar instructions of the mills (R297-R303). -/

namespace Sys2Proof.Machine

/-! ### Register to register (R299, R300) -/

/-- Run a SALU operation on two s registers. -/
def salu (m : Nat) (f : FmtA) (fn : Nat) (op : Word → Word → Word) (s : State) : State :=
  runInstr m (encA 0x00 f fn) (fun _ s =>
    let x := s.mill m
    putS m f.da.val (op (x.sr f.sa.val) (x.sr f.sb.val)) s) s

/-- Run a SALU operation on one s register; SB must be 0. -/
def salu1 (m : Nat) (f : FmtA) (fn : Nat) (op : Word → Word) (s : State) : State :=
  runInstr m (encA 0x00 f fn) (fun _ s =>
    needZero (f.sb.val == 0) (putS m f.da.val (op ((s.mill m).sr f.sa.val)) s)) s

/-- Shift amount of a register. -/
def shamt (w : Word) : Nat := w.toNat % 64
/-- One or zero as a word. -/
def bool64 (b : Bool) : Word := if b then 1 else 0
/-- Signed quotient truncated toward zero, with the results of R300. -/
def divS (a b : Word) : Word := if b = 0 then ~~~ 0 else a.sdiv b
/-- Unsigned quotient. -/
def divU (a b : Word) : Word := if b = 0 then ~~~ 0 else a / b
/-- Signed remainder with the sign of the dividend. -/
def remS (a b : Word) : Word := if b = 0 then a else a.srem b
/-- Unsigned remainder. -/
def remU (a b : Word) : Word := if b = 0 then a else a % b
/-- High 64 bits of the signed product. -/
def mulHS (a b : Word) : Word := BitVec.ofInt 64 (a.toInt * b.toInt / 2 ^ 64)
/-- High 64 bits of the unsigned product. -/
def mulHU (a b : Word) : Word := wd (a.toNat * b.toNat / 2 ^ 64)
/-- Count of leading zeros. -/
def clz64 (a : Word) : Word := wd ((List.range 64).takeWhile (fun i => !(bitAt a (63 - i)))).length
/-- Count of trailing zeros. -/
def ctz64 (a : Word) : Word := wd ((List.range 64).takeWhile (fun i => !(bitAt a i))).length
/-- Count of ones. -/
def popc64 (a : Word) : Word := wd ((List.range 64).filter (fun i => bitAt a i)).length


/-- ADD. -/
def execSaluAdd (m : Fin 256) (f : FmtA) (s : State) : Res :=
  .next (salu m.val f 0x0 (fun a b => a + b) s)

/-- SUB. -/
def execSub (m : Fin 256) (f : FmtA) (s : State) : Res :=
  .next (salu m.val f 0x1 (fun a b => a - b) s)

/-- AND. -/
def execSaluAnd (m : Fin 256) (f : FmtA) (s : State) : Res :=
  .next (salu m.val f 0x2 (fun a b => a &&& b) s)

/-- OR. -/
def execSaluOr (m : Fin 256) (f : FmtA) (s : State) : Res :=
  .next (salu m.val f 0x3 (fun a b => a ||| b) s)

/-- XOR. -/
def execSaluXor (m : Fin 256) (f : FmtA) (s : State) : Res :=
  .next (salu m.val f 0x4 (fun a b => a ^^^ b) s)

/-- SLL. -/
def execSll (m : Fin 256) (f : FmtA) (s : State) : Res :=
  .next (salu m.val f 0x5 (fun a b => a <<< shamt b) s)

/-- SRL. -/
def execSrl (m : Fin 256) (f : FmtA) (s : State) : Res :=
  .next (salu m.val f 0x6 (fun a b => a >>> shamt b) s)

/-- SRA. -/
def execSra (m : Fin 256) (f : FmtA) (s : State) : Res :=
  .next (salu m.val f 0x7 (fun a b => a.sshiftRight (shamt b)) s)

/-- SLT. -/
def execSlt (m : Fin 256) (f : FmtA) (s : State) : Res :=
  .next (salu m.val f 0x8 (fun a b => bool64 (a.slt b)) s)

/-- SLTU. -/
def execSltu (m : Fin 256) (f : FmtA) (s : State) : Res :=
  .next (salu m.val f 0x9 (fun a b => bool64 (a.ult b)) s)

/-- MUL. -/
def execMul (m : Fin 256) (f : FmtA) (s : State) : Res :=
  .next (salu m.val f 0xa (fun a b => a * b) s)

/-- MULH. -/
def execMulh (m : Fin 256) (f : FmtA) (s : State) : Res :=
  .next (salu m.val f 0xb (mulHS) s)

/-- MULHU. -/
def execMulhu (m : Fin 256) (f : FmtA) (s : State) : Res :=
  .next (salu m.val f 0xc (mulHU) s)

/-- DIV. -/
def execDiv (m : Fin 256) (f : FmtA) (s : State) : Res :=
  .next (salu m.val f 0xd (divS) s)

/-- DIVU. -/
def execDivu (m : Fin 256) (f : FmtA) (s : State) : Res :=
  .next (salu m.val f 0xe (divU) s)

/-- REM. -/
def execRem (m : Fin 256) (f : FmtA) (s : State) : Res :=
  .next (salu m.val f 0xf (remS) s)

/-- REMU. -/
def execRemu (m : Fin 256) (f : FmtA) (s : State) : Res :=
  .next (salu m.val f 0x10 (remU) s)

/-- MIN. -/
def execSaluMin (m : Fin 256) (f : FmtA) (s : State) : Res :=
  .next (salu m.val f 0x11 (fun a b => if a.slt b then a else b) s)

/-- MAX. -/
def execSaluMax (m : Fin 256) (f : FmtA) (s : State) : Res :=
  .next (salu m.val f 0x12 (fun a b => if a.slt b then b else a) s)

/-- MINU. -/
def execMinu (m : Fin 256) (f : FmtA) (s : State) : Res :=
  .next (salu m.val f 0x13 (fun a b => if a.ult b then a else b) s)

/-- MAXU. -/
def execMaxu (m : Fin 256) (f : FmtA) (s : State) : Res :=
  .next (salu m.val f 0x14 (fun a b => if a.ult b then b else a) s)

/-- CLZ. -/
def execClz (m : Fin 256) (f : FmtA) (s : State) : Res :=
  .next (salu1 m.val f 0x15 clz64 s)

/-- CTZ. -/
def execCtz (m : Fin 256) (f : FmtA) (s : State) : Res :=
  .next (salu1 m.val f 0x16 ctz64 s)

/-- POPC. -/
def execPopc (m : Fin 256) (f : FmtA) (s : State) : Res :=
  .next (salu1 m.val f 0x17 popc64 s)

/-! ### Immediates (R297) -/

/-- Run an operation of an s register and the immediate. -/
def saluImm (m : Nat) (f : FmtI) (maj : Nat) (op : Word → Word) (s : State) : State :=
  runInstr m (encI maj f) (fun _ s => putS m f.da.val (op ((s.mill m).sr f.sa.val)) s) s


/-- ADDI. -/
def execAddi (m : Fin 256) (f : FmtI) (s : State) : Res :=
  .next (saluImm m.val f 0x1 (fun a => a + f.imm.signExtend 64) s)

/-- ANDI. -/
def execAndi (m : Fin 256) (f : FmtI) (s : State) : Res :=
  .next (saluImm m.val f 0x2 (fun a => a &&& f.imm.setWidth 64) s)

/-- ORI. -/
def execOri (m : Fin 256) (f : FmtI) (s : State) : Res :=
  .next (saluImm m.val f 0x3 (fun a => a ||| f.imm.setWidth 64) s)

/-- XORI. -/
def execXori (m : Fin 256) (f : FmtI) (s : State) : Res :=
  .next (saluImm m.val f 0x4 (fun a => a ^^^ f.imm.setWidth 64) s)

/-- SLTI. -/
def execSlti (m : Fin 256) (f : FmtI) (s : State) : Res :=
  .next (saluImm m.val f 0x7 (fun a => bool64 (a.slt (f.imm.signExtend 64))) s)

/-- LUI: SA must be 0. -/
def execLui (m : Fin 256) (f : FmtI) (s : State) : Res :=
  .next (runInstr m.val (encI 0x05 f) (fun _ s =>
    needZero (f.sa.val == 0) (putS m.val f.da.val (f.imm.signExtend 64 <<< 16) s)) s)

/-- SHI: the shift kind in IMM16 [7:6]; kind 3 is reserved, and IMM16 [15:8] must be zero. -/
def execShi (m : Fin 256) (f : FmtI) (s : State) : Res :=
  .next (runInstr m.val (encI 0x06 f) (fun _ s =>
    let a := (s.mill m.val).sr f.sa.val
    let n := f.imm.toNat % 64
    let k := f.imm.toNat / 64
    needZero (decide (k < 3))
      (putS m.val f.da.val (if k = 0 then a <<< n else if k = 1 then a >>> n else a.sshiftRight n) s)) s)

/-! ### Loads, stores and atomics (R301, R302) -/

/-- Run a load of `n` bytes. -/
def scalarLoad (m : Nat) (f : FmtI) (maj n : Nat) (signed : Bool) (s : State) : State :=
  runInstr m (encI maj f) (fun a s =>
    loadAt a m (ea (s.mill m) f) n n (.load f.da.val n signed)
      (fun d s => s.mapMill m (fun x => x.setSr f.da.val (loadValue signed n d))) s) s

/-- Run a store of the low `n` bytes of the register that DA names. -/
def scalarStore (m : Nat) (f : FmtI) (maj n : Nat) (s : State) : State :=
  runInstr m (encI maj f) (fun a s =>
    storeAt a m (ea (s.mill m) f) (bytesOf n ((s.mill m).sr f.da.val).toNat) n s) s

/-- Run an atomic. -/
def scalarAtom (m : Nat) (f : FmtA) (size : Bool) (op : MeshOp) (s : State) : State :=
  runInstr m (encA 0x14 f (b2n size + (if op = .swap then 2 else 0))) (fun a s =>
    let x := s.mill m
    atomAt a m f.da.val (x.sr f.sa.val) op (if size then 8 else 4) (x.sr f.sb.val) s) s


/-- LB. -/
def execLb (m : Fin 256) (f : FmtI) (s : State) : Res :=
  .next (scalarLoad m.val f 0x8 1 true s)

/-- LBU. -/
def execLbu (m : Fin 256) (f : FmtI) (s : State) : Res :=
  .next (scalarLoad m.val f 0x9 1 false s)

/-- LH. -/
def execLh (m : Fin 256) (f : FmtI) (s : State) : Res :=
  .next (scalarLoad m.val f 0xa 2 true s)

/-- LHU. -/
def execLhu (m : Fin 256) (f : FmtI) (s : State) : Res :=
  .next (scalarLoad m.val f 0xb 2 false s)

/-- LW. -/
def execLw (m : Fin 256) (f : FmtI) (s : State) : Res :=
  .next (scalarLoad m.val f 0xc 4 true s)

/-- LWU. -/
def execLwu (m : Fin 256) (f : FmtI) (s : State) : Res :=
  .next (scalarLoad m.val f 0xd 4 false s)

/-- LD. -/
def execScalarLd (m : Fin 256) (f : FmtI) (s : State) : Res :=
  .next (scalarLoad m.val f 0xe 8 false s)

/-- SB. -/
def execSb (m : Fin 256) (f : FmtI) (s : State) : Res :=
  .next (scalarStore m.val f 0x10 1 s)

/-- SH. -/
def execSh (m : Fin 256) (f : FmtI) (s : State) : Res :=
  .next (scalarStore m.val f 0x11 2 s)

/-- SW. -/
def execSw (m : Fin 256) (f : FmtI) (s : State) : Res :=
  .next (scalarStore m.val f 0x12 4 s)

/-- SD. -/
def execSd (m : Fin 256) (f : FmtI) (s : State) : Res :=
  .next (scalarStore m.val f 0x13 8 s)

/-- ATOM with FN [1] = 0: add. -/
def execAtomAdd (m : Fin 256) (f : FmtA) (size : Bool) (s : State) : Res :=
  .next (scalarAtom m.val f size .add s)

/-- ATOM with FN [1] = 1: swap. -/
def execAtomSwap (m : Fin 256) (f : FmtA) (size : Bool) (s : State) : Res :=
  .next (scalarAtom m.val f size .swap s)

/-! ### Branches and jumps (R297, R303) -/

/-- Run a branch. -/
def branch (m : Nat) (f : FmtB) (maj : Nat) (cond : Word → Word → Bool) (s : State) : State :=
  runInstr m (encB maj f) (fun _ s =>
    let x := s.mill m
    if cond (x.sr f.sa.val) (x.sr f.sb.val) then
      .jump s (x.pc.setWidth 64 + (f.off.signExtend 64 <<< 2))
    else .done s) s


/-- BEQ. -/
def execBeq (m : Fin 256) (f : FmtB) (s : State) : Res :=
  .next (branch m.val f 0x18 (fun a b => a == b) s)

/-- BNE. -/
def execBne (m : Fin 256) (f : FmtB) (s : State) : Res :=
  .next (branch m.val f 0x19 (fun a b => a != b) s)

/-- BLT. -/
def execBlt (m : Fin 256) (f : FmtB) (s : State) : Res :=
  .next (branch m.val f 0x1a (fun a b => a.slt b) s)

/-- BGE. -/
def execBge (m : Fin 256) (f : FmtB) (s : State) : Res :=
  .next (branch m.val f 0x1b (fun a b => !(a.slt b)) s)

/-- BLTU. -/
def execBltu (m : Fin 256) (f : FmtB) (s : State) : Res :=
  .next (branch m.val f 0x1c (fun a b => a.ult b) s)

/-- BGEU. -/
def execBgeu (m : Fin 256) (f : FmtB) (s : State) : Res :=
  .next (branch m.val f 0x1d (fun a b => !(a.ult b)) s)

/-- JAL: the link goes to s31. -/
def execJal (m : Fin 256) (off : BitVec 26) (s : State) : Res :=
  .next (runInstr m.val (encJ 0x1E off) (fun _ s =>
    let x := s.mill m.val
    .jump (s.mapMill m.val (fun x => x.setSr 31 (x.pc.setWidth 64 + 4)))
      (x.pc.setWidth 64 + (off.signExtend 64 <<< 2))) s)

/-- JALR: the link goes to DA; the target is formed from SA as it stood. -/
def execJalr (m : Fin 256) (f : FmtI) (s : State) : Res :=
  .next (runInstr m.val (encI 0x1F f) (fun _ s =>
    .jump (s.mapMill m.val (fun x => x.setSr f.da.val (x.pc.setWidth 64 + 4))) (ea (s.mill m.val) f)) s)

end Sys2Proof.Machine
end

