-- ==== Sys2Proof/Machine/Resets.lean ====
section
/-! DEFINITION. Resets, the CMD frames and the low-power states of the device (R516-R521), and test access (R551). -/

namespace Sys2Proof.Machine

/-! ### Resets of the device (R517, R521) -/

/-- The QD1 restarts with what a reset keeps; its lanes go idle first. BOOT_STS.CAUSE says which it was, and STEP
the last step that need not be run again. -/
def restart (cause step : Nat) (keep : Qd → Qd) (s : State) : State :=
  let s := (lanesIdle s).mapQd keep
  (s.setFl F.BOOT_STS_CAUSE cause).stepTo step

/-- What the root PLL shows of itself, which a WR and DS leave running (R517, R520). -/
def pllRegs (old new : Tbl Word) (v : Variant) : Tbl Word :=
  let get := fun (o : Nat) => Tbl.get (regReset v) old o
  let t := Tbl.set (regReset v) new R.CLK_STS (get R.CLK_STS)
  Tbl.set (regReset v) t R.RSL_STS (get R.RSL_STS)

/-- Stacks that hold their contents in self-refresh. -/
def srefRegs (v : Variant) (t : Tbl Word) : Tbl Word :=
  (List.range (stacksOf v)).foldl (fun t k =>
    Tbl.set (regReset v) t (R.HBM_STS k) (fset (Tbl.get (regReset v) t (R.HBM_STS k)) 2 1 1)) t

/-- What the boot keeps in the Granary: the images of R515; and the count of records lost in HS. -/
def bootKept (b : Boot) : Boot :=
  { image := b.image, setup := b.setup, partnerSetup := b.partnerSetup, lost := b.lost }

/-- What a WR keeps (R521). -/
def warmKept (q : Qd) : Qd :=
  { variant := q.variant
    regs := srefRegs q.variant (pllRegs q.regs (regsAfter q.variant 2 q.regs) q.variant)
    hbm := q.hbm, mhbm := q.mhbm, dir := { lwb := q.dir.lwb }, trace := q.trace, aon := q.aon
    boot := bootKept q.boot, rslA := q.rslA, rslB := q.rslB
    links := q.links.map (fun x => (x.1, { coef := x.2.coef }))
    clk := { coefs := q.clk.coefs, coefLog := q.clk.coefLog } }

/-- What DS keeps (R520, R521). -/
def sleepKept (q : Qd) : Qd :=
  { variant := q.variant
    regs := srefRegs q.variant (pllRegs q.regs (regsAfter q.variant 256 q.regs) q.variant)
    hbm := q.hbm, mhbm := q.mhbm, aon := q.aon
    boot := { bootKept q.boot with ds := true }, rslA := q.rslA, rslB := q.rslB }

/-- A full reset: boot from step 1. While THERMTRIP_N is asserted only a PO acts (R519). -/
def fullReset (low : Bool) (s : State) : State :=
  if s.qd.boot.trip then s
  else restart 1 0 (fun q => { variant := q.variant, regs := regsAfter q.variant 1 q.regs
                               boot := { resetLow := low } }) s

/-- POWER_ON: RESET_N is released with the rails up, and TRAY_ID is sampled (R517, R543, R546). -/
def execPowerOn (tray : BitVec 6) (s : State) : Res :=
  .next (
    let t := s.qd.boot.trip
    let s := (restart 0 0 (fun q => { variant := q.variant }) s).setFl F.PIN_STS_TRAY_ID tray.toNat
    if t then emit s (.pin "THERMTRIP_N" true) else s)

/-- RESET_N_ASSERT: RESET_N is low for at least 10 µs. -/
def execResetNAssert (s : State) : Res := .next (fullReset true s)

/-- A warm reset: the Ledger's buffers are written, Customs zeroizes, and the boot goes on from step 3. -/
def warmReset (s : State) : State :=
  let s := if s.flag F.LG_CTL_EN && !s.qd.trace.ledger.cur.isEmpty then s.lgClose false else s
  restart 2 2 warmKept (zeroizeAll true s)

/-! ### A grid reset (R291, R517) -/

/-- A descriptor of a queue runs on an allotment: those of the services that an allotment performs, and the
ALLOT descriptors that an allotment holds. -/
def State.onAllot (s : State) (k : Nat) (d : Desc) : Bool :=
  let ty := (s.bind k).qtype
  decide (d.stage = 3) &&
  (ty == Ty.KVPG || ty == Ty.ATTN || ty == Ty.OPTS ||
   (ty == Ty.ALLOT && !(s.qd.grid.creates.any (fun c => c.1 == k && decide (c.2 = d.ridx)))))

/-- Registers of the grid and services blocks after a GR. -/
def gridRegs (v : Variant) (t : Tbl Word) : Tbl Word :=
  let mine := fun (o : Nat) => o / 2 ^ 24 == 8 || o / 2 ^ 24 == 9
  let kept := regsAfter v 4 t
  t.foldl (fun u p => if mine p.1 then Tbl.set (regReset v) u p.1 (Tbl.get (regReset v) kept p.1) else u) t

/-- A grid reset: descriptors that run on allotments complete with ERR_ABORT, every mill stops, every allotment
is freed and all scratch zeroed, Customs zeroizes and draws a new identity, and the resident allotments are
created again. CREATE descriptors that wait go on waiting. It ends GP (R519). -/
def gridReset (s : State) : State :=
  let run := s.qd.rings.qs.flatMap (fun q => (q.2.descs.filter (s.onAllot q.1)).map (fun d => (q.1, d.ridx)))
  let s := run.foldl (fun s x => descEnd x.1 x.2 St.ABORT s) s
  let s := newIdentity (zeroizeAll true s)
  let drop := fun (p : Purpose) => match p with
    | .unit u _ _ _ => u == Un.DMA || u == Un.MMSG
    | _ => false
  let s := s.mapSrcs .qd (fun x => { x with
    reqs := x.reqs.filter (fun o => !(drop o.purpose)), waits := x.waits.filter (fun w => !(drop w.purpose)) })
  let s := s.mapQd (fun q => { q with
    grid := { creates := q.grid.creates }, regs := gridRegs q.variant q.regs, boot := { q.boot with gp := false } })
  placeServices s.gridCounts

/-! ### CMD frames (R412, R516, R519) -/

namespace Cmd
/-- Command codes (R516). -/
abbrev FR := 0x01
abbrev WR := 0x02
abbrev GR := 0x03
abbrev PR := 0x04
abbrev BOOT := 0x05
abbrev SETUP := 0x10
abbrev RUN := 0x11
abbrev GPIN := 0x20
abbrev GPOUT := 0x21
abbrev HSIN := 0x22
abbrev HSOUT := 0x23
abbrev DSIN := 0x24
abbrev WAKE := 0x25
end Cmd

/-- A command suits what the device does (R519): after a brown-out only FR, in DS only WAKE too, before step 12
BOOT too, while R435 runs FR and after it WR too. -/
def State.cmdSuits (s : State) (op : Nat) : Bool :=
  op == Cmd.FR ||
  (!s.qd.boot.stopped &&
   (if s.qd.boot.ds then op == Cmd.WAKE
    else if s.fl F.BOOT_STS_STEP < 12 then op == Cmd.BOOT
    else if s.qd.boot.pwr = 1 then false
    else if s.qd.boot.pwr = 2 ∨ s.qd.boot.hsPwr then op == Cmd.WR
    else op != Cmd.WAKE && op != Cmd.BOOT))

/-- A CMD frame on a link, answered with a CMDRSP; one that repeats a kept SEQ is not performed again. `ok` is the
command's own condition, and its action follows the answer. While THERMTRIP_N is asserted only a PO acts. -/
def cmd (op : Nat) (l : RslLink) (seq : Byte) (ok : State → Bool) (act : State → State) (s : State) : State :=
  if s.qd.boot.trip then s
  else rslRequest l seq (fun s =>
    let rsp := fun (st : BitVec 7) => bytesOf 1 st.toNat ++ bytesOf 1 op
    if s.cmdSuits op && ok s then act (rslAnswer l 0x11 seq (rsp St.OK) s)
    else rslAnswer l 0x11 seq (rsp St.DESC) s) s

/-- CMD FR. -/
def execFr (l : RslLink) (seq _arg : Byte) (_index : BitVec 16) (s : State) : Res :=
  .next (cmd Cmd.FR l seq (fun _ => true) (fullReset false) s)

/-- CMD WR. -/
def execWr (l : RslLink) (seq _arg : Byte) (_index : BitVec 16) (s : State) : Res :=
  .next (cmd Cmd.WR l seq (fun _ => true) warmReset s)

/-- CMD GR. -/
def execGr (l : RslLink) (seq _arg : Byte) (_index : BitVec 16) (s : State) : Res :=
  .next (cmd Cmd.GR l seq (fun _ => true) gridReset s)

/-- CMD PR: reset of port INDEX. -/
def execPr (l : RslLink) (seq _arg : Byte) (index : BitVec 16) (s : State) : Res :=
  .next (cmd Cmd.PR l seq
    (fun s => decide (index.toNat < 160) && s.portThere (.qd (Fin.ofNat 160 index.toNat)))
    (resetPort (Fin.ofNat 160 index.toNat)) s)

/-- PORT_RESET: LN_PORT_CTL.PRST or CMD PR at a QD1 port, PRST at a Svapo port controller (R389, R517). -/
def execPortReset (p : PortSel) (s : State) : Res :=
  .next (
    match p with
    | .qd n => if s.portThere p then resetPort n s else s
    | .sv _ => if s.sv.inReset then s else portReset p s)

/-- The boot waits for CMD BOOT: step 5 is done, or a step from 6 on has failed and the boot did not stop. -/
def State.waitsBoot (s : State) : Bool :=
  let n := s.fl F.BOOT_STS_STEP
  if s.flag F.BOOT_STS_FAIL then n == 5 || n == 6 || n == 7 || n == 10
  else n == 5 && !s.qd.boot.going

/-- CMD BOOT: the boot goes on from step 6; ARG 0 fetches over the rack service link, ARG 1 by warm admission. -/
def execBoot (l : RslLink) (seq arg : Byte) (_index : BitVec 16) (s : State) : Res :=
  .next (cmd Cmd.BOOT l seq
    (fun s => s.waitsBoot && decide (arg.toNat < 2) && !(s.flag F.CUST_STS_ERROR))
    (fun s =>
      let s := ((s.setFl F.BOOT_STS_FAIL 0).setFl F.BOOT_STS_STATUS 0).setFl F.BOOT_STS_SRC arg.toNat
      imgStart 0 ((s.stepTo 5).mapBoot (fun b => { b with
        going := true, warm := decide (arg = 1), fetch := [], applied := 0, image := [], setup := [] }))) s)

/-- CMD SETUP: accepted with no queue bound and no tenant allotment (R513). -/
def execSetup (l : RslLink) (seq _arg : Byte) (_index : BitVec 16) (s : State) : Res :=
  .next (cmd Cmd.SETUP l seq
    (fun s => !s.inSetup && s.qd.rings.bind.all (fun x => decide (4096 ≤ x.1) || x.2.qstate == 0) &&
      (List.range 64).all (fun a => s.alState a == 0 || s.flag (F.ALLOT_STS_W0_RES a)))
    (fun s => s.setFl F.BOOT_STS_SETUP 1) s)

/-- CMD RUN. -/
def execRun (l : RslLink) (seq _arg : Byte) (_index : BitVec 16) (s : State) : Res :=
  .next (cmd Cmd.RUN l seq (fun s => s.inSetup) (fun s => s.setFl F.BOOT_STS_SETUP 0) s)

/-- CMD GPIN: the grid parks when no allotment is starting, running or stopping (R291). -/
def execGpin (l : RslLink) (seq _arg : Byte) (_index : BitVec 16) (s : State) : Res :=
  .next (cmd Cmd.GPIN l seq (fun s => s.present 0 && !s.qd.boot.gp && s.gateIdle 0)
    (fun s => s.mapBoot (fun b => { b with gp := true })) s)

/-- CMD GPOUT. -/
def execGpout (l : RslLink) (seq _arg : Byte) (_index : BitVec 16) (s : State) : Res :=
  .next (cmd Cmd.GPOUT l seq (fun s => s.qd.boot.gp) (fun s => s.mapBoot (fun b => { b with gp := false })) s)

/-- CMD HSIN: no valid window, the grid and the Ferry gated, and the collective table empty (R520). -/
def execHsin (l : RslLink) (seq _arg : Byte) (_index : BitVec 16) (s : State) : Res :=
  .next (cmd Cmd.HSIN l seq
    (fun s => !s.qd.boot.hs && (List.range 48).all (fun w => (s.wte .own w).state == 0) &&
      !(s.unitOn 0 0) && !(s.unitOn 11 2) && s.colls.isEmpty)
    (enterHs false) s)

/-- CMD HSOUT. -/
def execHsout (l : RslLink) (seq _arg : Byte) (_index : BitVec 16) (s : State) : Res :=
  .next (cmd Cmd.HSOUT l seq (fun s => s.qd.boot.hs) leaveHs s)

/-- CMD DSIN: the lanes go idle, HBM enters self-refresh, Customs zeroizes, and every island but the always-on
domain is powered down (R520). -/
def execDsin (l : RslLink) (seq _arg : Byte) (_index : BitVec 16) (s : State) : Res :=
  .next (cmd Cmd.DSIN l seq (fun _ => true) (fun s => restart 0 0 sleepKept (zeroizeAll true s)) s)

/-- CMD WAKE: boot steps 3 to 12. -/
def execWake (l : RslLink) (seq _arg : Byte) (_index : BitVec 16) (s : State) : Res :=
  .next (cmd Cmd.WAKE l seq (fun s => s.qd.boot.ds)
    (fun s => ((s.mapBoot (fun b => { b with ds := false })).setFl F.BOOT_STS_CAUSE 3).stepTo 2) s)

/-! ### Test access (R551) -/

/-- The bypass register. -/
def jtagBypass (s : State) : State := emit s (.jtag "BYPASS" 1 0)

/-- An instruction that drives pins: only while RESET_N is low; otherwise it acts as BYPASS. The boundary register's
length and contents are not stated: a free value (log entry 6). -/
def jtagDrive (name : String) (s : State) : State :=
  if s.qd.boot.resetLow then let d := draw 64 s; emit d.2 (.jtag name 64 d.1.toNat) else jtagBypass s

/-- BYPASS. -/
def execBypass (s : State) : Res := .next (jtagBypass s)

/-- IDCODE. -/
def execIdcode (s : State) : Res :=
  .next (emit s (.jtag "IDCODE" 32
    (1 + Config.jtagMaker.toNat * 2 ^ 1 + 0x0D01 * 2 ^ 12 + Config.dieRev.toNat % 16 * 2 ^ 28)))

/-- SAMPLE/PRELOAD: drives no pin. -/
def execSamplePreload (s : State) : Res :=
  .next (let d := draw 64 s; emit d.2 (.jtag "SAMPLE/PRELOAD" 64 d.1.toNat))

/-- EXTEST. -/
def execExtest (s : State) : Res := .next (jtagDrive "EXTEST" s)
/-- EXTEST_PULSE. -/
def execExtestPulse (s : State) : Res := .next (jtagDrive "EXTEST_PULSE" s)
/-- EXTEST_TRAIN. -/
def execExtestTrain (s : State) : Res := .next (jtagDrive "EXTEST_TRAIN" s)
/-- CLAMP. -/
def execClamp (s : State) : Res := .next (jtagDrive "CLAMP" s)
/-- HIGHZ. -/
def execHighz (s : State) : Res := .next (jtagDrive "HIGHZ" s)

end Sys2Proof.Machine
end

