-- ==== Sys2Proof/Machine/Responses.lean ====
section
/-! DEFINITION. Responses, error notices and reply timeouts, dispatched to the source that waits for
them: the Svapo block, the switch core, the directory and the other units of the QD1 (R66, R72, R76, R152). -/

namespace Sys2Proof.Machine

/-! ### The units of the QD1 -/

/-- What a unit does when its request has been answered. -/
def unitDone (o : OutReq) (s : State) : State :=
  match o.purpose with
  | .unit u a b c =>
    if u = Un.FETCH then fetchDone o s
    else if u = Un.STATUS ∨ u = Un.COMPLETION ∨ u = Un.SIGNAL ∨ u = Un.NOTICE then queueAnswer u a b o.st s
    else if u = Un.DMA then dmaDone a b o s
    else if u = Un.MMSG then postCompletion a b c o.st s
    else if u = Un.GREEN then greenDone a b o s
    else if u = Un.RELAY then relayAnswered o a s
    else if u = Un.HM then (if b = 1 ∧ o.st = 0 then ekWord a c (o.bytes 8) s else s)
    else if u = Un.CUST then custDone a b c o s
    else if u = Un.SVC then svcAck a b o s
    else s
  | _ => s

/-- A response to a request that a unit of the QD1 made. A CNACK to a relayed read of a coherent line has it
sent again (R152). -/
def unitAnswer (p : Packet) (s : State) : State :=
  match s.reqOf .qd p.que.toNat p.tag.toNat p.tseq with
  | none => s
  | some o =>
    if p.opc = Opc.CNACK then
      match o.unitPart p with
      | none => s
      | some x => unitResend o x s
    else unitResponse unitDone o p s

/-- A response that reaches the QD1 (R66). -/
def qdResponse (v : Via) (p : Packet) (s : State) : State :=
  let q := p.que.toNat
  if s.fenced then s
  else if !p.complOk then pktEvent v St.COMPL p s
  else if q = 512 ∧ (p.dst = s.qdNode ∨ p.dst = s.partnerNode) then mergeResponse p s
  else if (p.dst ≠ s.qdNode ∧ !(s.qd.fault.takeover ∧ p.dst = s.partnerNode)) ∨ (544 ≤ q ∧ q ≤ 560) then s
  else if 528 ≤ q ∧ q < 544 then
    dirMemReply (q - 528) p.tag.toNat
      (if (p.status = St.OK ∨ p.status = St.OK_DUP) ∧ !p.e2eOk then St.CHECK else p.status) p.data s
  else unitAnswer p s

/-- RESPONSE_RECEIVE: a response is matched by QUE, TAG and TSEQ or discarded (R66). -/
def execResponseReceive (v : Via) (p : Packet) (s : State) : Res :=
  .next (
    if !p.rsp then s
    else if v.isSv then (if s.sv.inReset then s else svResponse v p s)
    else qdResponse v p s)

/-- ERROR_NOTICE: the response to a posted packet that was not performed (R72). At the QD1 only the switch
core sends posted packets that can fail. -/
def execErrorNotice (v : Via) (p : Packet) (s : State) : Res :=
  .next (
    if !p.rsp ∨ !(opcIsPosted p.opc) then s
    else if v.isSv then (if s.sv.inReset then s else svNotice v p s)
    else if s.fenced then s
    else if !p.complOk then pktEvent v St.COMPL p s
    else if p.que = 512 then mergeResponse p s
    else s)

/-- REPLY_TIMEOUT: the reply timer of a request expires (R76). -/
def execReplyTimeout (d : Side) (que : BitVec 10) (tag : BitVec 9) (s : State) : Res :=
  .next (
    let q := que.toNat
    match d with
    | .sv => svTimeout q tag.toNat s
    | .qd =>
      if q = 512 then mergeTimeout tag.toNat s
      else if 528 ≤ q ∧ q < 544 then dirMemTimeout (q - 528) tag.toNat s
      else match s.qd.srcs.reqs.find? (fun o => o.que == q && o.tag == tag.toNat) with
        | none => s
        | some o => unitTimeout unitDone o s)

/-! ### Coherence responses (R152, R154) -/

/-- CDATA reaches an agent, the directory or a unit that has read a coherent line (R161). -/
def execCdata (v : Via) (p : Packet) (s : State) : Res :=
  .next (
    if !p.rsp ∨ p.opc ≠ Opc.CDATA then s
    else if v.isSv then
      if s.sv.inReset then s
      else if !p.complOk then pktEvent v St.COMPL p s
      else if p.dst ≠ s.svNode then s
      else match s.reqOf .sv p.que.toNat p.tag.toNat p.tseq with
        | none => s
        | some o =>
          match o.purpose with
          | .agent l => agCdata o l p s
          | .relay pl req => relayDone o pl req p s
          | _ => s
    else if s.fenced then s
    else if !p.complOk then pktEvent v St.COMPL p s
    else if p.dst ≠ s.qdNode then s
    else if 544 ≤ p.que.toNat ∧ p.que.toNat < 560 then dirCdata p s
    else unitAnswer p s)

/-- CACK reaches an agent or the directory; kind 5 is a census report (R169). -/
def execCack (v : Via) (p : Packet) (s : State) : Res :=
  .next (
    if !p.rsp ∨ p.opc ≠ Opc.CACK then s
    else match v with
    | .plane n =>
      if s.sv.inReset then s
      else if !p.complOk then pktEvent v St.COMPL p s
      else if p.dst ≠ s.svNode then s
      else agCack n p s
    | .loop => s
    | _ =>
      if s.fenced then s
      else if !p.complOk then pktEvent v St.COMPL p s
      else if p.dst ≠ s.qdNode then s
      else if p.aux % 16 = 5 ∧ p.que = 560 then (if p.e2eOk then censusReport p s else s)
      else if 544 ≤ p.que.toNat ∧ p.que.toNat < 560 then dirCack p s
      else s)

end Sys2Proof.Machine
end

