-- ==== Sys2Proof/Machine/Dispatch.lean ====
section
/-! DEFINITION. The dispatch of commands to their meanings: one arm for each constructor of
Instr. -/

namespace Sys2Proof.Machine

/-- The effect of a command on everything but the queue. -/
def exec (i : Instr) (s : State) : Host.Outcome State Fault Refusal :=
  match i with
  | .flitReceive p u => Sys2Proof.Machine.execFlitReceive p u s
  | .flitSend p => Sys2Proof.Machine.execFlitSend p s
  | .retryTimeout p => Sys2Proof.Machine.execRetryTimeout p s
  | .ingressPacket ig p => Sys2Proof.Machine.execIngressPacket ig p s
  | .cellTimeMatch => Sys2Proof.Machine.execCellTimeMatch s
  | .hotWindowTick => Sys2Proof.Machine.execHotWindowTick s
  | .mergeUpdateSend e => Sys2Proof.Machine.execMergeUpdateSend e s
  | .mergeUpdateResponse p => Sys2Proof.Machine.execMergeUpdateResponse p s
  | .combineRecord r => Sys2Proof.Machine.execCombineRecord r s
  | .combineRecordAck e => Sys2Proof.Machine.execCombineRecordAck e s
  | .rqoRequest berth r => Sys2Proof.Machine.execRqoRequest berth r s
  | .ld v p => Sys2Proof.Machine.execLd v p s
  | .st v p => Sys2Proof.Machine.execSt v p s
  | .sta v p => Sys2Proof.Machine.execSta v p s
  | .stm v p => Sys2Proof.Machine.execStm v p s
  | .stma v p => Sys2Proof.Machine.execStma v p s
  | .add v p => Sys2Proof.Machine.execAdd v p s
  | .fadd v p => Sys2Proof.Machine.execFadd v p s
  | .amin v p => Sys2Proof.Machine.execAmin v p s
  | .amax v p => Sys2Proof.Machine.execAmax v p s
  | .swap v p => Sys2Proof.Machine.execSwap v p s
  | .cas v p => Sys2Proof.Machine.execCas v p s
  | .aand v p => Sys2Proof.Machine.execAand v p s
  | .aor v p => Sys2Proof.Machine.execAor v p s
  | .axor v p => Sys2Proof.Machine.execAxor v p s
  | .fpadd v p => Sys2Proof.Machine.execFpadd v p s
  | .red v p => Sys2Proof.Machine.execRed v p s
  | .reda v p => Sys2Proof.Machine.execReda v p s
  | .msg v p => Sys2Proof.Machine.execMsg v p s
  | .trd v p => Sys2Proof.Machine.execTrd v p s
  | .twr v ps => Sys2Proof.Machine.execTwr v ps s
  | .tileRegistrationLapse d src que tag => Sys2Proof.Machine.execTileRegistrationLapse d src que tag s
  | .fence v p => Sys2Proof.Machine.execFence v p s
  | .fenceAnswer v src que cls => Sys2Proof.Machine.execFenceAnswer v src que cls s
  | .bell v p => Sys2Proof.Machine.execBell v p s
  | .managementAccess plane p => Sys2Proof.Machine.execManagementAccess plane p s
  | .millMsgReceive v p => Sys2Proof.Machine.execMillMsgReceive v p s
  | .window63Access v p => Sys2Proof.Machine.execWindow63Access v p s
  | .responseReceive v p => Sys2Proof.Machine.execResponseReceive v p s
  | .errorNotice v p => Sys2Proof.Machine.execErrorNotice v p s
  | .replyTimeout d que tag => Sys2Proof.Machine.execReplyTimeout d que tag s
  | .replayEntryExpire d k => Sys2Proof.Machine.execReplayEntryExpire d k s
  | .mirrorWrite m => Sys2Proof.Machine.execMirrorWrite m s
  | .mirrorAck id => Sys2Proof.Machine.execMirrorAck id s
  | .portControllerDown plane => Sys2Proof.Machine.execPortControllerDown plane s
  | .portControllerUp plane => Sys2Proof.Machine.execPortControllerUp plane s
  | .apertureWrite ig w v => Sys2Proof.Machine.execApertureWrite ig w v s
  | .svPtrL2f v => Sys2Proof.Machine.execSvPtrL2f v s
  | .svPtrF2l v => Sys2Proof.Machine.execSvPtrF2l v s
  | .svWtCmd v => Sys2Proof.Machine.execSvWtCmd v s
  | .winWithdraw d src v => Sys2Proof.Machine.execWinWithdraw d src v s
  | .mirrorWithdrawUpdate id win w2 => Sys2Proof.Machine.execMirrorWithdrawUpdate id win w2 s
  | .withdrawComplete d win => Sys2Proof.Machine.execWithdrawComplete d win s
  | .withdrawTimeout d win => Sys2Proof.Machine.execWithdrawTimeout d win s
  | .pageTableReadDone d id v => Sys2Proof.Machine.execPageTableReadDone d id v s
  | .streamPrefetch id => Sys2Proof.Machine.execStreamPrefetch id s
  | .descriptorFetch q => Sys2Proof.Machine.execDescriptorFetch q s
  | .descriptorFetchReturn p => Sys2Proof.Machine.execDescriptorFetchReturn p s
  | .descriptorStart q ridx => Sys2Proof.Machine.execDescriptorStart q ridx s
  | .descriptorNop q ridx => Sys2Proof.Machine.execDescriptorNop q ridx s
  | .statusWordWrite q => Sys2Proof.Machine.execStatusWordWrite q s
  | .completionWrite q ridx => Sys2Proof.Machine.execCompletionWrite q ridx s
  | .chunkSignalWrite q ridx => Sys2Proof.Machine.execChunkSignalWrite q ridx s
  | .sqLoad src v => Sys2Proof.Machine.execSqLoad src v s
  | .sqUnbind src v => Sys2Proof.Machine.execSqUnbind src v s
  | .unbindProgressEvent q => Sys2Proof.Machine.execUnbindProgressEvent q s
  | .unbindComplete q => Sys2Proof.Machine.execUnbindComplete q s
  | .sqBindingScrub => Sys2Proof.Machine.execSqBindingScrub s
  | .windowTableScrub d => Sys2Proof.Machine.execWindowTableScrub d s
  | .routeScrub => Sys2Proof.Machine.execRouteScrub s
  | .directoryScrub f => Sys2Proof.Machine.execDirectoryScrub f s
  | .granaryScrub f => Sys2Proof.Machine.execGranaryScrub f s
  | .hamCfgWrite src h w v => Sys2Proof.Machine.execHamCfgWrite src h w v s
  | .cohWinWrite src ig v => Sys2Proof.Machine.execCohWinWrite src ig v s
  | .setMode src v => Sys2Proof.Machine.execSetMode src v s
  | .setModeSweep src v => Sys2Proof.Machine.execSetModeSweep src v s
  | .removeWindow src v => Sys2Proof.Machine.execRemoveWindow src v s
  | .cohCmdDone => Sys2Proof.Machine.execCohCmdDone s
  | .agentLoad q tag => Sys2Proof.Machine.execAgentLoad q tag s
  | .agentStore q tag => Sys2Proof.Machine.execAgentStore q tag s
  | .agentReplace line => Sys2Proof.Machine.execAgentReplace line s
  | .rdsh v p => Sys2Proof.Machine.execRdsh v p s
  | .rdown v p => Sys2Proof.Machine.execRdown v p s
  | .rdna v p => Sys2Proof.Machine.execRdna v p s
  | .upgr v p => Sys2Proof.Machine.execUpgr v p s
  | .wbd v p => Sys2Proof.Machine.execWbd v p s
  | .evict v p => Sys2Proof.Machine.execEvict v p s
  | .snpsh plane p => Sys2Proof.Machine.execSnpsh plane p s
  | .snpinv plane p => Sys2Proof.Machine.execSnpinv plane p s
  | .snpna plane p => Sys2Proof.Machine.execSnpna plane p s
  | .snpcen plane p => Sys2Proof.Machine.execSnpcen plane p s
  | .cdata v p => Sys2Proof.Machine.execCdata v p s
  | .cack v p => Sys2Proof.Machine.execCack v p s
  | .cnack plane p => Sys2Proof.Machine.execCnack plane p s
  | .agentNackResend line => Sys2Proof.Machine.execAgentNackResend line s
  | .directoryMemoryReply o => Sys2Proof.Machine.execDirectoryMemoryReply o s
  | .censusTimeout slot => Sys2Proof.Machine.execCensusTimeout slot s
  | .reservationExpire line => Sys2Proof.Machine.execReservationExpire line s
  | .coherenceTimeout d que tag => Sys2Proof.Machine.execCoherenceTimeout d que tag s
  | .relayedRdna plane p => Sys2Proof.Machine.execRelayedRdna plane p s
  | .way11Migrate => Sys2Proof.Machine.execWay11Migrate s
  | .linkDown p c => Sys2Proof.Machine.execLinkDown p c s
  | .routeHold src v => Sys2Proof.Machine.execRouteHold src v s
  | .routeDrained => Sys2Proof.Machine.execRouteDrained s
  | .routeDrainTimeout => Sys2Proof.Machine.execRouteDrainTimeout s
  | .routeUpdate src v => Sys2Proof.Machine.execRouteUpdate src v s
  | .routeRelease src v => Sys2Proof.Machine.execRouteRelease src v s
  | .rtLoad src v => Sys2Proof.Machine.execRtLoad src v s
  | .telemetrySample => Sys2Proof.Machine.execTelemetrySample s
  | .seed q ridx => Sys2Proof.Machine.execSeed q ridx s
  | .reduce q ridx => Sys2Proof.Machine.execReduce q ridx s
  | .allred q ridx => Sys2Proof.Machine.execAllred q ridx s
  | .rscat q ridx => Sys2Proof.Machine.execRscat q ridx s
  | .agath q ridx => Sys2Proof.Machine.execAgath q ridx s
  | .bcast q ridx => Sys2Proof.Machine.execBcast q ridx s
  | .shift q ridx => Sys2Proof.Machine.execShift q ridx s
  | .perm q ridx => Sys2Proof.Machine.execPerm q ridx s
  | .disp q ridx => Sys2Proof.Machine.execDisp q ridx s
  | .comb q ridx => Sys2Proof.Machine.execComb q ridx s
  | .collectiveStart ctx coll => Sys2Proof.Machine.execCollectiveStart ctx coll s
  | .collectiveArrivalTimeout ctx coll => Sys2Proof.Machine.execCollectiveArrivalTimeout ctx coll s
  | .greenChunk ctx coll c d => Sys2Proof.Machine.execGreenChunk ctx coll c d s
  | .ringDigest ctx coll fromPrev digest => Sys2Proof.Machine.execRingDigest ctx coll fromPrev digest s
  | .ringChunk ctx coll c gather d => Sys2Proof.Machine.execRingChunk ctx coll c gather d s
  | .collectiveAbort ctx coll node cause => Sys2Proof.Machine.execCollectiveAbort ctx coll node cause s
  | .leaseExpire w => Sys2Proof.Machine.execLeaseExpire w s
  | .meshRequest src => Sys2Proof.Machine.execMeshRequest src s
  | .meshResponse m => Sys2Proof.Machine.execMeshResponse m s
  | .meshMessage src => Sys2Proof.Machine.execMeshMessage src s
  | .messageCreditReturn m q => Sys2Proof.Machine.execMessageCreditReturn m q s
  | .dmaRead m => Sys2Proof.Machine.execDmaRead m s
  | .dmaWrite m => Sys2Proof.Machine.execDmaWrite m s
  | .copy m => Sys2Proof.Machine.execCopy m s
  | .dmaFence m => Sys2Proof.Machine.execDmaFence m s
  | .relst m => Sys2Proof.Machine.execRelst m s
  | .acqld m => Sys2Proof.Machine.execAcqld m s
  | .dmaDescriptorComplete m id => Sys2Proof.Machine.execDmaDescriptorComplete m id s
  | .create q ridx => Sys2Proof.Machine.execCreate q ridx s
  | .allotPlace => Sys2Proof.Machine.execAllotPlace s
  | .createWaitTimeout q ridx => Sys2Proof.Machine.execCreateWaitTimeout q ridx s
  | .allotLoad q ridx d => Sys2Proof.Machine.execAllotLoad q ridx d s
  | .allotLoadDone q ridx => Sys2Proof.Machine.execAllotLoadDone q ridx s
  | .allotStart q ridx => Sys2Proof.Machine.execAllotStart q ridx s
  | .allotRunEnd a => Sys2Proof.Machine.execAllotRunEnd a s
  | .allotHalt q ridx => Sys2Proof.Machine.execAllotHalt q ridx s
  | .allotHaltDone a => Sys2Proof.Machine.execAllotHaltDone a s
  | .free q ridx => Sys2Proof.Machine.execFree q ridx s
  | .saluAdd m f => Sys2Proof.Machine.execSaluAdd m f s
  | .sub m f => Sys2Proof.Machine.execSub m f s
  | .saluAnd m f => Sys2Proof.Machine.execSaluAnd m f s
  | .saluOr m f => Sys2Proof.Machine.execSaluOr m f s
  | .saluXor m f => Sys2Proof.Machine.execSaluXor m f s
  | .sll m f => Sys2Proof.Machine.execSll m f s
  | .srl m f => Sys2Proof.Machine.execSrl m f s
  | .sra m f => Sys2Proof.Machine.execSra m f s
  | .slt m f => Sys2Proof.Machine.execSlt m f s
  | .sltu m f => Sys2Proof.Machine.execSltu m f s
  | .mul m f => Sys2Proof.Machine.execMul m f s
  | .mulh m f => Sys2Proof.Machine.execMulh m f s
  | .mulhu m f => Sys2Proof.Machine.execMulhu m f s
  | .div m f => Sys2Proof.Machine.execDiv m f s
  | .divu m f => Sys2Proof.Machine.execDivu m f s
  | .rem m f => Sys2Proof.Machine.execRem m f s
  | .remu m f => Sys2Proof.Machine.execRemu m f s
  | .saluMin m f => Sys2Proof.Machine.execSaluMin m f s
  | .saluMax m f => Sys2Proof.Machine.execSaluMax m f s
  | .minu m f => Sys2Proof.Machine.execMinu m f s
  | .maxu m f => Sys2Proof.Machine.execMaxu m f s
  | .clz m f => Sys2Proof.Machine.execClz m f s
  | .ctz m f => Sys2Proof.Machine.execCtz m f s
  | .popc m f => Sys2Proof.Machine.execPopc m f s
  | .addi m f => Sys2Proof.Machine.execAddi m f s
  | .andi m f => Sys2Proof.Machine.execAndi m f s
  | .ori m f => Sys2Proof.Machine.execOri m f s
  | .xori m f => Sys2Proof.Machine.execXori m f s
  | .lui m f => Sys2Proof.Machine.execLui m f s
  | .shi m f => Sys2Proof.Machine.execShi m f s
  | .slti m f => Sys2Proof.Machine.execSlti m f s
  | .lb m f => Sys2Proof.Machine.execLb m f s
  | .lbu m f => Sys2Proof.Machine.execLbu m f s
  | .lh m f => Sys2Proof.Machine.execLh m f s
  | .lhu m f => Sys2Proof.Machine.execLhu m f s
  | .lw m f => Sys2Proof.Machine.execLw m f s
  | .lwu m f => Sys2Proof.Machine.execLwu m f s
  | .scalarLd m f => Sys2Proof.Machine.execScalarLd m f s
  | .sb m f => Sys2Proof.Machine.execSb m f s
  | .sh m f => Sys2Proof.Machine.execSh m f s
  | .sw m f => Sys2Proof.Machine.execSw m f s
  | .sd m f => Sys2Proof.Machine.execSd m f s
  | .atomAdd m f size => Sys2Proof.Machine.execAtomAdd m f size s
  | .atomSwap m f size => Sys2Proof.Machine.execAtomSwap m f size s
  | .beq m f => Sys2Proof.Machine.execBeq m f s
  | .bne m f => Sys2Proof.Machine.execBne m f s
  | .blt m f => Sys2Proof.Machine.execBlt m f s
  | .bge m f => Sys2Proof.Machine.execBge m f s
  | .bltu m f => Sys2Proof.Machine.execBltu m f s
  | .bgeu m f => Sys2Proof.Machine.execBgeu m f s
  | .jal m off => Sys2Proof.Machine.execJal m off s
  | .jalr m f => Sys2Proof.Machine.execJalr m f s
  | .vadd m f => Sys2Proof.Machine.execVadd m f s
  | .vsub m f => Sys2Proof.Machine.execVsub m f s
  | .vmul m f => Sys2Proof.Machine.execVmul m f s
  | .vand m f => Sys2Proof.Machine.execVand m f s
  | .vor m f => Sys2Proof.Machine.execVor m f s
  | .vxor m f => Sys2Proof.Machine.execVxor m f s
  | .vsll m f => Sys2Proof.Machine.execVsll m f s
  | .vsrl m f => Sys2Proof.Machine.execVsrl m f s
  | .vsra m f => Sys2Proof.Machine.execVsra m f s
  | .vmin m f => Sys2Proof.Machine.execVmin m f s
  | .vmax m f => Sys2Proof.Machine.execVmax m f s
  | .vminu m f => Sys2Proof.Machine.execVminu m f s
  | .vmaxu m f => Sys2Proof.Machine.execVmaxu m f s
  | .vcmpeq m f => Sys2Proof.Machine.execVcmpeq m f s
  | .vcmplt m f => Sys2Proof.Machine.execVcmplt m f s
  | .vcmpltu m f => Sys2Proof.Machine.execVcmpltu m f s
  | .vsel m f => Sys2Proof.Machine.execVsel m f s
  | .vperm m f => Sys2Proof.Machine.execVperm m f s
  | .vbcast m f => Sys2Proof.Machine.execVbcast m f s
  | .vext m f => Sys2Proof.Machine.execVext m f s
  | .vins m f => Sys2Proof.Machine.execVins m f s
  | .vfadd m f ty => Sys2Proof.Machine.execVfadd m f ty s
  | .vfsub m f ty => Sys2Proof.Machine.execVfsub m f ty s
  | .vfmul m f ty => Sys2Proof.Machine.execVfmul m f ty s
  | .vfma m f ty => Sys2Proof.Machine.execVfma m f ty s
  | .vfmin m f ty => Sys2Proof.Machine.execVfmin m f ty s
  | .vfmax m f ty => Sys2Proof.Machine.execVfmax m f ty s
  | .vexp2 m f ty => Sys2Proof.Machine.execVexp2 m f ty s
  | .vrcp m f ty => Sys2Proof.Machine.execVrcp m f ty s
  | .vrsq m f ty => Sys2Proof.Machine.execVrsq m f ty s
  | .vfcmpeq m f ty => Sys2Proof.Machine.execVfcmpeq m f ty s
  | .vfcmplt m f ty => Sys2Proof.Machine.execVfcmplt m f ty s
  | .vfcmple m f ty => Sys2Proof.Machine.execVfcmple m f ty s
  | .vcvtWiden m f fn => Sys2Proof.Machine.execVcvtWiden m f fn s
  | .vcvtNarrow m f fn => Sys2Proof.Machine.execVcvtNarrow m f fn s
  | .vld m f => Sys2Proof.Machine.execVld m f s
  | .vst m f => Sys2Proof.Machine.execVst m f s
  | .vgather m f => Sys2Proof.Machine.execVgather m f s
  | .vscatter m f => Sys2Proof.Machine.execVscatter m f s
  | .rsumf m f => Sys2Proof.Machine.execRsumf m f s
  | .rmaxf m f => Sys2Proof.Machine.execRmaxf m f s
  | .rminf m f => Sys2Proof.Machine.execRminf m f s
  | .rsumi m f => Sys2Proof.Machine.execRsumi m f s
  | .rmaxi m f => Sys2Proof.Machine.execRmaxi m f s
  | .rmini m f => Sys2Proof.Machine.execRmini m f s
  | .tmma m f => Sys2Proof.Machine.execTmma m f s
  | .tmmaComplete m => Sys2Proof.Machine.execTmmaComplete m s
  | .tzero m f => Sys2Proof.Machine.execTzero m f s
  | .tld m f => Sys2Proof.Machine.execTld m f s
  | .tst m f => Sys2Proof.Machine.execTst m f s
  | .tstb m f => Sys2Proof.Machine.execTstb m f s
  | .trow m f => Sys2Proof.Machine.execTrow m f s
  | .twrow m f => Sys2Proof.Machine.execTwrow m f s
  | .qcfg m f ep => Sys2Proof.Machine.execQcfg m f ep s
  | .qsend m f ep => Sys2Proof.Machine.execQsend m f ep s
  | .qrecv m f ep => Sys2Proof.Machine.execQrecv m f ep s
  | .qpoll m f ep => Sys2Proof.Machine.execQpoll m f ep s
  | .qstat m f ep => Sys2Proof.Machine.execQstat m f ep s
  | .dmaq m f c => Sys2Proof.Machine.execDmaq m f c s
  | .dwait m f c => Sys2Proof.Machine.execDwait m f c s
  | .dread m f c => Sys2Proof.Machine.execDread m f c s
  | .dclr m f c => Sys2Proof.Machine.execDclr m f c s
  | .dlog m f c => Sys2Proof.Machine.execDlog m f c s
  | .dwaitf m f c => Sys2Proof.Machine.execDwaitf m f c s
  | .csrRead m f => Sys2Proof.Machine.execCsrRead m f s
  | .csrWrite m f => Sys2Proof.Machine.execCsrWrite m f s
  | .csrSwap m f => Sys2Proof.Machine.execCsrSwap m f s
  | .csrSet m f => Sys2Proof.Machine.execCsrSet m f s
  | .sysNop m f => Sys2Proof.Machine.execSysNop m f s
  | .sysFence m f => Sys2Proof.Machine.execSysFence m f s
  | .sysHalt m f => Sys2Proof.Machine.execSysHalt m f s
  | .brk m f => Sys2Proof.Machine.execBrk m f s
  | .eret m f => Sys2Proof.Machine.execEret m f s
  | .sysAbort m f => Sys2Proof.Machine.execSysAbort m f s
  | .bar m f => Sys2Proof.Machine.execBar m f s
  | .waitt m f => Sys2Proof.Machine.execWaitt m f s
  | .waittExpire m => Sys2Proof.Machine.execWaittExpire m s
  | .tfence m f => Sys2Proof.Machine.execTfence m f s
  | .debugHalt src m => Sys2Proof.Machine.execDebugHalt src m s
  | .debugStep src m => Sys2Proof.Machine.execDebugStep src m s
  | .debugResume src m => Sys2Proof.Machine.execDebugResume src m s
  | .debugRegWrite src m off v => Sys2Proof.Machine.execDebugRegWrite src m off v s
  | .pool q ridx => Sys2Proof.Machine.execPool q ridx s
  | .pfree q ridx => Sys2Proof.Machine.execPfree q ridx s
  | .openSeq q ridx => Sys2Proof.Machine.execOpenSeq q ridx s
  | .append q ridx d => Sys2Proof.Machine.execAppend q ridx d s
  | .kvRead q ridx => Sys2Proof.Machine.execKvRead q ridx s
  | .trunc q ridx => Sys2Proof.Machine.execTrunc q ridx s
  | .close q ridx => Sys2Proof.Machine.execClose q ridx s
  | .part q ridx d => Sys2Proof.Machine.execPart q ridx d s
  | .optsLoad q ridx d => Sys2Proof.Machine.execOptsLoad q ridx d s
  | .optsStep q ridx => Sys2Proof.Machine.execOptsStep q ridx s
  | .save q ridx => Sys2Proof.Machine.execSave q ridx s
  | .optsBlockCommit ctx coll b g => Sys2Proof.Machine.execOptsBlockCommit ctx coll b g s
  | .rsiResponse tag status data => Sys2Proof.Machine.execRsiResponse tag status data s
  | .rqiAnswerLate tag => Sys2Proof.Machine.execRqiAnswerLate tag s
  | .svLiveWrite plane v => Sys2Proof.Machine.execSvLiveWrite plane v s
  | .mapRestore => Sys2Proof.Machine.execMapRestore s
  | .svapoBringup slot live => Sys2Proof.Machine.execSvapoBringup slot live s
  | .keyLoadCommit plane => Sys2Proof.Machine.execKeyLoadCommit plane s
  | .holderRetirePhase0 plane k => Sys2Proof.Machine.execHolderRetirePhase0 plane k s
  | .holderRetirePhase1 plane k => Sys2Proof.Machine.execHolderRetirePhase1 plane k s
  | .holderZeroizeTimeout k => Sys2Proof.Machine.execHolderZeroizeTimeout k s
  | .holderSlotRelease k => Sys2Proof.Machine.execHolderSlotRelease k s
  | .caFlush => Sys2Proof.Machine.execCaFlush s
  | .limiterPeriod => Sys2Proof.Machine.execLimiterPeriod s
  | .blockReset => Sys2Proof.Machine.execBlockReset s
  | .signalEnergyDetect p lanes => Sys2Proof.Machine.execSignalEnergyDetect p lanes s
  | .trainingStepDone p => Sys2Proof.Machine.execTrainingStepDone p s
  | .trainingRestart p => Sys2Proof.Machine.execTrainingRestart p s
  | .ts p lane coef st => Sys2Proof.Machine.execTs p lane coef st s
  | .mark p lane => Sys2Proof.Machine.execMark p lane s
  | .ident p node plane port role => Sys2Proof.Machine.execIdent p node plane port role s
  | .crinit p c0 c1 c2 c3 => Sys2Proof.Machine.execCrinit p c0 c1 c2 c3 s
  | .mcred p n => Sys2Proof.Machine.execMcred p n s
  | .pmreq p st => Sys2Proof.Machine.execPmreq p st s
  | .pmack p st => Sys2Proof.Machine.execPmack p st s
  | .pmnak p st => Sys2Proof.Machine.execPmnak p st s
  | .retrain p width => Sys2Proof.Machine.execRetrain p width s
  | .test p pat errs => Sys2Proof.Machine.execTest p pat errs s
  | .laneFail p lanes => Sys2Proof.Machine.execLaneFail p lanes s
  | .pmExit p => Sys2Proof.Machine.execPmExit p s
  | .lqAutoTimeout p => Sys2Proof.Machine.execLqAutoTimeout p s
  | .portReset p => Sys2Proof.Machine.execPortReset p s
  | .lqRequest p => Sys2Proof.Machine.execLqRequest p s
  | .ldRequest p => Sys2Proof.Machine.execLdRequest p s
  | .portTest p => Sys2Proof.Machine.execPortTest p s
  | .transferClose rack => Sys2Proof.Machine.execTransferClose rack s
  | .ferryData p sg => Sys2Proof.Machine.execFerryData p sg s
  | .ferryResp p sg => Sys2Proof.Machine.execFerryResp p sg s
  | .ferryAck p sg => Sys2Proof.Machine.execFerryAck p sg s
  | .ferryAbort p sg => Sys2Proof.Machine.execFerryAbort p sg s
  | .ferryAckSend rack xid => Sys2Proof.Machine.execFerryAckSend rack xid s
  | .segmentResendTimeout rack xid seg => Sys2Proof.Machine.execSegmentResendTimeout rack xid seg s
  | .peerRackLost rack => Sys2Proof.Machine.execPeerRackLost rack s
  | .ferryKeyExpire => Sys2Proof.Machine.execFerryKeyExpire s
  | .timeMark l v c => Sys2Proof.Machine.execTimeMark l v c s
  | .rslLockLoss l => Sys2Proof.Machine.execRslLockLoss l s
  | .slip l lock => Sys2Proof.Machine.execSlip l lock s
  | .regrd l seq off => Sys2Proof.Machine.execRegrd l seq off s
  | .regwr l seq off v => Sys2Proof.Machine.execRegwr l seq off v s
  | .bulkBlock l imgid off d crcOk => Sys2Proof.Machine.execBulkBlock l imgid off d crcOk s
  | .imgreqTimeout off => Sys2Proof.Machine.execImgreqTimeout off s
  | .healthSend => Sys2Proof.Machine.execHealthSend s
  | .referenceLoss l => Sys2Proof.Machine.execReferenceLoss l s
  | .referenceReturn l => Sys2Proof.Machine.execReferenceReturn l s
  | .holdoverEvent => Sys2Proof.Machine.execHoldoverEvent s
  | .vfLoopTick v => Sys2Proof.Machine.execVfLoopTick v s
  | .dvfsSettled => Sys2Proof.Machine.execDvfsSettled s
  | .dvfsUpTimeout => Sys2Proof.Machine.execDvfsUpTimeout s
  | .clockStretch grid => Sys2Proof.Machine.execClockStretch grid s
  | .eqLoopAdapt lane coef => Sys2Proof.Machine.execEqLoopAdapt lane coef s
  | .bufLoopTick => Sys2Proof.Machine.execBufLoopTick s
  | .placementLoopTick util frame => Sys2Proof.Machine.execPlacementLoopTick util frame s
  | .frameMoveDone => Sys2Proof.Machine.execFrameMoveDone s
  | .clockGate src u => Sys2Proof.Machine.execClockGate src u s
  | .clockUngate src u => Sys2Proof.Machine.execClockUngate src u s
  | .fmeasStart src => Sys2Proof.Machine.execFmeasStart src s
  | .fmeasDone count => Sys2Proof.Machine.execFmeasDone count s
  | .throttleAssert => Sys2Proof.Machine.execThrottleAssert s
  | .thermalThrottle temp => Sys2Proof.Machine.execThermalThrottle temp s
  | .throttleStep => Sys2Proof.Machine.execThrottleStep s
  | .throttleEnd => Sys2Proof.Machine.execThrottleEnd s
  | .thermalTrip temp => Sys2Proof.Machine.execThermalTrip temp s
  | .pwrfail => Sys2Proof.Machine.execPwrfail s
  | .pwrfailRelease => Sys2Proof.Machine.execPwrfailRelease s
  | .brownOut rail => Sys2Proof.Machine.execBrownOut rail s
  | .report q ridx d => Sys2Proof.Machine.execReport q ridx d s
  | .deliver q ridx d => Sys2Proof.Machine.execDeliver q ridx d s
  | .retire q ridx => Sys2Proof.Machine.execRetire q ridx s
  | .counters q ridx => Sys2Proof.Machine.execCounters q ridx s
  | .keyRetire src v => Sys2Proof.Machine.execKeyRetire src v s
  | .retireDrainEnd k => Sys2Proof.Machine.execRetireDrainEnd k s
  | .retireComplete k => Sys2Proof.Machine.execRetireComplete k s
  | .retireHoldExpire k => Sys2Proof.Machine.execRetireHoldExpire k s
  | .custScrub src v => Sys2Proof.Machine.execCustScrub src v s
  | .scrubDone => Sys2Proof.Machine.execScrubDone s
  | .selftest src v => Sys2Proof.Machine.execSelftest src v s
  | .zeroize src v => Sys2Proof.Machine.execZeroize src v s
  | .entropyTestFail test => Sys2Proof.Machine.execEntropyTestFail test s
  | .partnerPoll states => Sys2Proof.Machine.execPartnerPoll states s
  | .planeDeclare => Sys2Proof.Machine.execPlaneDeclare s
  | .fenceStop => Sys2Proof.Machine.execFenceStop s
  | .liveNotice slot mask => Sys2Proof.Machine.execLiveNotice slot mask s
  | .pairExpose => Sys2Proof.Machine.execPairExpose s
  | .partnerLinkUp => Sys2Proof.Machine.execPartnerLinkUp s
  | .resyncDone => Sys2Proof.Machine.execResyncDone s
  | .declare l index => Sys2Proof.Machine.execDeclare l index s
  | .pairlost l index => Sys2Proof.Machine.execPairlost l index s
  | .spare l index => Sys2Proof.Machine.execSpare l index s
  | .spareTestDone ok => Sys2Proof.Machine.execSpareTestDone ok s
  | .spareLoadDone => Sys2Proof.Machine.execSpareLoadDone s
  | .spareAdmit => Sys2Proof.Machine.execSpareAdmit s
  | .ftAdmit l index => Sys2Proof.Machine.execFtAdmit l index s
  | .readmit l index => Sys2Proof.Machine.execReadmit l index s
  | .abortload l index => Sys2Proof.Machine.execAbortload l index s
  | .eplost l index => Sys2Proof.Machine.execEplost l index s
  | .boundary q ridx => Sys2Proof.Machine.execBoundary q ridx s
  | .portVectorExchange down => Sys2Proof.Machine.execPortVectorExchange down s
  | .endPointDeclare slot => Sys2Proof.Machine.execEndPointDeclare slot s
  | .hangTimeout w => Sys2Proof.Machine.execHangTimeout w s
  | .arm src => Sys2Proof.Machine.execArm src s
  | .trig src => Sys2Proof.Machine.execTrig src s
  | .postTimeout => Sys2Proof.Machine.execPostTimeout s
  | .replay src v => Sys2Proof.Machine.execReplay src v s
  | .ledgerAbort src v => Sys2Proof.Machine.execLedgerAbort src v s
  | .replayRecord => Sys2Proof.Machine.execReplayRecord s
  | .powerOn tray => Sys2Proof.Machine.execPowerOn tray s
  | .resetNAssert => Sys2Proof.Machine.execResetNAssert s
  | .bootStepDone r => Sys2Proof.Machine.execBootStepDone r s
  | .fr l seq arg index => Sys2Proof.Machine.execFr l seq arg index s
  | .wr l seq arg index => Sys2Proof.Machine.execWr l seq arg index s
  | .gr l seq arg index => Sys2Proof.Machine.execGr l seq arg index s
  | .pr l seq arg index => Sys2Proof.Machine.execPr l seq arg index s
  | .boot l seq arg index => Sys2Proof.Machine.execBoot l seq arg index s
  | .setup l seq arg index => Sys2Proof.Machine.execSetup l seq arg index s
  | .run l seq arg index => Sys2Proof.Machine.execRun l seq arg index s
  | .gpin l seq arg index => Sys2Proof.Machine.execGpin l seq arg index s
  | .gpout l seq arg index => Sys2Proof.Machine.execGpout l seq arg index s
  | .hsin l seq arg index => Sys2Proof.Machine.execHsin l seq arg index s
  | .hsout l seq arg index => Sys2Proof.Machine.execHsout l seq arg index s
  | .dsin l seq arg index => Sys2Proof.Machine.execDsin l seq arg index s
  | .wake l seq arg index => Sys2Proof.Machine.execWake l seq arg index s
  | .wtCmd src v => Sys2Proof.Machine.execWtCmd src v s
  | .registerWrite d src off v => Sys2Proof.Machine.execRegisterWrite d src off v s
  | .bypass => Sys2Proof.Machine.execBypass s
  | .idcode => Sys2Proof.Machine.execIdcode s
  | .samplePreload => Sys2Proof.Machine.execSamplePreload s
  | .extest => Sys2Proof.Machine.execExtest s
  | .extestPulse => Sys2Proof.Machine.execExtestPulse s
  | .extestTrain => Sys2Proof.Machine.execExtestTrain s
  | .clamp => Sys2Proof.Machine.execClamp s
  | .highz => Sys2Proof.Machine.execHighz s
  | .tokenBucketRefill dst cls2 => Sys2Proof.Machine.execTokenBucketRefill dst cls2 s
  | .trainingStepFail p lanes => Sys2Proof.Machine.execTrainingStepFail p lanes s
  | .blockResetRelease => Sys2Proof.Machine.execBlockResetRelease s
  | .partnerImgreq kind off len => Sys2Proof.Machine.execPartnerImgreq kind off len s
  | .selftestDone failed => Sys2Proof.Machine.execSelftestDone failed s
  | .allotFreeDone a => Sys2Proof.Machine.execAllotFreeDone a s

end Sys2Proof.Machine
end

