-- ==== Sys2Proof/WellFormed.lean ====
section
/-! DEFINITION. Well-formed commands: what the spec fixes about the shape of an operand and its type does
not say (R52, R53, R57, R59, R391, R407, R508). The meanings are total and answer for other operands too. -/

namespace Sys2Proof

open Sys2Proof.Machine

/-- The parts of a packet as R53 lists them: GEO says whether the geometry slots are there, only a masked
store has the mask slot, and the payload is at most 256 bytes. -/
def Packet.wf (p : Packet) : Bool :=
  decide (p.data.length ≤ 256) && (p.geom.isSome == p.geo) &&
  (p.mask.isSome == (!p.rsp && (p.opc == Opc.STM || p.opc == Opc.STMA)))

/-- A FEC block as a lane receiver hands it over: 272 bytes (R391). -/
def RxUnit.wf (u : RxUnit) : Bool := decide (u.block.length = 272)

/-- A Ferry segment: at most 256 bytes of payload, as many as its header says, and a 16-byte tag (R407). -/
def Segment.wf (g : Segment) : Bool :=
  decide (g.data.length ≤ 256) && decide (g.data.length = fget g.h0 35 9) && decide (g.tag.length = 16)

/-- The inputs of a chunk name each member once (R241). -/
def GreenIn.wf (d : GreenIn) : Bool := decide (d.members.map (·.member)).Nodup

/-- Home memory answers a line read with 128 bytes and an error or a write with none (R142, R157). -/
def MemReply.wf (m : MemReply) : Bool := decide (m.data.length = 128) || decide (m.data.length = 0)

/-- A combine record names each member once (R190). -/
def CombineRec.wf (r : CombineRec) : Bool := decide (r.members.map (·.key)).Nodup && r.head.wf

/-- A request unit carries at most 65,536 bytes (R361). -/
def Rqo.wf (r : Rqo) : Bool := decide (r.data.length ≤ 65536)

/-- A page-table entry is 8 bytes (R31). -/
def ReadResult.wf : ReadResult → Bool
  | .ok d => decide (d.length = 8)
  | .bad => true

/-- A mirrored write carries at least one byte; one of the receiver's own node is not wrapped twice (R117,
R475). -/
def MirrorMsg.wf : MirrorMsg → Bool
  | .data _ _ d => decide (1 ≤ d.length)
  | .home (.home _) => false
  | _ => true

/-- Well-formedness of a command. -/
def Instr.wf : Instr → Bool
  | .flitReceive _ u => u.wf
  | .flitSend _ => true
  | .retryTimeout _ => true
  | .ingressPacket _ p => p.wf
  | .cellTimeMatch => true
  | .hotWindowTick => true
  | .mergeUpdateSend _ => true
  | .mergeUpdateResponse p => p.wf
  | .combineRecord r => r.wf
  | .combineRecordAck _ => true
  | .rqoRequest _ r => r.wf
  | .ld _ p => p.wf
  | .st _ p => p.wf
  | .sta _ p => p.wf
  | .stm _ p => p.wf
  | .stma _ p => p.wf
  | .add _ p => p.wf
  | .fadd _ p => p.wf
  | .amin _ p => p.wf
  | .amax _ p => p.wf
  | .swap _ p => p.wf
  | .cas _ p => p.wf
  | .aand _ p => p.wf
  | .aor _ p => p.wf
  | .axor _ p => p.wf
  | .fpadd _ p => p.wf
  | .red _ p => p.wf
  | .reda _ p => p.wf
  | .msg _ p => p.wf
  | .trd _ p => p.wf
  | .twr _ ps => decide (1 ≤ ps.length) && decide (ps.length ≤ 256) && ps.all Packet.wf
  | .tileRegistrationLapse _ _ _ _ => true
  | .fence _ p => p.wf
  | .fenceAnswer _ _ _ _ => true
  | .bell _ p => p.wf
  | .managementAccess _ p => p.wf
  | .millMsgReceive _ p => p.wf
  | .window63Access _ p => p.wf
  | .responseReceive _ p => p.wf
  | .errorNotice _ p => p.wf
  | .replyTimeout _ _ _ => true
  | .replayEntryExpire _ _ => true
  | .mirrorWrite m => m.wf
  | .mirrorAck _ => true
  | .portControllerDown _ => true
  | .portControllerUp _ => true
  | .apertureWrite _ _ _ => true
  | .svPtrL2f _ => true
  | .svPtrF2l _ => true
  | .svWtCmd _ => true
  | .winWithdraw _ _ _ => true
  | .mirrorWithdrawUpdate _ _ _ => true
  | .withdrawComplete _ _ => true
  | .withdrawTimeout _ _ => true
  | .pageTableReadDone _ _ v => v.wf
  | .streamPrefetch _ => true
  | .descriptorFetch _ => true
  | .descriptorFetchReturn p => p.wf
  | .descriptorStart _ _ => true
  | .descriptorNop _ _ => true
  | .statusWordWrite _ => true
  | .completionWrite _ _ => true
  | .chunkSignalWrite _ _ => true
  | .sqLoad _ _ => true
  | .sqUnbind _ _ => true
  | .unbindProgressEvent _ => true
  | .unbindComplete _ => true
  | .sqBindingScrub => true
  | .windowTableScrub _ => true
  | .routeScrub => true
  | .directoryScrub _ => true
  | .granaryScrub _ => true
  | .hamCfgWrite _ _ _ _ => true
  | .cohWinWrite _ _ _ => true
  | .setMode _ _ => true
  | .setModeSweep _ _ => true
  | .removeWindow _ _ => true
  | .cohCmdDone => true
  | .agentLoad _ _ => true
  | .agentStore _ _ => true
  | .agentReplace _ => true
  | .rdsh _ p => p.wf
  | .rdown _ p => p.wf
  | .rdna _ p => p.wf
  | .upgr _ p => p.wf
  | .wbd _ p => p.wf
  | .evict _ p => p.wf
  | .snpsh _ p => p.wf
  | .snpinv _ p => p.wf
  | .snpna _ p => p.wf
  | .snpcen _ p => p.wf
  | .cdata _ p => p.wf
  | .cack _ p => p.wf
  | .cnack _ p => p.wf
  | .agentNackResend _ => true
  | .directoryMemoryReply o => o.wf
  | .censusTimeout _ => true
  | .reservationExpire _ => true
  | .coherenceTimeout _ _ _ => true
  | .relayedRdna _ p => p.wf
  | .way11Migrate => true
  | .linkDown _ _ => true
  | .routeHold _ _ => true
  | .routeDrained => true
  | .routeDrainTimeout => true
  | .routeUpdate _ _ => true
  | .routeRelease _ _ => true
  | .rtLoad _ _ => true
  | .telemetrySample => true
  | .seed _ _ => true
  | .reduce _ _ => true
  | .allred _ _ => true
  | .rscat _ _ => true
  | .agath _ _ => true
  | .bcast _ _ => true
  | .shift _ _ => true
  | .perm _ _ => true
  | .disp _ _ => true
  | .comb _ _ => true
  | .collectiveStart _ _ => true
  | .collectiveArrivalTimeout _ _ => true
  | .greenChunk _ _ _ d => d.wf
  | .ringDigest _ _ _ _ => true
  | .ringChunk _ _ _ _ _ => true
  | .collectiveAbort _ _ _ _ => true
  | .leaseExpire _ => true
  | .meshRequest _ => true
  | .meshResponse _ => true
  | .meshMessage _ => true
  | .messageCreditReturn _ _ => true
  | .dmaRead _ => true
  | .dmaWrite _ => true
  | .copy _ => true
  | .dmaFence _ => true
  | .relst _ => true
  | .acqld _ => true
  | .dmaDescriptorComplete _ _ => true
  | .create _ _ => true
  | .allotPlace => true
  | .createWaitTimeout _ _ => true
  | .allotLoad _ _ _ => true
  | .allotLoadDone _ _ => true
  | .allotStart _ _ => true
  | .allotRunEnd _ => true
  | .allotHalt _ _ => true
  | .allotHaltDone _ => true
  | .free _ _ => true
  | .saluAdd _ _ => true
  | .sub _ _ => true
  | .saluAnd _ _ => true
  | .saluOr _ _ => true
  | .saluXor _ _ => true
  | .sll _ _ => true
  | .srl _ _ => true
  | .sra _ _ => true
  | .slt _ _ => true
  | .sltu _ _ => true
  | .mul _ _ => true
  | .mulh _ _ => true
  | .mulhu _ _ => true
  | .div _ _ => true
  | .divu _ _ => true
  | .rem _ _ => true
  | .remu _ _ => true
  | .saluMin _ _ => true
  | .saluMax _ _ => true
  | .minu _ _ => true
  | .maxu _ _ => true
  | .clz _ _ => true
  | .ctz _ _ => true
  | .popc _ _ => true
  | .addi _ _ => true
  | .andi _ _ => true
  | .ori _ _ => true
  | .xori _ _ => true
  | .lui _ _ => true
  | .shi _ _ => true
  | .slti _ _ => true
  | .lb _ _ => true
  | .lbu _ _ => true
  | .lh _ _ => true
  | .lhu _ _ => true
  | .lw _ _ => true
  | .lwu _ _ => true
  | .scalarLd _ _ => true
  | .sb _ _ => true
  | .sh _ _ => true
  | .sw _ _ => true
  | .sd _ _ => true
  | .atomAdd _ _ _ => true
  | .atomSwap _ _ _ => true
  | .beq _ _ => true
  | .bne _ _ => true
  | .blt _ _ => true
  | .bge _ _ => true
  | .bltu _ _ => true
  | .bgeu _ _ => true
  | .jal _ _ => true
  | .jalr _ _ => true
  | .vadd _ _ => true
  | .vsub _ _ => true
  | .vmul _ _ => true
  | .vand _ _ => true
  | .vor _ _ => true
  | .vxor _ _ => true
  | .vsll _ _ => true
  | .vsrl _ _ => true
  | .vsra _ _ => true
  | .vmin _ _ => true
  | .vmax _ _ => true
  | .vminu _ _ => true
  | .vmaxu _ _ => true
  | .vcmpeq _ _ => true
  | .vcmplt _ _ => true
  | .vcmpltu _ _ => true
  | .vsel _ _ => true
  | .vperm _ _ => true
  | .vbcast _ _ => true
  | .vext _ _ => true
  | .vins _ _ => true
  | .vfadd _ _ _ => true
  | .vfsub _ _ _ => true
  | .vfmul _ _ _ => true
  | .vfma _ _ _ => true
  | .vfmin _ _ _ => true
  | .vfmax _ _ _ => true
  | .vexp2 _ _ _ => true
  | .vrcp _ _ _ => true
  | .vrsq _ _ _ => true
  | .vfcmpeq _ _ _ => true
  | .vfcmplt _ _ _ => true
  | .vfcmple _ _ _ => true
  | .vcvtWiden _ _ _ => true
  | .vcvtNarrow _ _ _ => true
  | .vld _ _ => true
  | .vst _ _ => true
  | .vgather _ _ => true
  | .vscatter _ _ => true
  | .rsumf _ _ => true
  | .rmaxf _ _ => true
  | .rminf _ _ => true
  | .rsumi _ _ => true
  | .rmaxi _ _ => true
  | .rmini _ _ => true
  | .tmma _ _ => true
  | .tmmaComplete _ => true
  | .tzero _ _ => true
  | .tld _ _ => true
  | .tst _ _ => true
  | .tstb _ _ => true
  | .trow _ _ => true
  | .twrow _ _ => true
  | .qcfg _ _ _ => true
  | .qsend _ _ _ => true
  | .qrecv _ _ _ => true
  | .qpoll _ _ _ => true
  | .qstat _ _ _ => true
  | .dmaq _ _ _ => true
  | .dwait _ _ _ => true
  | .dread _ _ _ => true
  | .dclr _ _ _ => true
  | .dlog _ _ _ => true
  | .dwaitf _ _ _ => true
  | .csrRead _ _ => true
  | .csrWrite _ _ => true
  | .csrSwap _ _ => true
  | .csrSet _ _ => true
  | .sysNop _ _ => true
  | .sysFence _ _ => true
  | .sysHalt _ _ => true
  | .brk _ _ => true
  | .eret _ _ => true
  | .sysAbort _ _ => true
  | .bar _ _ => true
  | .waitt _ _ => true
  | .waittExpire _ => true
  | .tfence _ _ => true
  | .debugHalt _ _ => true
  | .debugStep _ _ => true
  | .debugResume _ _ => true
  | .debugRegWrite _ _ _ _ => true
  | .pool _ _ => true
  | .pfree _ _ => true
  | .openSeq _ _ => true
  | .append _ _ _ => true
  | .kvRead _ _ => true
  | .trunc _ _ => true
  | .close _ _ => true
  | .part _ _ _ => true
  | .optsLoad _ _ _ => true
  | .optsStep _ _ => true
  | .save _ _ => true
  | .optsBlockCommit _ _ _ _ => true
  | .rsiResponse _ _ data => decide (data.length ≤ 256)
  | .rqiAnswerLate _ => true
  | .svLiveWrite _ _ => true
  | .mapRestore => true
  | .svapoBringup _ _ => true
  | .keyLoadCommit _ => true
  | .holderRetirePhase0 _ _ => true
  | .holderRetirePhase1 _ _ => true
  | .holderZeroizeTimeout _ => true
  | .holderSlotRelease _ => true
  | .caFlush => true
  | .limiterPeriod => true
  | .blockReset => true
  | .signalEnergyDetect _ _ => true
  | .trainingStepDone _ => true
  | .trainingRestart _ => true
  | .ts _ lane _ _ => decide (lane.toNat < 4)
  | .mark _ lane => decide (lane.toNat < 4)
  | .ident _ _ _ _ _ => true
  | .crinit _ _ _ _ _ => true
  | .mcred _ _ => true
  | .pmreq _ _ => true
  | .pmack _ _ => true
  | .pmnak _ _ => true
  | .retrain _ _ => true
  | .test _ _ _ => true
  | .laneFail _ _ => true
  | .pmExit _ => true
  | .lqAutoTimeout _ => true
  | .portReset _ => true
  | .lqRequest _ => true
  | .ldRequest _ => true
  | .portTest _ => true
  | .transferClose _ => true
  | .ferryData _ s => s.wf
  | .ferryResp _ s => s.wf
  | .ferryAck _ s => s.wf
  | .ferryAbort _ s => s.wf
  | .ferryAckSend _ _ => true
  | .segmentResendTimeout _ _ _ => true
  | .peerRackLost _ => true
  | .ferryKeyExpire => true
  | .timeMark _ _ _ => true
  | .rslLockLoss _ => true
  | .slip _ _ => true
  | .regrd _ _ _ => true
  | .regwr _ _ _ _ => true
  | .bulkBlock _ _ _ d _ => decide (d.length ≤ 65536)
  | .imgreqTimeout _ => true
  | .healthSend => true
  | .referenceLoss _ => true
  | .referenceReturn _ => true
  | .holdoverEvent => true
  | .vfLoopTick _ => true
  | .dvfsSettled => true
  | .dvfsUpTimeout => true
  | .clockStretch _ => true
  | .eqLoopAdapt _ _ => true
  | .bufLoopTick => true
  | .placementLoopTick util _ => decide (util.length ≤ 9)
  | .frameMoveDone => true
  | .clockGate _ _ => true
  | .clockUngate _ _ => true
  | .fmeasStart _ => true
  | .fmeasDone _ => true
  | .throttleAssert => true
  | .thermalThrottle _ => true
  | .throttleStep => true
  | .throttleEnd => true
  | .thermalTrip _ => true
  | .pwrfail => true
  | .pwrfailRelease => true
  | .brownOut _ => true
  | .report _ _ _ => true
  | .deliver _ _ _ => true
  | .retire _ _ => true
  | .counters _ _ => true
  | .keyRetire _ _ => true
  | .retireDrainEnd _ => true
  | .retireComplete _ => true
  | .retireHoldExpire _ => true
  | .custScrub _ _ => true
  | .scrubDone => true
  | .selftest _ _ => true
  | .zeroize _ _ => true
  | .entropyTestFail _ => true
  | .partnerPoll states => decide (states.length = 144)
  | .planeDeclare => true
  | .fenceStop => true
  | .liveNotice _ _ => true
  | .pairExpose => true
  | .partnerLinkUp => true
  | .resyncDone => true
  | .declare _ _ => true
  | .pairlost _ _ => true
  | .spare _ _ => true
  | .spareTestDone _ => true
  | .spareLoadDone => true
  | .spareAdmit => true
  | .ftAdmit _ _ => true
  | .readmit _ _ => true
  | .abortload _ _ => true
  | .eplost _ _ => true
  | .boundary _ _ => true
  | .portVectorExchange _ => true
  | .endPointDeclare _ => true
  | .hangTimeout _ => true
  | .arm _ => true
  | .trig _ => true
  | .postTimeout => true
  | .replay _ _ => true
  | .ledgerAbort _ _ => true
  | .replayRecord => true
  | .powerOn _ => true
  | .resetNAssert => true
  | .bootStepDone _ => true
  | .fr _ _ _ _ => true
  | .wr _ _ _ _ => true
  | .gr _ _ _ _ => true
  | .pr _ _ _ _ => true
  | .boot _ _ _ _ => true
  | .setup _ _ _ _ => true
  | .run _ _ _ _ => true
  | .gpin _ _ _ _ => true
  | .gpout _ _ _ _ => true
  | .hsin _ _ _ _ => true
  | .hsout _ _ _ _ => true
  | .dsin _ _ _ _ => true
  | .wake _ _ _ _ => true
  | .wtCmd _ _ => true
  | .registerWrite _ _ _ _ => true
  | .bypass => true
  | .idcode => true
  | .samplePreload => true
  | .extest => true
  | .extestPulse => true
  | .extestTrain => true
  | .clamp => true
  | .highz => true
  | .tokenBucketRefill _ _ => true
  | .trainingStepFail _ _ => true
  | .blockResetRelease => true
  | .partnerImgreq _ _ _ => true
  | .selftestDone _ => true
  | .allotFreeDone _ => true

end Sys2Proof
end

