-- ==== Sys2Proof/Safety.lean ====
section
/-! DEFINITION. What the claims are stated in: the canonical form of the state, and what it means that a
mill is ready to run an instruction, that it has run it, and that nothing else has changed. -/

namespace Sys2Proof.Machine

/-! ### The canonical form -/

/-- The memories and the register files of the block are in canonical form. -/
def State.Wf (s : State) : Prop :=
  s.qd.hbm.wf = true ∧ s.qd.mhbm.wf = true ∧ Tbl.wf (regReset s.qd.variant) s.qd.regs = true ∧
  Tbl.wf svReset s.sv.regs = true

/-! ### Instruction words of the mills, bit by bit (R296) -/

/-- Format A: MAJ, DA, SA, SB and FN from bit 31 down. -/
def wordA (maj fn : Nat) (f : FmtA) : BitVec 32 :=
  BitVec.ofNat 6 maj ++ BitVec.ofNat 5 f.da.val ++ BitVec.ofNat 5 f.sa.val ++ BitVec.ofNat 5 f.sb.val ++
    BitVec.ofNat 11 fn

/-- Format I: MAJ, DA, SA and IMM16. -/
def wordI (maj : Nat) (f : FmtI) : BitVec 32 :=
  BitVec.ofNat 6 maj ++ BitVec.ofNat 5 f.da.val ++ BitVec.ofNat 5 f.sa.val ++ f.imm

/-- Format B: MAJ, SA, SB and OFF16. -/
def wordB (maj : Nat) (f : FmtB) : BitVec 32 :=
  BitVec.ofNat 6 maj ++ BitVec.ofNat 5 f.sa.val ++ BitVec.ofNat 5 f.sb.val ++ f.off

/-- Format J: MAJ and OFF26. -/
def wordJ (maj : Nat) (off : BitVec 26) : BitVec 32 := BitVec.ofNat 6 maj ++ off

/-- Format V: MAJ, VD, VA, VB, PM and FN. -/
def wordV (maj fn : Nat) (f : FmtV) : BitVec 32 :=
  BitVec.ofNat 6 maj ++ BitVec.ofNat 5 f.vd.val ++ BitVec.ofNat 5 f.va.val ++ BitVec.ofNat 5 f.vb.val ++
    BitVec.ofNat 3 f.pm.val ++ BitVec.ofNat 8 fn

/-- Format T: MAJ, ACC, SA, SB and PAY. -/
def wordT (maj : Nat) (f : FmtT) : BitVec 32 :=
  BitVec.ofNat 6 maj ++ BitVec.ofNat 2 f.acc.val ++ BitVec.ofNat 5 f.sa.val ++ BitVec.ofNat 5 f.sb.val ++ f.pay

/-! ### A mill that runs an instruction -/

/-- Mill `m` of allotment `a` runs at an instruction boundary, no breakpoint or debug request is pending, and
the word at PC, inside the text section, is `w` (R285, R303, R327, R328). -/
structure MillReady (s : State) (m a : Nat) (w : BitVec 32) : Prop where
  allot : s.allotOf m = some a
  going : s.alState a < 4
  run : (s.mill m).run = .running
  live : (s.mill m).dhalt = false
  free : (s.mill m).wait.inFlight = false
  breaks : (s.mill m).breaks = false
  calm : (s.mill m).haltReq = false ∧ (s.mill m).stepping = false
  text : s.inText a (s.mill m).pc.toNat = true
  word : natOf (s.scratch m (s.mill m).pc.toNat 4) = w.toNat

/-- A mill after an instruction that changes it by `g`: PC at the next instruction and RETIRED one more. -/
def Mill.after (x : Mill) (g : Mill → Mill) : Mill :=
  { g x with pc := x.pc + 4, retired := x.retired + 1, wait := .none, pass := false }

/-- Nothing changes but the mills, and of those only `m`: every register of the block, every memory, every
queue, every other mill and what the block has sent are as before. -/
def OnlyMill (s t : State) (m : Nat) : Prop :=
  t = { s with qd := { s.qd with grid := { s.qd.grid with mills := t.qd.grid.mills } } } ∧
  ∀ j, j ≠ m → t.mill j = s.mill j

/-- Nothing changes but mill `m` and the scratch. -/
def OnlyMillScratch (s t : State) (m : Nat) : Prop :=
  t = { s with qd := { s.qd with grid := { s.qd.grid with mills := t.qd.grid.mills,
                                                           scratch := t.qd.grid.scratch } } } ∧
  ∀ j, j ≠ m → t.mill j = s.mill j

/-- The command runs as an instruction of mill `m` that changes the mill by `g` and nothing else. -/
def RunsOnMill (i : Instr) (s : State) (m : Nat) (g : Mill → Mill) : Prop :=
  ∃ t, exec i s = .next t ∧ t.mill m = (s.mill m).after g ∧ OnlyMill s t m

/-- The command runs as an instruction of mill `m` that stores bytes in its own scratch from `off` on; every
other byte of every scratch is as before. -/
def StoresOnMill (i : Instr) (s : State) (m off : Nat) (d : List Byte) (g : Mill → Mill) : Prop :=
  ∃ t, exec i s = .next t ∧ t.mill m = (s.mill m).after g ∧ OnlyMillScratch s t m ∧
    (∀ k, k < d.length → Tbl.at t.qd.grid.scratch (m * 2 ^ 21 + off + k) = d.getD k 0) ∧
    ∀ k, (k < m * 2 ^ 21 + off ∨ m * 2 ^ 21 + off + d.length ≤ k) →
      Tbl.at t.qd.grid.scratch k = Tbl.at s.qd.grid.scratch k

/-- The command raises exception `code` at PC with HANDLER set outside a handler: the handler is entered and
nothing else changes (R325). -/
def RaisesOnMill (i : Instr) (s : State) (m code : Nat) (eaddr : Word) (estat : BitVec 7) : Prop :=
  ∃ t, exec i s = .next t ∧ OnlyMill s t m ∧
    t.mill m = { s.mill m with
      epc := (s.mill m).pc, cause := BitVec.ofNat 7 code, eaddr := eaddr, estat := estat, inh := true,
      pc := (s.mill m).handler, wait := .none, pass := false }

/-! ### Requests of the fabric -/

/-- Packet `q` is the response to request `p` with a status and data: R57's exchange of DST and SRC, RSP, ECE a
copy of CE, the identity of the request kept, a header complement and an E2E that hold. -/
structure Answers (q p : Packet) (st : BitVec 7) (d : List Byte) : Prop where
  node : q.dst = p.src ∧ q.src = p.dst
  same : q.ctx = p.ctx ∧ q.opc = p.opc ∧ q.kslot = p.kslot ∧ q.cls = p.cls ∧ q.gen = p.gen ∧ q.woff = p.woff
  id : q.que = p.que ∧ q.tag = p.tag ∧ q.tseq = p.tseq
  bits : q.rsp = true ∧ q.rty = false ∧ q.geo = false ∧ q.ord = 0 ∧ q.ece = p.ce
  status : q.status = st
  data : q.data = d ∧ q.len = d.length ∧ q.geom = none ∧ q.mask = none
  whole : q.complOk = true ∧ q.e2eOk = true

/-- Request `p` passes the nine checks of R30 at the window that it names. -/
structure WindowAdmits (s : State) (b : Bank) (p : Packet) : Prop where
  whole : (s.wte b p.win).complOk = true
  valid : (s.wte b p.win).state = 1
  gen : p.gen = (s.wte b p.win).gen
  ctx : (s.wte b p.win).ctx = 0xFFFF ∨ (s.wte b p.win).ctx = p.ctx
  right : opcRight p.opc (s.wte b p.win) = true
  key : (s.wte b p.win).prot = true → p.kslot = (s.wte b p.win).kslot ∧
    s.keyAtDest b (s.wte b p.win).kslot.toNat = true
  limit : p.endOff ≤ (s.wte b p.win).limit
  mapped : ∀ x ∈ (s.wte b p.win).pagesOf p, ∃ t, s.transOf b p.win (s.wte b p.win).gen x.1 = some t ∧
    pteMapped s b (s.wte b p.win) t.pte = true ∧ (opcWrites p.opc = true → bitAt t.pte 1 = false)

/-- Local addresses of the bytes that a request names under an entry and translations, in order. -/
def Entry.bytesNamed (e : Entry) (tr : List Trans) (p : Packet) : List Nat :=
  (e.ranges tr p).flatMap (fun r => (List.range r.2).map (fun i => r.1 + i))

/-- The packets of request `p`, which is to be performed at window 0-47 of this QD1, have arrived whole under
entry `e` and translations `tr`: those of the window, whose checks it passes, or those of its tile's
registration. No earlier packet of its stream waits and no mirrored write of its lines is pending. -/
structure QdServes (s : State) (v : Via) (ps : List Packet) (p : Packet) (e : Entry) (tr : List Trans) : Prop where
  head : ps.head? = some p
  way : v.isSv = false
  runs : s.fenced = false
  here : p.dst = s.qdNode
  win : p.win < 48
  req : p.rsp = false
  form : rxForm ps = none
  noMsg : p.opc ≠ Opc.MSG
  plain : e.prot = true → opcPartial p.opc = false
  under : (s.tileOf .own p = none ∧ e = s.wte .own p.win ∧ tr = s.gather .own p.win e p ∧ WindowAdmits s .own p) ∨
    ∃ r, s.tileOf .own p = some r ∧ e = r.ent ∧ tr = r.tr
  turn : s.streamBusy .own p = false
  lines : s.lineBusy .own (opcWrites p.opc) (e.ranges tr p) = false

/-- Granary `h'` is `h` with data written at a list of addresses, and nothing else: every other byte is as
before, no word turns uncorrectable, and one of which no byte is written stays as it was (R482). -/
def Hbm.Wrote (h h' : Hbm) (at_ : List Nat) (d : List Byte) : Prop :=
  (∀ i, i < at_.length → h'.byte (at_.getD i 0) = d.getD i 0) ∧ (∀ a, a ∉ at_ → h'.byte a = h.byte a) ∧
  (∀ w, w ∈ h'.bad → w ∈ h.bad) ∧ ∀ w, w ∈ h.bad → (∀ i, i < 8 → w + i ∉ at_) → w ∈ h'.bad

/-- The tiles of a node after a part of a tile has been performed: the first part registers it under its entry
and translations, and the last one ends the registration (R44). -/
def Node.tilesAfter (n : Node) (p : Packet) (e : Entry) (tr : List Trans) : List TileReg :=
  match p.geom with
  | none => n.tiles
  | some g =>
    let l := if n.tiles.any (fun t => t.of p) then n.tiles
      else n.tiles ++ [{ win := p.win, src := p.src, que := p.que, tag := p.tag, tseq := p.tseq, nparts := g.nparts,
                         ent := e, tr := tr }]
    l.filterMap (fun t =>
      if !(t.of p) then some t
      else
        let d := t.doneParts ++ (if t.doneParts.contains g.part then [] else [g.part])
        if t.nparts ≤ d.length then none else some { t with doneParts := d })

/-- The declared streams of a node after the first part of a tile: one whose next tile it is goes on (R34). -/
def Node.streamsAfter (n : Node) (p : Packet) : List Stream :=
  match p.geom with
  | none => n.streams
  | some g =>
    if n.tiles.any (fun t => t.of p) then n.streams
    else n.streams.map (fun x =>
      if x.win = p.win ∧ x.base + x.next * x.step = g.base then { x with next := x.next + 1 } else x)

/-- Nothing changes but port `p`: its link, its registers, its events and what is sent; every other port and
every other unit is as before. -/
def PortOnly (s t : State) (p : PortSel) : Prop :=
  (∀ q, q ≠ p → t.link q = s.link q ∧ t.pst q = s.pst q) ∧
  match p with
  | .sv n => t = { s with
      free := t.free, out := t.out
      sv := { s.sv with links := t.sv.links, regs := t.sv.regs, ring := t.sv.ring } } ∧
      ∀ off, off ≠ SR.SV_PORT_CTL n.val → off ≠ SR.SV_CTL → off ≠ SR.SV_NODE → t.sr off = s.sr off
  | .qd _ => t = { s with
      out := t.out
      qd := { s.qd with links := t.qd.links, regs := t.qd.regs, trace := t.qd.trace, boot := t.qd.boot } } ∧
      t.qd.boot = { s.qd.boot with lost := t.qd.boot.lost } ∧ t.qd.trace.ledger = s.qd.trace.ledger

/-- The registers of `t` are those of `s` but for the offsets of a list. -/
def RegsKept (s t : State) (l : List Nat) : Prop := ∀ off, off ∉ l → t.rg off = s.rg off

/-- The entry word of a routing table or word pair: a 32-bit value with its complement above it (R193). -/
def withCompl (v : Nat) : Word := BitVec.ofNat 64 (v % 2 ^ 32 + (2 ^ 32 - 1 - v % 2 ^ 32) * 2 ^ 32)

/-- The cells of a packet that reaches an egress stage out of the merge buffer (R172, R187). -/
def State.stageCells (s : State) (e : Nat) (p : Packet) : List Cell :=
  (List.range (pktCells p)).map (fun i => {
    ing := 176, egr := e, cls := p.cls.toNat, pkt := p, idx := i, last := i + 1 == pktCells p,
    route := s.routeIdx p.dst })

/-- Packet `p` is an acknowledged store of bytes to a fabric address, with an order code, in class 0, from a
node, for a context and an access generation, whole (R54, R55, R79, R90). -/
structure StoresAt (p : Packet) (src : BitVec 14) (ctx : BitVec 16) (gen : Byte) (fa : Word) (ord : Nat)
    (d : List Byte) : Prop where
  kind : p.opc = Opc.STA ∧ p.rsp = false ∧ p.cls = 0 ∧ p.ord = ord
  node : p.src = src ∧ p.fabric = fa
  who : p.ctx = ctx ∧ p.gen = gen
  data : p.data = d ∧ p.len = d.length
  whole : p.complOk = true ∧ p.e2eOk = true

/-- The entry of a table of the rings is another and every other is as before. -/
def SqIs (s : State) (qs : Tbl SQ) (k : Nat) (x : SQ) : Prop := ∀ j, Tbl.at qs j = if j = k then x else s.sq j

/-- The answer that a register command gets. -/
def State.acks (s : State) (src : RegSrc) (st : BitVec 7) : List Out := s.out ++ [.regAnswer src st 0]

/-- Packet `q` is a coherence response to request `p` (R57, R148): an opcode, an AUX, a status and data. -/
structure CohAnswers (q p : Packet) (opc aux : Nat) (st : BitVec 7) (d : List Byte) : Prop where
  node : q.dst = p.src ∧ q.src = p.dst
  kind : q.opc = opc ∧ q.aux = aux ∧ q.rsp = true ∧ q.status = st
  id : q.que = p.que ∧ q.tag = p.tag ∧ q.tseq = p.tseq ∧ q.ctx = p.ctx ∧ q.gen = p.gen ∧ q.woff = p.woff
  data : q.data = d ∧ q.len = d.length
  whole : q.complOk = true ∧ q.e2eOk = true

/-- Request `p` of member `m` passes the checks of R147 under coherent window `cw` and finds the line stable, in
entry `k` of the directory, with no reservation, census, command or other transaction about it. -/
structure DirAdmits (s : State) (v : Via) (p : Packet) (cw : Word) (m k : Nat) : Prop where
  runs : v.isSv = false ∧ s.fenced = false
  req : p.rsp = false ∧ rxForm [p] = none ∧ (p.opc = Opc.RDNA → p.aux = 0)
  window : (∃ i, s.cohWin p.fabric = some (i, cw)) ∧ p.gen = Cw.gen cw ∧ p.ctx = Cw.ctx cw ∧
    (Cw.prot cw = true → p.kslot = Cw.kslot cw)
  member : s.memberOf cw p.src = some m ∧ m < 16
  free : s.underCensus (lineOf p) = false ∧ s.qd.dir.cmd = none ∧ s.homeLost (lineOf p) = false
  calm : s.txnOf (lineOf p) = none ∧ s.awaits (lineOf p) = false ∧ lineOf p ∉ s.qd.dir.reserved
  entry : s.dirWay (lineOf p) = some k
  stable : (s.dent k).busy = 0 ∧ (s.dent k).nxv = false ∧ (s.dent k).mode = s.effMode cw

/-- The table of a directory's entries is that of `s` but for entry `k`. -/
def EntIs (s : State) (d : Tbl DirEnt) (k : Nat) (e : DirEnt) : Prop := ∀ j, Tbl.at d j = if j = k then e else s.dent j

/-- The state of the Svapo block with one line of its agent given, every other line as before. -/
def LineIs (s : State) (ls : Tbl AgLine) (l : BitVec 57) (x : AgLine) : Prop :=
  ∀ j, Tbl.at ls j = if j = l.toNat then x else Tbl.at s.sv.lines j

/-- Descriptor `d` is the oldest of queue `q`, of a type and an opcode, started and not taken up by its service,
and no power-fail sequence runs. -/
structure Started (s : State) (q : Nat) (d : Desc) (rest : List Desc) (type opc : Nat) : Prop where
  head : (s.sq q).descs = d :: rest
  one : ∀ y ∈ rest, y.ridx ≠ d.ridx
  stage : d.stage = 2
  kind : d.type = type ∧ d.opc = opc
  power : s.qd.boot.pwr = 0

/-- The queue of `s` with its oldest descriptor replaced. -/
def State.headIs (s : State) (q : Nat) (d : Desc) (rest : List Desc) : SQ := { s.sq q with descs := d :: rest }

/-- Nothing changes but mill `m`, which becomes `x`. -/
def MillIs (s t : State) (m : Nat) (x : Mill) : Prop := OnlyMill s t m ∧ t.mill m = x

/-- The descriptors of queue `q` of a state, and nothing else of it, become those of `x`. -/
def State.withQ (s : State) (qs : Tbl SQ) : State := { s with qd := { s.qd with rings := { s.qd.rings with qs := qs } } }

/-- The grid of a state changed. -/
def State.withGrid (s : State) (f : Grid → Grid) : State := { s with qd := { s.qd with grid := f s.qd.grid } }

/-- The entry of an allotment beside its status words is another and every other is as before. -/
def AllotIs (s : State) (t : Tbl Allot) (a : Nat) (x : Allot) : Prop :=
  ∀ j, Tbl.at t j = if j = a then x else s.allot j

/-- A rack service link sends a frame and keeps it among its last 16 answers, and nothing else changes (R412). -/
def Answered (u t : State) (l : RslLink) (typ seq : Byte) (payload : List Byte) : Prop :=
  let a := (u.rsl l).answers ++ [(seq, typ, payload)]
  t = { u with out := u.out ++ [.rslFrame l typ seq payload], qd := { u.qd with rslA := t.qd.rslA, rslB := t.qd.rslB } } ∧
  t.rsl l = { u.rsl l with answers := a.drop (a.length - 16) } ∧ ∀ l', l' ≠ l → t.rsl l' = u.rsl l'

/-- The state with the registers of another. -/
def State.withRegs (s t : State) : State := { s with qd := { s.qd with regs := t.qd.regs } }

end Sys2Proof.Machine
end

