-- ==== Sys2Proof/Certificates/Slice0/Obligations.lean ====
section
/-! DEFINITION. The statements about the model, each with the rule of the spec that it formalises. -/

open Sys2Proof Sys2Proof.Machine

/-- The scalar register operations write the result that SALU's table gives, and change nothing else. For each
SALU operation from ADD to MAXU, on a mill that is ready to run the word that the operation's FN gives: the
command answers a next state in which sDA holds the result of R299 (shifts by sSB [5:0], division by zero
and -2^63 by -1 as R300 says), PC and RETIRED have advanced, and every other register, memory and mill is as
before; for CLZ, CTZ and POPC with SB = 0 the count. (R299, R300) -/
def Obligations.ScalarRegisterResults : Prop :=
  ∀ (m : Fin 256) (a : Nat) (f : FmtA) (s : State),
    let p := (s.mill m.val).sr f.sa.val
    let q := (s.mill m.val).sr f.sb.val
    let sh := q.toNat % 64
    let bit := fun (c : Prop) [Decidable c] => if c then (1 : Word) else 0
    (∀ e ∈ ([(.saluAdd m f, 0x000, p + q), (.sub m f, 0x001, p - q), (.saluAnd m f, 0x002, p &&& q),
        (.saluOr m f, 0x003, p ||| q), (.saluXor m f, 0x004, p ^^^ q), (.sll m f, 0x005, p <<< sh),
        (.srl m f, 0x006, p >>> sh), (.sra m f, 0x007, p.sshiftRight sh),
        (.slt m f, 0x008, bit (p.toInt < q.toInt)), (.sltu m f, 0x009, bit (p.toNat < q.toNat)),
        (.mul m f, 0x00A, p * q), (.mulh m f, 0x00B, BitVec.ofInt 64 (p.toInt * q.toInt / 2 ^ 64)),
        (.mulhu m f, 0x00C, BitVec.ofNat 64 (p.toNat * q.toNat / 2 ^ 64)),
        (.div m f, 0x00D, if q = 0 then BitVec.ofInt 64 (-1) else BitVec.ofInt 64 (p.toInt.tdiv q.toInt)),
        (.divu m f, 0x00E, if q = 0 then 0xFFFFFFFFFFFFFFFF else BitVec.ofNat 64 (p.toNat / q.toNat)),
        (.rem m f, 0x00F, if q = 0 then p else BitVec.ofInt 64 (p.toInt.tmod q.toInt)),
        (.remu m f, 0x010, if q = 0 then p else BitVec.ofNat 64 (p.toNat % q.toNat)),
        (.saluMin m f, 0x011, if p.toInt ≤ q.toInt then p else q),
        (.saluMax m f, 0x012, if p.toInt ≤ q.toInt then q else p),
        (.minu m f, 0x013, if p.toNat ≤ q.toNat then p else q),
        (.maxu m f, 0x014, if p.toNat ≤ q.toNat then q else p)] : List (Instr × Nat × Word)),
      MillReady s m.val a (wordA 0x00 e.2.1 f) →
        RunsOnMill e.1 s m.val (fun x => x.setSr f.da.val e.2.2)) ∧
    (f.sb.val = 0 → MillReady s m.val a (wordA 0x00 0x015 f) →
      ∃ n, n ≤ 64 ∧ (∀ i, i < n → p.getLsbD (63 - i) = false) ∧ (n < 64 → p.getLsbD (63 - n) = true) ∧
        RunsOnMill (.clz m f) s m.val (fun x => x.setSr f.da.val (BitVec.ofNat 64 n))) ∧
    (f.sb.val = 0 → MillReady s m.val a (wordA 0x00 0x016 f) →
      ∃ n, n ≤ 64 ∧ (∀ i, i < n → p.getLsbD i = false) ∧ (n < 64 → p.getLsbD n = true) ∧
        RunsOnMill (.ctz m f) s m.val (fun x => x.setSr f.da.val (BitVec.ofNat 64 n))) ∧
    (f.sb.val = 0 → MillReady s m.val a (wordA 0x00 0x017 f) →
      RunsOnMill (.popc m f) s m.val (fun x => x.setSr f.da.val
        (BitVec.ofNat 64 ((List.range 64).countP (fun i => p.getLsbD i)))))

/-- ADDI, ANDI, ORI, XORI, LUI, SHI and SLTI write their results and nothing else; s0 reads as zero and p0 as
all ones. For each immediate operation of R297, on a mill that is ready to run its word: sDA holds the
result (ADDI and SLTI sign-extend IMM16, the logical operations zero-extend it, LUI shifts it left by 16,
SHI shifts by IMM16 [5:0] in the way that IMM16 [7:6] selects), PC and RETIRED have advanced, and everything
else is as before. After any write of an s register, s0 reads as zero, the register written reads as the
value unless it is s0, and every other s register is as before; the same of the p registers, where p0 reads
as all ones. (R294, R296, R297) -/
def Obligations.ScalarImmediateResults : Prop :=
  (∀ (m : Fin 256) (a : Nat) (f : FmtI) (s : State),
     let p := (s.mill m.val).sr f.sa.val
     let n := f.imm.toNat % 64
     (∀ e ∈ ([(.addi m f, 0x01, p + f.imm.signExtend 64), (.andi m f, 0x02, p &&& f.imm.setWidth 64),
         (.ori m f, 0x03, p ||| f.imm.setWidth 64), (.xori m f, 0x04, p ^^^ f.imm.setWidth 64),
         (.slti m f, 0x07, if p.toInt < f.imm.toInt then 1 else 0)] : List (Instr × Nat × Word)),
       MillReady s m.val a (wordI e.2.1 f) → RunsOnMill e.1 s m.val (fun x => x.setSr f.da.val e.2.2)) ∧
     (f.sa.val = 0 → MillReady s m.val a (wordI 0x05 f) →
       RunsOnMill (.lui m f) s m.val (fun x => x.setSr f.da.val (BitVec.ofInt 64 (f.imm.toInt * 2 ^ 16)))) ∧
     (∀ e ∈ ([(0, p <<< n), (1, p >>> n), (2, p.sshiftRight n)] : List (Nat × Word)),
       f.imm.toNat / 64 = e.1 → MillReady s m.val a (wordI 0x06 f) →
         RunsOnMill (.shi m f) s m.val (fun x => x.setSr f.da.val e.2))) ∧
  (∀ (x : Mill) (i j : Nat) (v : Word) (w : BitVec 32),
     (x.setSr i v).sr 0 = 0 ∧ (x.setPr i w).pr 0 = BitVec.allOnes 32 ∧ x.setSr 0 v = x ∧ x.setPr 0 w = x ∧
     (i ≠ 0 → (x.setSr i v).sr i = v) ∧ (j ≠ i → (x.setSr i v).sr j = x.sr j) ∧
     (i ≠ 0 → (x.setPr i w).pr i = w) ∧ (j ≠ i → (x.setPr i w).pr j = x.pr j))

/-- The scalar loads, stores and atomics act on the bytes that their address names in the own scratch, and on no
other. For LB, LBU, LH, LHU, LW, LWU and LD, on a mill that is ready to run the word, at an aligned address
inside its own scratch: sDA holds the little-endian bytes, sign-extended or zero-extended, PC and RETIRED
have advanced, and everything else, every byte of scratch among it, is as before. For SB, SH, SW and SD, on
a mill that is ready to run the word, at an aligned address inside its own scratch above the text section:
the low 1, 2, 4 or 8 bytes of the register that DA names stand at that address, little-endian; every other
byte of every scratch, every register of the mill but PC and RETIRED, and everything else is as before. For
ATOM add and swap of 4 and 8 bytes, on a mill that is ready to run the word, at an aligned address inside
its own scratch above the text section: the bytes hold the sum modulo the size or the operand, sDA holds the
old value zero-extended, and every other byte and register is as before. (R262, R266, R297, R301, R302,
R330) -/
def Obligations.ScalarMemory : Prop :=
  (∀ (m : Fin 256) (a : Nat) (f : FmtI) (s : State),
     let addr := ((s.mill m.val).sr f.sa.val + f.imm.signExtend 64).toNat
     ∀ e ∈ ([(.lb m f, 0x08, 1, true), (.lbu m f, 0x09, 1, false), (.lh m f, 0x0A, 2, true),
         (.lhu m f, 0x0B, 2, false), (.lw m f, 0x0C, 4, true), (.lwu m f, 0x0D, 4, false),
         (.scalarLd m f, 0x0E, 8, false)] : List (Instr × Nat × Nat × Bool)),
       let n := e.2.2.1
       let v := natOf (s.scratch m.val addr n)
       MillReady s m.val a (wordI e.2.1 f) → addr % n = 0 → addr + n ≤ 2 ^ 21 →
         RunsOnMill e.1 s m.val (fun x => x.setSr f.da.val
           (if e.2.2.2 = true ∧ 2 ^ (8 * n - 1) ≤ v then BitVec.ofInt 64 ((v : Int) - 2 ^ (8 * n)) else BitVec.ofNat 64 v))) ∧
  (∀ (m : Fin 256) (a : Nat) (f : FmtI) (s : State),
     let addr := ((s.mill m.val).sr f.sa.val + f.imm.signExtend 64).toNat
     let v := (s.mill m.val).sr f.da.val
     ∀ e ∈ ([(.sb m f, 0x10, 1), (.sh m f, 0x11, 2), (.sw m f, 0x12, 4), (.sd m f, 0x13, 8)] :
         List (Instr × Nat × Nat)),
       let n := e.2.2
       MillReady s m.val a (wordI e.2.1 f) → addr % n = 0 → addr + n ≤ 2 ^ 21 → s.textEnd a ≤ addr →
         StoresOnMill e.1 s m.val addr ((List.range n).map (fun k => (v >>> (8 * k)).setWidth 8)) id) ∧
  (∀ (m : Fin 256) (a : Nat) (f : FmtA) (size : Bool) (s : State),
     let n := if size then 8 else 4
     let addr := ((s.mill m.val).sr f.sa.val).toNat
     let v := ((s.mill m.val).sr f.sb.val).toNat % 2 ^ (8 * n)
     let old := natOf (s.scratch m.val addr n)
     ∀ e ∈ ([(.atomAdd m f size, 0, (old + v) % 2 ^ (8 * n)), (.atomSwap m f size, 2, v)] : List (Instr × Nat × Nat)),
       MillReady s m.val a (wordA 0x14 (e.2.1 + if size then 1 else 0) f) →
       addr % n = 0 → addr + n ≤ 2 ^ 21 → s.textEnd a ≤ addr →
         StoresOnMill e.1 s m.val addr ((List.range n).map (fun k => BitVec.ofNat 8 (e.2.2 / 256 ^ k)))
           (fun x => x.setSr f.da.val (BitVec.ofNat 64 old)))

/-- Branches and jumps go to the target that their offset gives, and a branch whose condition fails goes on. For
BEQ, BNE, BLT, BGE, BLTU, BGEU, JAL and JALR, on a mill that is ready to run the word: where the condition
holds (always for the jumps) and the target lies in the text section at a multiple of 4, PC is the target,
RETIRED has advanced, the jumps have written PC + 4 to s31 or sDA, and everything else is as before; where
the condition fails, PC + 4. (R297, R303) -/
def Obligations.BranchesAndJumps : Prop :=
  ∀ (m : Fin 256) (a : Nat) (s : State) (target : Nat),
    let x := s.mill m.val
    let goes := fun (i : Instr) (g : Mill → Mill) => ∃ t, exec i s = .next t ∧ OnlyMill s t m.val ∧
      t.mill m.val = { (g x) with pc := BitVec.ofNat 21 target, retired := x.retired + 1, wait := .none, pass := false }
    target < 2 ^ 21 → s.inText a target = true →
    (∀ f : FmtB,
      let p := x.sr f.sa.val
      let q := x.sr f.sb.val
      ∀ e ∈ ([(.beq m f, 0x18, decide (p = q)), (.bne m f, 0x19, decide (p ≠ q)),
          (.blt m f, 0x1A, decide (p.toInt < q.toInt)), (.bge m f, 0x1B, decide (q.toInt ≤ p.toInt)),
          (.bltu m f, 0x1C, decide (p.toNat < q.toNat)), (.bgeu m f, 0x1D, decide (q.toNat ≤ p.toNat))] :
          List (Instr × Nat × Bool)),
        MillReady s m.val a (wordB e.2.1 f) →
          (e.2.2 = true → (x.pc.toNat : Int) + 4 * f.off.toInt = target → goes e.1 id) ∧
          (e.2.2 = false → RunsOnMill e.1 s m.val id)) ∧
    (∀ off : BitVec 26, MillReady s m.val a (wordJ 0x1E off) → (x.pc.toNat : Int) + 4 * off.toInt = target →
      goes (.jal m off) (fun y => y.setSr 31 (BitVec.ofNat 64 (x.pc.toNat + 4)))) ∧
    (∀ f : FmtI, MillReady s m.val a (wordI 0x1F f) → (x.sr f.sa.val + f.imm.signExtend 64).toNat = target →
      goes (.jalr m f) (fun y => y.setSr f.da.val (BitVec.ofNat 64 (x.pc.toNat + 4))))

/-- The VALU operations write the active lanes and keep every other lane. For each VALU operation from VADD to
VMAXU and for VSEL, VPERM, VBCAST, VEXT and VINS, on a mill that is ready to run the word: each lane whose
bit in pPM is 1 holds the result of R305 (VSEL writes every lane), every other lane of vVD keeps its value,
VEXT writes the zero-extended lane to sVD, and everything else is as before. (R304, R305) -/
def Obligations.VectorLaneResults : Prop :=
  ∀ (m : Fin 256) (a : Nat) (f : FmtV) (s : State),
    let x := s.mill m.val
    let p := x.pr f.pm.val
    let va := fun i => lane (x.vr f.va.val) i
    let vb := fun i => lane (x.vr f.vb.val) i
    let old := fun i => lane (x.vr f.vd.val) i
    let b := fun i => (vb i).toNat
    let writes := fun (i : Instr) (r : Nat → BitVec 32) => ∃ v : BitVec 1024, (∀ k, k < 32 → lane v k = r k) ∧
      RunsOnMill i s m.val (fun y => y.setVr f.vd.val v)
    let masked := fun (r : Nat → BitVec 32) (k : Nat) => if p.getLsbD k = true then r k else old k
    (∀ e ∈ ([(.vadd m f, 0x00, fun i => va i + vb i), (.vsub m f, 0x01, fun i => va i - vb i),
        (.vmul m f, 0x02, fun i => va i * vb i), (.vand m f, 0x03, fun i => va i &&& vb i),
        (.vor m f, 0x04, fun i => va i ||| vb i), (.vxor m f, 0x05, fun i => va i ^^^ vb i),
        (.vsll m f, 0x06, fun i => va i <<< (b i % 32)), (.vsrl m f, 0x07, fun i => va i >>> (b i % 32)),
        (.vsra m f, 0x08, fun i => (va i).sshiftRight (b i % 32)),
        (.vmin m f, 0x09, fun i => if (va i).toInt ≤ (vb i).toInt then va i else vb i),
        (.vmax m f, 0x0A, fun i => if (va i).toInt ≤ (vb i).toInt then vb i else va i),
        (.vminu m f, 0x0B, fun i => if (va i).toNat ≤ b i then va i else vb i),
        (.vmaxu m f, 0x0C, fun i => if (va i).toNat ≤ b i then vb i else va i),
        (.vperm m f, 0x21, fun i => va (b i % 32)),
        (.vbcast m f, 0x22, fun _ => (x.sr f.va.val).setWidth 32)] : List (Instr × Nat × (Nat → BitVec 32))),
      MillReady s m.val a (wordV 0x20 e.2.1 f) → writes e.1 (masked e.2.2)) ∧
    (MillReady s m.val a (wordV 0x20 0x20 f) → writes (.vsel m f) (fun k => if p.getLsbD k = true then va k else vb k)) ∧
    (f.pm.val = 0 → MillReady s m.val a (wordV 0x20 0x23 f) →
      RunsOnMill (.vext m f) s m.val (fun y => y.setSr f.vd.val ((va f.vb.val).setWidth 64))) ∧
    (f.pm.val = 0 → MillReady s m.val a (wordV 0x20 0x24 f) →
      writes (.vins m f) (fun k => if k = f.vb.val then (x.sr f.va.val).setWidth 32 else old k))

/-- The vector compares write the predicate bits of the active lanes; VCVT converts the active elements of one
part of a vector. For VCMPEQ, VCMPLT, VCMPLTU and the three VFP compares with VD below 8, on a mill that is
ready to run the word: the bit of each active lane in pVD is the comparison of R305 or R306, the bits that
pPM masks out keep their values (p0 stays all ones), and everything else is as before. For a VCVT whose FMT
is BF16, FP16, E4M3, E5M2, INT8 or INT32, whose FN [1:0] is zero and whose part VB is within its limit, on a
mill that is ready to run the word: a widening gives lane i the widened element 32 VB + i of vVA, a
narrowing gives element 32 VB + i of vVD the narrowed lane i, elements outside the part and lanes that pPM
masks out keep their values, and everything else is as before. (R304, R305, R306, R308) -/
def Obligations.VectorComparesAndConversions : Prop :=
  (∀ (m : Fin 256) (a : Nat) (f : FmtV) (ty : BitVec 2) (s : State), f.vd.val < 8 →
     let x := s.mill m.val
     let va := fun i => lane (x.vr f.va.val) i
     let vb := fun i => lane (x.vr f.vb.val) i
     let writes := fun (i : Instr) (r : Nat → Bool) => ∃ w : BitVec 32,
       (∀ k, k < 32 → w.getLsbD k = if (x.pr f.pm.val).getLsbD k = true then r k else (x.pr f.vd.val).getLsbD k) ∧
       RunsOnMill i s m.val (fun y => y.setPr f.vd.val w)
     (∀ e ∈ ([(.vcmpeq m f, 0x10, fun i => decide (va i = vb i)),
         (.vcmplt m f, 0x11, fun i => decide ((va i).toInt < (vb i).toInt)),
         (.vcmpltu m f, 0x12, fun i => decide ((va i).toNat < (vb i).toNat))] : List (Instr × Nat × (Nat → Bool))),
       MillReady s m.val a (wordV 0x20 e.2.1 f) → writes e.1 e.2.2) ∧
     (ty ≠ 3 → ∀ e ∈ ([(.vfcmpeq m f ty, 0x10, fpEq), (.vfcmplt m f ty, 0x11, fpLt), (.vfcmple m f ty, 0x12, fpLe)] :
         List (Instr × Nat × (FpFmt → Nat → Nat → Bool))),
       MillReady s m.val a (wordV 0x21 (64 * ty.toNat + e.2.1) f) → writes e.1 (fun i =>
         if ty = 0 then e.2.2 (vfpFmt ty) (va i).toNat (vb i).toNat
         else e.2.2 (vfpFmt ty) ((va i).toNat % 2 ^ 16) ((vb i).toNat % 2 ^ 16) &&
           e.2.2 (vfpFmt ty) ((va i).toNat / 2 ^ 16) ((vb i).toNat / 2 ^ 16)))) ∧
  (∀ (m : Fin 256) (a : Nat) (f : FmtV) (fn : BitVec 7) (n : Nat) (s : State),
     let x := s.mill m.val
     let fmt := fn.toNat / 8
     (fmt, n) ∈ ([(1, 16), (2, 16), (3, 8), (4, 8), (10, 8), (11, 32)] : List (Nat × Nat)) →
     fn.toNat % 4 = 0 → f.vb.val < 32 / n →
     (MillReady s m.val a (wordV 0x26 fn.toNat f) → ∃ v : BitVec 1024,
       (∀ k, k < 32 → lane v k = if (x.pr f.pm.val).getLsbD k = true then widen fmt (vecElem (x.vr f.va.val) n (32 * f.vb.val + k))
         else lane (x.vr f.vd.val) k) ∧
       RunsOnMill (.vcvtWiden m f fn) s m.val (fun y => y.setVr f.vd.val v)) ∧
     (MillReady s m.val a (wordV 0x26 (128 + fn.toNat) f) → ∃ v : BitVec 1024,
       (∀ k, k < 1024 / n → vecElem v n k =
         if (x.pr f.pm.val).getLsbD (k * n / 32) = true ∧ k / 32 = f.vb.val then
           narrow fmt (fn.toNat / 4 % 2 == 1) (lane (x.vr f.va.val) (k % 32)) % 2 ^ n
         else vecElem (x.vr f.vd.val) n k) ∧
       RunsOnMill (.vcvtNarrow m f fn) s m.val (fun y => y.setVr f.vd.val v)))

/-- The VFP operations give each active element the exact result rounded once to nearest even. For VFADD, VFSUB,
VFMUL, VFMA, VFMIN and VFMAX of the three element types, on a mill that is ready to run the word: each
element of an active lane is the exact sum, difference, product or product and sum, encoded by round to
nearest even (VFMIN and VFMAX by R307), and everything else is as before. VEXP2, VRCP and VRSQ of type 0
complete with the value of the fixed algorithm, whose choice within one unit in the last place is free (log
entry 6); VRCP of a zero is the infinity of its sign, and VRSQ of a negative number is NaN. (R304, R306,
R307) -/
def Obligations.VectorFloatResults : Prop :=
  (∀ (m : Fin 256) (a : Nat) (f : FmtV) (ty : BitVec 2) (s : State), ty ≠ 3 →
    let x := s.mill m.val
    let fmt := vfpFmt ty
    let d := fun (c : Nat) => fmt.dec c
    let at_ := fun (r : Fin 32) (k : Nat) => (lane (x.vr r.val) k).toNat
    let writes := fun (i : Instr) (op : Nat → Nat → Nat → Nat) => ∃ v : BitVec 1024,
      (∀ k, k < 32 → lane v k = if (x.pr f.pm.val).getLsbD k = true then
          (let a := at_ f.va k
           let b := at_ f.vb k
           let c := at_ f.vd k
           if ty = 0 then BitVec.ofNat 32 (op a b c)
           else BitVec.ofNat 32 (op (a % 2 ^ 16) (b % 2 ^ 16) (c % 2 ^ 16) +
             2 ^ 16 * op (a / 2 ^ 16) (b / 2 ^ 16) (c / 2 ^ 16)))
        else lane (x.vr f.vd.val) k) ∧
      RunsOnMill i s m.val (fun y => y.setVr f.vd.val v)
    (∀ e ∈ ([(.vfadd m f ty, 0, fun a b _ => fmt.enc .rne false ((d a).add (d b))),
        (.vfsub m f ty, 1, fun a b _ => fmt.enc .rne false ((d a).add (d b).neg)),
        (.vfmul m f ty, 2, fun a b _ => fmt.enc .rne false ((d a).mul (d b))),
        (.vfma m f ty, 3, fun a b c => fmt.enc .rne false (((d a).mul (d b)).add (d c))),
        (.vfmin m f ty, 4, fun a b _ => fpMinMax false fmt a b),
        (.vfmax m f ty, 5, fun a b _ => fpMinMax true fmt a b)] : List (Instr × Nat × (Nat → Nat → Nat → Nat))),
      MillReady s m.val a (wordV 0x21 (64 * ty.toNat + e.2.1) f) → writes e.1 e.2.2) ∧
    (ty = 0 → ∀ e ∈ ([(.vexp2 m f ty, 6, vexp1), (.vrcp m f ty, 7, vrcp1), (.vrsq m f ty, 8, vrsq1)] :
        List (Instr × Nat × (BitVec 32 → Nat))),
      MillReady s m.val a (wordV 0x21 e.2.1 f) → writes e.1 (fun a _ _ => e.2.2 (BitVec.ofNat 32 a)))) ∧
  vrcp1 0x00000000 = 0x7F800000 ∧ vrcp1 0x80000000 = 0xFF800000 ∧
  (∀ c : BitVec 32, 0x80000000 < c.toNat → c.toNat ≤ 0xFF800000 → Fp.f32.dec (vrsq1 c) = .nan)

/-- VLD, VST, VGATHER and VSCATTER move vectors between the registers and the mill's own scratch. On a mill that
is ready to run the word: VLD and VST at an address that is a multiple of 128 inside the mill's own scratch
move 128 bytes; VGATHER gives each active lane the 4-byte word at sVA plus its lane of vVB; VSCATTER leaves
at each such word the lane of the highest active lane that names it, where every such address is a multiple
of 4 inside the own scratch, and for the stores above the text section. Bytes that no lane names, masked
lanes and everything else are as before. (R297, R309, R330) -/
def Obligations.VectorMemory : Prop :=
  ∀ (m : Fin 256) (a : Nat) (s : State),
    let x := s.mill m.val
    (∀ f : FmtI,
      let addr := (x.sr f.sa.val + BitVec.ofInt 64 (128 * f.imm.toInt)).toNat
      addr % 128 = 0 → addr + 128 ≤ 2 ^ 21 →
      (MillReady s m.val a (wordI 0x22 f) → RunsOnMill (.vld m f) s m.val (fun y => y.setVr f.da.val
        (BitVec.ofNat 1024 (natOf (s.scratch m.val addr 128))))) ∧
      (MillReady s m.val a (wordI 0x23 f) → s.textEnd a ≤ addr → StoresOnMill (.vst m f) s m.val addr
        ((List.range 128).map (fun k => ((x.vr f.da.val) >>> (8 * k)).setWidth 8)) id)) ∧
    (∀ f : FmtV,
      let on := fun k => k < 32 ∧ (x.pr f.pm.val).getLsbD k = true
      let word := fun k => (x.sr f.va.val + (lane (x.vr f.vb.val) k).setWidth 64).toNat
      (∀ k, on k → word k % 4 = 0 ∧ word k + 4 ≤ 2 ^ 21) →
      (MillReady s m.val a (wordV 0x24 0 f) → ∃ v : BitVec 1024,
        (∀ k, on k → lane v k = BitVec.ofNat 32 (natOf (s.scratch m.val (word k) 4))) ∧
        (∀ k, k < 32 → ¬on k → lane v k = lane (x.vr f.vd.val) k) ∧
        RunsOnMill (.vgather m f) s m.val (fun y => y.setVr f.vd.val v)) ∧
      ((∀ k, on k → s.textEnd a ≤ word k) → MillReady s m.val a (wordV 0x24 1 f) →
        ∃ t, exec (.vscatter m f) s = .next t ∧ t.mill m.val = x.after id ∧ OnlyMillScratch s t m.val ∧
          (∀ k, on k → (∀ j, on j → k < j → word j ≠ word k) →
            t.scratch m.val (word k) 4 = (List.range 4).map (fun b => ((lane (x.vr f.vd.val) k) >>> (8 * b)).setWidth 8)) ∧
          ∀ o, (∀ k, on k → o < m.val * 2 ^ 21 + word k ∨ m.val * 2 ^ 21 + word k + 4 ≤ o) →
            Tbl.at t.qd.grid.scratch o = Tbl.at s.qd.grid.scratch o))

/-- VRED reduces the active lanes into sVD in the fixed order, with a masked lane at the identity. For RSUMF,
RMAXF, RMINF, RSUMI, RMAXI and RMINI, on a mill that is ready to run the word: with every masked lane at the
identity of R310, lanes combined 16 apart, then 8, 4, 2 and 1 apart, the result zero-extended stands in sVD,
and everything else is as before. FP32 sums round to nearest even at each step, integer sums wrap. (R310) -/
def Obligations.VectorReductions : Prop :=
  ∀ (m : Fin 256) (a : Nat) (f : FmtV) (s : State),
    let x := s.mill m.val
    let f32 := fun (c : Nat) => Fp.f32.dec c
    let int := fun (c : Nat) => (BitVec.ofNat 32 c).toInt
    ∀ e ∈ ([(.rsumf m f, 0, 0x80000000, fun p q => Fp.f32.enc .rne false ((f32 p).add (f32 q))),
        (.rmaxf m f, 1, 0xFF800000, fpMinMax true Fp.f32), (.rminf m f, 2, 0x7F800000, fpMinMax false Fp.f32),
        (.rsumi m f, 3, 0, fun p q => (p + q) % 2 ^ 32),
        (.rmaxi m f, 4, 0x80000000, fun p q => if int p < int q then q else p),
        (.rmini m f, 5, 0x7FFFFFFF, fun p q => if int p < int q then p else q)] :
        List (Instr × Nat × Nat × (Nat → Nat → Nat))),
      let op := e.2.2.2
      let l0 := fun k => if (x.pr f.pm.val).getLsbD k = true then (lane (x.vr f.va.val) k).toNat else e.2.2.1
      let l1 := fun k => op (l0 k) (l0 (k + 16))
      let l2 := fun k => op (l1 k) (l1 (k + 8))
      let l3 := fun k => op (l2 k) (l2 (k + 4))
      let l4 := fun k => op (l3 k) (l3 (k + 2))
      MillReady s m.val a (wordV 0x25 e.2.1 f) →
        RunsOnMill e.1 s m.val (fun y => y.setSr f.vd.val (BitVec.ofNat 64 (op (l4 0) (l4 1))))

/-- TZERO, TLD, TST, TSTB, TROW and TWROW act on accumulators as R315 says; TMMA issues and works on the
operands that stood at its issue. For TZERO, TLD, TST, TSTB, TROW and TWROW with PAY [9:0] = 0, on a mill
that is ready to run the word and has no TMMA on the accumulator: the elements, the tag, the vector register
or the bytes of the own scratch hold what R315 gives (TLD and TST at a multiple of 64 inside the own
scratch, TST and TSTB above the text section, TSTB with an FP32 tag and each element rounded to BF16), and
everything else, the other accumulators among it, is as before. For a TMMA of one of the ten formats with
both operands at multiples of 64 inside the own scratch, fewer than two TMMAs in the tensor unit, none of
them on the accumulator, and ZERO = 1 or a tag that suits the format, on a mill that is ready to run the
word: the TMMA stands last in the unit with its accumulator, format, TRB, ZERO, KB (0 meaning 256) and the
bytes of A and B as they stand now, PC and RETIRED have advanced, and everything else, the accumulator among
it, is as before. (R294, R311, R312, R314, R315, R316) -/
def Obligations.TilesAndAccumulators : Prop :=
  (∀ (m : Fin 256) (a : Nat) (f : FmtT) (int : Bool) (s : State),
     f.pay = (if int then 1024 else 0) → (s.mill m.val).accBusy f.acc.val = false →
     let x := s.mill m.val
     let n := f.acc.val
     let addr := (x.sr f.sa.val).toNat
     let row := (x.sr f.sa.val).toNat % 32
     let el := fun k => Tbl.at x.acc (1024 * n + k)
     let ready := fun (op : Nat) => MillReady s m.val a (wordT 0x29 { f with pay := BitVec.ofNat 14 (2048 * op + f.pay.toNat) })
     let fills := fun (i : Instr) (v : Nat → BitVec 32) => ∃ (acc : Tbl (BitVec 32)) (tags : BitVec 4),
       (∀ k, Tbl.at acc k = if k / 1024 = n then v (k % 1024) else Tbl.at x.acc k) ∧
       (∀ k, k < 4 → tags.getLsbD k = if k = n then int else x.tag k) ∧
       RunsOnMill i s m.val (fun y => { y with acc := acc, tags := tags })
     let stores := fun (i : Instr) (w : Nat) (v : Nat → Nat) => ∃ d : List Byte, d.length = 1024 * w ∧
       (∀ k b, k < 1024 → b < w → d.getD (w * k + b) 0 = BitVec.ofNat 8 (v k / 256 ^ b)) ∧
       StoresOnMill i s m.val addr d id
     (ready 0 → fills (.tzero m f) (fun _ => 0)) ∧
     (ready 1 → addr % 64 = 0 → addr + 4096 ≤ 2 ^ 21 →
       fills (.tld m f) (fun k => BitVec.ofNat 32 (natOf (s.scratch m.val (addr + 4 * k) 4)))) ∧
     (ready 2 → addr % 64 = 0 → addr + 4096 ≤ 2 ^ 21 → s.textEnd a ≤ addr → stores (.tst m f) 4 (fun k => (el k).toNat)) ∧
     (ready 3 → addr % 64 = 0 → addr + 2048 ≤ 2 ^ 21 → s.textEnd a ≤ addr → x.tag n = false →
       stores (.tstb m f) 2 (fun k => Fp.bf16.enc .rne false (Fp.f32.dec (el k).toNat))) ∧
     (ready 4 → ∃ v : BitVec 1024, (∀ j, j < 32 → lane v j = el (32 * row + j)) ∧
       RunsOnMill (.trow m f) s m.val (fun y => y.setVr f.sb.val v)) ∧
     (ready 5 → ∃ acc : Tbl (BitVec 32),
       (∀ k, Tbl.at acc k = if k / 1024 = n ∧ k % 1024 / 32 = row then lane (x.vr f.sb.val) (k % 32) else Tbl.at x.acc k) ∧
       RunsOnMill (.twrow m f) s m.val (fun y => { y with acc := acc }))) ∧
  (∀ (m : Fin 256) (a : Nat) (f : FmtT) (s : State),
     let x := s.mill m.val
     let fmt := f.pay.toNat / 1024
     let kb := if f.pay.toNat % 256 = 0 then 256 else f.pay.toNat % 256
     let zero := f.pay.getLsbD 8
     let pa := (x.sr f.sa.val).toNat
     let pb := (x.sr f.sb.val).toNat
     let n := operandBytes fmt kb
     MillReady s m.val a (wordT 0x28 f) → 1 ≤ fmt → fmt ≤ 10 → pa % 64 = 0 → pb % 64 = 0 →
     pa + n ≤ 2 ^ 21 → pb + n ≤ 2 ^ 21 → x.tmma.length < 2 → x.accBusy f.acc.val = false →
     (zero = true ∨ x.tag f.acc.val = decide (fmt = 10)) →
       RunsOnMill (.tmma m f) s m.val (fun y => { y with tmma := y.tmma ++ [
         { acc := f.acc.val, fmt := fmt, trb := f.pay.getLsbD 9, zero := zero, kb := kb, aAddr := pa, bAddr := pb
           a := s.scratch m.val pa n, b := s.scratch m.val pb n }] }))

/-- A completed TMMA leaves each output at its accumulator plus its products, group by group in ascending k.
TMMA_COMPLETE of the oldest TMMA t of a mill that does not wait at TFENCE: for INT8 each output element is
the starting value (zero with ZERO = 1) plus the sum of its K products of signed bytes, modulo 2^32; for the
other formats it is the fold of R313, one FP32 round to nearest even for each group of G products; the tag
is that of the format, t leaves the unit, and every other element, accumulator, register and mill is as
before. (R313) -/
def Obligations.MatrixMultiplyResults : Prop :=
  ∀ (m : Fin 256) (s : State) (t : Tmma) (rest : List Tmma),
    let x := s.mill m.val
    x.tmma = t :: rest → x.wait ≠ .tfence → t.acc < 4 → 1 ≤ t.fmt → t.fmt ≤ 10 →
    let start := fun k => if t.zero then (0 : BitVec 32) else Tbl.at x.acc (1024 * t.acc + k)
    let g := tensorG t.fmt
    let k8 := fun (i j k : Nat) => (t.a.getD (i * (32 * t.kb) + k) 0).toInt *
      (t.b.getD (if t.trb then j * (32 * t.kb) + k else 32 * k + j) 0).toInt
    ∃ (acc : Tbl (BitVec 32)) (tags : BitVec 4) (u : State),
      exec (.tmmaComplete m) s = .next u ∧ OnlyMill s u m.val ∧
      u.mill m.val = { x with acc := acc, tags := tags, tmma := rest } ∧
      (∀ k, k / 1024 ≠ t.acc → Tbl.at acc k = Tbl.at x.acc k) ∧
      (∀ k, k < 4 → tags.getLsbD k = if k = t.acc then decide (t.fmt = 10) else x.tag k) ∧
      ∀ i j, i < 32 → j < 32 → Tbl.at acc (1024 * t.acc + 32 * i + j) =
        if t.fmt = 10 then
          start (32 * i + j) + BitVec.ofInt 32 ((List.range (32 * t.kb)).map (fun k => k8 i j k)).sum
        else (List.range (32 * t.kb / g)).foldl (fun (c : BitVec 32) n =>
          BitVec.ofNat 32 (Fp.f32.enc .rne false ((List.range g).foldl (fun r u =>
            r.add ((t.aNum i (g * n + u)).mul (t.bNum (g * n + u) j))) (Fp.f32.dec c.toNat)))) (start (32 * i + j))

/-- The endpoint operations configure, send, receive, poll and report as the endpoint's mode says. On a mill
that is ready to run the word and does not wait: QCFG of a valid word configures the endpoint anew, with 8
credits in mode 2; QSEND of 1 to 256 own bytes in mode 2 with a credit takes the credit and issues the
message to the partner mill; QRECV in mode 3 with an entry stores its payload at a multiple of 64 above the
text section, writes the information word to sDA and frees the entry; QPOLL writes the entries, credits or
completions that the mode counts; QSTAT in mode 4 takes the oldest completion. Everything else is as before.
(R275, R276, R277, R317) -/
def Obligations.QueueEndpointOperations : Prop :=
  ∀ (m : Fin 256) (a : Nat) (f : FmtA) (ep : Fin 8) (s : State),
    let x := s.mill m.val
    let e := x.qe ep.val
    let w := x.sr f.sa.val
    let mode := fun (c : Word) => c.toNat % 8
    x.wait = .none →
    (MillReady s m.val a (wordA 0x30 (0x00 * 8 + ep.val) f) → f.da.val = 0 → mode w ≤ 4 → w.toNat / 2 ^ 38 = 0 →
      (mode w = 4 → w.toNat / 2 ^ 36 % 4 ≤ 2) → (mode w = 1 ∨ mode w = 2 → s.inAllot a (w.toNat / 8 % 256) = true) →
      RunsOnMill (.qcfg m f ep) s m.val (fun y => y.mapQe ep.val (fun e =>
        { cfg := w, credits := if mode w = 2 then 8 else 0, epoch := e.epoch + 1 }))) ∧
    (MillReady s m.val a (wordA 0x30 (0x01 * 8 + ep.val) f) → mode e.cfg = 2 → e.credits ≠ 0 →
      let n := (x.sr f.sb.val).toNat
      1 ≤ n → n ≤ 256 → w.toNat + n ≤ 2 ^ 21 →
      RunsOnMill (.qsend m f ep) s m.val (fun y =>
        { y.mapQe ep.val (fun e => { e with credits := e.credits - 1 }) with
          vq0 := y.vq0 ++ [{ dst := e.cfg.toNat / 8 % 256, addr := m.val * 8 + ep.val,
                             op := .message (e.cfg.toNat / 2048 % 8), len := n
                             data := s.scratch m.val w.toNat n }] })) ∧
    (MillReady s m.val a (wordA 0x30 (0x02 * 8 + ep.val) f) → mode e.cfg = 3 → w.toNat % 64 = 0 →
      ∀ k rest, e.entries = k :: rest → w.toNat + k.data.length ≤ 2 ^ 21 → s.textEnd a ≤ w.toNat →
      k.fabric = true → k.data.length ≤ 256 → k.src < 2 ^ 14 → k.que < 2 ^ 10 →
      StoresOnMill (.qrecv m f ep) s m.val w.toNat k.data (fun y =>
        (y.mapQe ep.val (fun e => { e with entries := rest })).setSr f.da.val
          (BitVec.ofNat 64 (k.data.length + 2 ^ 9 + 2 ^ 10 * k.src + 2 ^ 24 * k.que)))) ∧
    (MillReady s m.val a (wordA 0x30 (0x03 * 8 + ep.val) f) → 1 ≤ mode e.cfg → mode e.cfg ≤ 4 →
      RunsOnMill (.qpoll m f ep) s m.val (fun y => y.setSr f.da.val (BitVec.ofNat 64
        (if mode e.cfg = 2 then e.credits else if mode e.cfg = 4 then e.comps.length else e.entries.length)))) ∧
    (MillReady s m.val a (wordA 0x30 (0x04 * 8 + ep.val) f) → mode e.cfg = 4 → e.outst < 256 →
      ∀ c rest, e.comps = c :: rest →
      RunsOnMill (.qstat m f ep) s m.val (fun y => (y.mapQe ep.val (fun e => { e with comps := rest })).setSr f.da.val
        (BitVec.ofNat 64 (c.toNat + 2 ^ 7 + 2 ^ 8 * e.outst))))

/-- DMA counter operations and CSR accesses read and write what they name, and change nothing else. On a mill
that is ready to run the word and does not wait: DMAQ with DA = 0 and fewer than 64 queued copies the eight
words at a multiple of 64 in the own scratch into the command queue; DWAIT, with COUNT at sSB or above, and
DREAD write STATUS, and COUNT and STATUS, to sDA; DCLR sets the counter to zero and OK; DLOG writes nothing
and returns 0 from an empty log; DWAITF acts as DWAIT when STATUS is OK and raises DMAFAIL with that status
in ESTAT when it is not. Everything else is as before. On a mill that is ready to run the word of the
operation with IMM16 [15:8] = 0: CSR_READ writes ARG, EPC, EADDR, HANDLER, TIME, RETIRED or an endpoint's
configuration to sDA; CSR_WRITE of HANDLER and EPC with a 21-bit value writes the word, CSR_SWAP also gives
sDA the old one, CSR_SET writes the old word or sSA and gives sDA the old one. Everything else is as before.
(R283, R295, R318, R319) -/
def Obligations.CountersAndControlWords : Prop :=
  (∀ (m : Fin 256) (a : Nat) (f : FmtA) (c : Fin 16) (s : State),
     let x := s.mill m.val
     let k := x.counter c.val
     let addr := (x.sr f.sa.val).toNat
     let ready := fun (op : Nat) => MillReady s m.val a (wordA 0x34 (16 * op + c.val) f)
     x.wait = .none →
     (ready 0 → f.da.val = 0 → addr % 64 = 0 → addr + 64 ≤ 2 ^ 21 → x.dmaq.length < 64 →
       RunsOnMill (.dmaq m f c) s m.val (fun y => { y with dmaq := y.dmaq ++
         [(List.range 8).map (fun i => BitVec.ofNat 64 (natOf (s.scratch m.val (addr + 8 * i) 8)))] })) ∧
     (ready 1 → (x.sr f.sb.val).toNat ≤ k.1.toNat →
       RunsOnMill (.dwait m f c) s m.val (fun y => y.setSr f.da.val (k.2.setWidth 64))) ∧
     (ready 2 → RunsOnMill (.dread m f c) s m.val (fun y => y.setSr f.da.val
       (BitVec.ofNat 64 (k.1.toNat + 2 ^ 32 * k.2.toNat)))) ∧
     (ready 3 → ∃ cnt : Tbl (BitVec 32 × BitVec 7),
       (∀ j, Tbl.at cnt j = if j = c.val then (0, 0) else Tbl.at x.cnt j) ∧
       RunsOnMill (.dclr m f c) s m.val (fun y => { y with cnt := cnt })) ∧
     (ready 4 → x.errs = [] → RunsOnMill (.dlog m f c) s m.val (fun y => y.setSr f.da.val 0)) ∧
     (ready 5 → (x.sr f.sb.val).toNat ≤ k.1.toNat →
       (k.2 = 0 → RunsOnMill (.dwaitf m f c) s m.val (fun y => y.setSr f.da.val 0)) ∧
       (k.2 ≠ 0 → x.handler ≠ 0 → x.inh = false → RaisesOnMill (.dwaitf m f c) s m.val 0x08 0 k.2))) ∧
  (∀ (m : Fin 256) (a : Nat) (f : FmtI) (s : State),
     let x := s.mill m.val
     let v := x.sr f.sa.val
     let ready := fun (op k : Nat) => f.imm = BitVec.ofNat 16 (64 * op + k) ∧ MillReady s m.val a (wordI 0x38 f)
     (∀ e ∈ ([(1, x.arg), (9, x.epc.setWidth 64), (10, x.eaddr), (11, x.handler.setWidth 64),
         (17, s.qd.aon.ns.setWidth 64), (18, x.retired)] : List (Nat × Word)),
       ready 0 e.1 → RunsOnMill (.csrRead m f) s m.val (fun y => y.setSr f.da.val e.2)) ∧
     (∀ q : Fin 8, ready 0 (24 + q.val) → RunsOnMill (.csrRead m f) s m.val (fun y => y.setSr f.da.val (x.qe q.val).cfg)) ∧
     (v.toNat < 2 ^ 21 →
       (ready 1 11 → RunsOnMill (.csrWrite m f) s m.val (fun y => { y with handler := v.setWidth 21 })) ∧
       (ready 1 9 → RunsOnMill (.csrWrite m f) s m.val (fun y => { y with epc := v.setWidth 21 })) ∧
       (ready 2 11 → RunsOnMill (.csrSwap m f) s m.val (fun y =>
         { y with handler := v.setWidth 21 }.setSr f.da.val (x.handler.setWidth 64))) ∧
       (ready 3 11 → RunsOnMill (.csrSet m f) s m.val (fun y =>
         { y with handler := x.handler ||| v.setWidth 21 }.setSr f.da.val (x.handler.setWidth 64)))))

/-- SYS operations that wait for nothing retire at once, ERET resumes at EPC, and what waits ends at its
condition or its time. On a mill that is ready to run the word with its unused fields zero: NOP, FENCE with
no VQ0 request unanswered and no failed store, TFENCE with an idle tensor unit and WAITT of a time that has
come complete and change nothing but PC and RETIRED; ERET in the handler goes to EPC and clears INH; BRK
with BRK_EN = 1 halts the mill under debug after it with REASON 2 (log entry 31). WAITT of a time that has
not come leaves PC and RETIRED as they are and the mill waiting; WAITT_EXPIRE on a running mill that waits
there and whose time has come completes the instruction, and changes nothing else. (R320, R324, R325, R326) -/
def Obligations.FencesHandlersAndWaits : Prop :=
  (∀ (m : Fin 256) (a : Nat) (f : FmtA) (s : State),
     let x := s.mill m.val
     let ready := fun (fn : Nat) => MillReady s m.val a (wordA 0x39 fn f)
     f.da.val = 0 → f.sb.val = 0 →
     (f.sa.val = 0 →
       (ready 0 → RunsOnMill (.sysNop m f) s m.val id) ∧
       (ready 1 → x.vq0 = [] → x.vq1 = [] → x.storeFail = none → RunsOnMill (.sysFence m f) s m.val id) ∧
       (ready 8 → x.tmma = [] → RunsOnMill (.tfence m f) s m.val id) ∧
       (ready 4 → x.inh = true → s.inText a x.epc.toNat = true → ∃ t, exec (.eret m f) s = .next t ∧
         OnlyMill s t m.val ∧ t.mill m.val = { x with pc := x.epc, inh := false, retired := x.retired + 1,
                                                      wait := .none, pass := false }) ∧
       (ready 3 → x.brkEn = true → ∃ t, exec (.brk m f) s = .next t ∧ OnlyMill s t m.val ∧
         t.mill m.val = { x with pc := x.pc + 4, retired := x.retired + 1, dhalt := true, reason := 2, pass := false })) ∧
     (ready 7 → (x.sr f.sa.val).toNat ≤ s.qd.aon.ns.toNat → RunsOnMill (.waitt m f) s m.val id)) ∧
  (∀ (m : Fin 256) (a : Nat) (s : State),
     let x := s.mill m.val
     (∀ f : FmtA, f.da.val = 0 → f.sb.val = 0 → MillReady s m.val a (wordA 0x39 7 f) →
       s.qd.aon.ns.toNat < (x.sr f.sa.val).toNat → ∃ t, exec (.waitt m f) s = .next t ∧ OnlyMill s t m.val ∧
         (t.mill m.val).wait = .waitt f.sa.val ∧ (t.mill m.val).pc = x.pc ∧ (t.mill m.val).retired = x.retired ∧
         (t.mill m.val).s = x.s ∧ (t.mill m.val).v = x.v) ∧
     (∀ sa, s.allotOf m.val = some a → s.alState a < 4 → x.run = .running → x.dhalt = false → x.haltReq = false →
       x.stepping = false → x.wait = .waitt sa → (x.sr sa).toNat ≤ s.qd.aon.ns.toNat →
         RunsOnMill (.waittExpire m) s m.val id))

/-- HALT ends the program normally and ABORT stops the mill with its status, and both break the barrier. On a
mill that is ready to run the word, holds no lease, and in an allotment of which no mill waits at BAR: HALT
leaves the mill ended at its PC with RETIRED one more; ABORT outside a handler, handled or not, leaves it
stopped by a fault with CAUSE ABORT, EPC its PC, and ESTAT the listed error status in sSA [6:0] or else
ERR_ABORT; either breaks the allotment's barrier and leaves every other mill and every memory as before.
(R270, R320, R321, R325) -/
def Obligations.ProgramEnds : Prop :=
  ∀ (m : Fin 256) (a : Nat) (f : FmtA) (s : State),
    let x := s.mill m.val
    f.da.val = 0 → f.sb.val = 0 → (∀ l ∈ s.qd.grid.lease, l.2.held = true → l.2.holder.toNat ≠ m.val) →
    (∀ k da, (s.mill k).wait ≠ .bar da) →
    let broke := fun (t : State) => (t.allot a).broken = true ∧ (∀ j, j ≠ m.val → t.mill j = s.mill j) ∧
      t.qd.hbm = s.qd.hbm ∧ t.qd.grid.scratch = s.qd.grid.scratch ∧ t.qd.grid.common = s.qd.grid.common ∧
      t.sv = s.sv ∧ t.pending = s.pending
    (f.sa.val = 0 → MillReady s m.val a (wordA 0x39 2 f) → ∃ t, exec (.sysHalt m f) s = .next t ∧ broke t ∧
      t.mill m.val = { x with run := .ended, retired := x.retired + 1, wait := .none, haltReq := false, stepping := false }) ∧
    (MillReady s m.val a (wordA 0x39 5 f) → x.inh = false → ∃ t, exec (.sysAbort m f) s = .next t ∧ broke t ∧
      t.mill m.val = { x with
        run := .faulted, epc := x.pc, cause := 0x09, eaddr := 0, wait := .none, pass := false, haltReq := false
        stepping := false
        estat := if listedError ((x.sr f.sa.val).setWidth 7) then (x.sr f.sa.val).setWidth 7 else St.ABORT })

/-- BAR waits until every mill of the allotment has arrived, and the last arrival receives 0. On a mill that is
ready to run BAR: with a broken barrier it receives 1 at once; before the last arrival it waits at its PC
and is counted among the arrivals; as the last arrival it receives 0 and the arrivals are cleared; and each
mill of the allotment that waited at BAR then has 0 in its register and goes on. (R321) -/
def Obligations.BarrierArrivals : Prop :=
  ∀ (m : Fin 256) (a : Nat) (f : FmtA) (s : State), f.sa.val = 0 → f.sb.val = 0 →
    MillReady s m.val a (wordA 0x39 6 f) →
    let x := s.mill m.val
    let came := fun k => k = m.val ∨ k ∈ (s.allot a).arrived
    ((s.allot a).broken = true → RunsOnMill (.bar m f) s m.val (fun y => y.setSr f.da.val 1)) ∧
    ((s.allot a).broken = false → (∃ k ∈ s.millsOf a, ¬came k) → ∃ t, exec (.bar m f) s = .next t ∧
      (t.mill m.val).wait = .bar f.da.val ∧ (t.mill m.val).pc = x.pc ∧ m.val ∈ (t.allot a).arrived ∧
      ∀ j, j ≠ m.val → t.mill j = s.mill j) ∧
    ((s.allot a).broken = false → (∀ k ∈ s.millsOf a, came k) → ∃ t, exec (.bar m f) s = .next t ∧
      t.mill m.val = x.after (fun y => y.setSr f.da.val 0) ∧ (t.allot a).arrived = [] ∧
      ∀ k ∈ s.millsOf a, k ≠ m.val → ∀ da, (s.mill k).wait = .bar da → (s.mill k).run = .running →
        (s.mill k).haltReq = false → (s.mill k).stepping = false →
        t.mill k = (s.mill k).after (fun y => y.setSr da 0))

/-- A reserved field, a misaligned or unreachable address and an unsuited queue operation raise their
exceptions. With HANDLER non-zero and INH = 0, on a mill that is ready to run the word: CLZ with SB not 0,
LUI with SA not 0 and a VFP of type 3 raise ILLEGAL (R298), a misaligned LW raises ALIGN with its address,
an SW into the text section raises ACCESS, QPOLL of a closed endpoint raises QERR, ERET outside the handler
raises ILLEGAL and BRK with BRK_EN = 0 raises BRK. EPC, CAUSE, EADDR and ESTAT hold the exception, INH is 1,
PC is HANDLER, and nothing else has changed. (R325) -/
def Obligations.MillExceptionsEnterHandler : Prop :=
  ∀ (m : Fin 256) (a : Nat) (s : State),
    let x := s.mill m.val
    x.handler ≠ 0 → x.inh = false →
    (∀ f : FmtA,
      (f.sb.val ≠ 0 → MillReady s m.val a (wordA 0x00 0x015 f) → RaisesOnMill (.clz m f) s m.val 0x01 0 0) ∧
      (∀ ep : Fin 8, (x.qe ep.val).cfg.toNat % 8 = 0 → MillReady s m.val a (wordA 0x30 (24 + ep.val) f) →
        RaisesOnMill (.qpoll m f ep) s m.val 0x07 0 0) ∧
      (f.da.val = 0 → f.sa.val = 0 → f.sb.val = 0 →
        (MillReady s m.val a (wordA 0x39 4 f) → RaisesOnMill (.eret m f) s m.val 0x01 0 0) ∧
        (MillReady s m.val a (wordA 0x39 3 f) → x.brkEn = false → RaisesOnMill (.brk m f) s m.val 0x06 0 0))) ∧
    (∀ f : FmtI,
      let addr := x.sr f.sa.val + f.imm.signExtend 64
      (f.sa.val ≠ 0 → MillReady s m.val a (wordI 0x05 f) → RaisesOnMill (.lui m f) s m.val 0x01 0 0) ∧
      (addr.toNat % 4 ≠ 0 → MillReady s m.val a (wordI 0x0C f) → RaisesOnMill (.lw m f) s m.val 0x03 addr 0) ∧
      (addr.toNat % 4 = 0 → addr.toNat + 4 ≤ 2 ^ 21 → addr.toNat < s.textEnd a →
        MillReady s m.val a (wordI 0x12 f) → RaisesOnMill (.sw m f) s m.val 0x02 addr 0)) ∧
    (∀ f : FmtV, MillReady s m.val a (wordV 0x21 0xC0 f) → RaisesOnMill (.vfadd m f 3) s m.val 0x01 0 0)

/-- A remote load waits, is performed at its destination and returns; a message enters the endpoint and its
credit returns. LW of a common-scratch word of the allotment's share puts a request in VQ0 and waits at its
PC; MESH_REQUEST of a load that is first in VQ0 performs it and puts the bytes in VQ1; MESH_RESPONSE of such
a response completes the waiting load with the extended value; MESH_MESSAGE puts a message into an endpoint
of mode 1 that names the sender and holds fewer than 8 entries; MESSAGE_CREDIT_RETURN gives the sender one
credit, up to 8; LEASE_EXPIRE frees a lease word that is held. (R270, R273, R274, R276, R301) -/
def Obligations.MeshCarriesRemoteAccesses : Prop :=
  ∀ (m : Fin 256) (a : Nat) (s : State),
    let x := s.mill m.val
    (∀ f : FmtI, let addr := (x.sr f.sa.val + f.imm.signExtend 64).toNat
      MillReady s m.val a (wordI 0x0C f) → x.storeFail = none → addr % 4 = 0 → 0x200000000 + (s.shareOf a).1 ≤ addr →
      addr + 4 ≤ 0x200000000 + (s.shareOf a).1 + (s.shareOf a).2 → addr + 4 ≤ 0x204000000 →
      ∃ t, exec (.lw m f) s = .next t ∧ OnlyMill s t m.val ∧ (t.mill m.val).pc = x.pc ∧
        (t.mill m.val).wait = .load f.da.val 4 true ∧ (t.mill m.val).s = x.s ∧
        (t.mill m.val).vq0 = x.vq0 ++ [{ dst := 256 + addr / 64 % 64, addr := addr, op := .load, len := 4, data := [] }]) ∧
    (∀ r rest, x.vq0 = r :: rest → r.op = .load → s.allotOf m.val = some a →
      (∀ k, s.reach a m.val r.addr r.len = some (.common k) →
        ∃ t, exec (.meshRequest m) s = .next t ∧ OnlyMill s t m.val ∧
          t.mill m.val = { x with vq0 := rest, vq1 := x.vq1 ++ [⟨.load, r.addr, false, s.common k r.len⟩] })) ∧
    (∀ r rest da n sg, x.vq1 = r :: rest → r.op = .load → r.fail = false → x.wait = .load da n sg →
      x.run = .running → x.haltReq = false → x.stepping = false →
      ∃ t, exec (.meshResponse m) s = .next t ∧ OnlyMill s t m.val ∧
        t.mill m.val = ({ x with vq1 := rest }).after (fun y => y.setSr da (loadValue sg n r.data))) ∧
    (∀ r rest ep, x.vq0 = r :: rest → r.op = .message ep → s.allotOf m.val = some a → s.inAllot a r.dst = true →
      r.dst ≠ m.val →
      let e := (s.mill r.dst).qe ep
      e.mode = 1 → e.pmill = m.val → e.pq = r.addr % 8 → e.entries.length < 8 → (s.mill r.dst).wait = .none →
      ∃ t, exec (.meshMessage m) s = .next t ∧
        t.mill m.val = { x with vq0 := rest, vq1 := x.vq1 ++ [⟨r.op, r.addr, false, []⟩] } ∧
        ((t.mill r.dst).qe ep).entries = e.entries ++ [{ fabric := false, src := m.val, que := 0, data := r.data }]) ∧
    (∀ q : Fin 8, (x.qe q.val).back ≠ 0 → (x.qe q.val).mode = 2 → x.wait = .none →
      ∃ t, exec (.messageCreditReturn m q) s = .next t ∧ OnlyMill s t m.val ∧
        ((t.mill m.val).qe q.val).credits = min 8 ((x.qe q.val).credits + 1)) ∧
    (∀ w : Fin 4096, s.qd.boot.gp = false → (Tbl.at s.qd.grid.lease w.val).held = true →
      ∃ t, exec (.leaseExpire w) s = .next t ∧ Tbl.at t.qd.grid.lease w.val = {} ∧
        (∀ k, k ≠ w.val → Tbl.at t.qd.grid.lease k = Tbl.at s.qd.grid.lease k) ∧ t.qd.grid.mills = s.qd.grid.mills)

/-- LD and TRD answer with the bytes that they name and change nothing but a tile's registration. For an LD or a
TRD that a window 0-47 of this QD1 serves, no word of its bytes being uncorrectable: LD sends one response
with status OK whose data are the bytes that it names, in order; TRD sends the data packets of its part, 256
bytes each and the rest in the last, with AUX 16 × part + packet; the tile of a TRD is registered with its
first part and leaves with its last, a declared stream goes on to its next tile; nothing else changes. (R57,
R61, R69, R46) -/
def Obligations.ReadsAnswerWithTheBytes : Prop :=
  ∀ (v : Via) (p : Packet) (e : Entry) (tr : List Trans) (s : State), QdServes s v [p] p e tr →
    (∀ r ∈ e.ranges tr p, s.qd.hbm.good r.1 r.2 = true) →
    let d := (e.bytesNamed tr p).map s.qd.hbm.byte
    (p.opc = Opc.LD → ∃ q : Packet, Answers q p St.OK d ∧
      exec (.ld v p) s = .next { s with out := s.out ++ [.unitSend q] }) ∧
    (p.opc = Opc.TRD → ∀ g, p.geom = some g → ∃ qs : List Packet, qs.length = (d.length + 255) / 256 ∧
      (∀ k, k < qs.length → let q := qs.getD k default
        Answers q p St.OK ((d.drop (256 * k)).take 256) ∧ q.aux = 16 * g.part + k) ∧
      exec (.trd v p) s = .next { s with
        out := s.out ++ qs.map Out.unitSend
        qd := { s.qd with node := { s.qd.node with tiles := s.qd.node.tilesAfter p e tr
                                                   streams := s.qd.node.streamsAfter p } } })

/-- ST, STA, STM, STMA and TWR write exactly the bytes that they name and answer when acknowledged. For a store
that an unmirrored window 0-47 of this QD1 serves and that names no byte twice: ST, STA and TWR write their
payload at the bytes that they name, in order; STM and STMA write byte i of their payload at byte i that
they name for each bit i of the mask that is 1; every other byte of memory is as before. STA, STMA and TWR
send one response with status OK and no data, ST and STM send nothing. A TWR registers its tile or ends it,
a declared stream goes on; nothing else changes. (R57, R59, R61, R66, R67, R69) -/
def Obligations.StoresWriteTheBytes : Prop :=
  ∀ (v : Via) (ps : List Packet) (p : Packet) (e : Entry) (tr : List Trans) (s : State), QdServes s v ps p e tr →
    e.mir = false → (e.bytesNamed tr p).Nodup →
    let d := ps.flatMap (fun q => q.data)
    let named := e.bytesNamed tr p
    let masked := fun (m : Word) => (List.range 64).filter (fun i => bitAt m i)
    let writes := fun (i : Instr) (at_ : List Nat) (d : List Byte) (os : List Out) => ∃ h : Hbm,
      s.qd.hbm.Wrote h at_ d ∧ exec i s = .next { s with
        out := s.out ++ os
        qd := { s.qd with hbm := h, node := { s.qd.node with tiles := s.qd.node.tilesAfter p e tr
                                                             streams := s.qd.node.streamsAfter p } } }
    (p.opc = Opc.ST → ps = [p] → writes (.st v p) named d []) ∧
    (p.opc = Opc.STA → ps = [p] → ∃ q : Packet, Answers q p St.OK [] ∧ writes (.sta v p) named d [.unitSend q]) ∧
    (p.opc = Opc.STM → ps = [p] → ∀ m, p.mask = some m →
      writes (.stm v p) ((masked m.1).map (fun i => named.getD i 0)) ((masked m.1).map (fun i => d.getD i 0)) []) ∧
    (p.opc = Opc.STMA → ps = [p] → ∀ m, p.mask = some m → ∃ q : Packet, Answers q p St.OK [] ∧
      writes (.stma v p) ((masked m.1).map (fun i => named.getD i 0)) ((masked m.1).map (fun i => d.getD i 0))
        [.unitSend q]) ∧
    (p.opc = Opc.TWR → ∃ q : Packet, Answers q p St.OK [] ∧ writes (.twr v ps) named d [.unitSend q])

/-- Atomics and reductions act on the bytes named and answer the old value, and a repeated one is answered from
the replay cache. For one that an unmirrored window 0-47 of this QD1 serves, no word of its bytes being
uncorrectable, with an entry free in the replay cache, RTY = 0 or no entry of its key, and a context that
the journal does not take: the bytes that it names hold the result of R62 on the old value and the operand
(modulo the size for ADD and FADD, the lesser or greater signed or unsigned for MIN and MAX, the new value
for SWAP, for CAS the new value where the old one compares equal, the bits of AND, OR and XOR, the rounded
sums for FPADD, element by element for RED and REDA); the response carries the old value where the operation
returns it, RED has none; all but RED leave their replay entry with status OK and the returned bytes; the
atomics are noted by the Ledger; nothing else changes. For a request with RTY = 1 whose key the replay cache
of this QD1 holds, and that its window would serve: the response carries status OK_DUP, the request is not
performed and nothing else changes, memory and the cache included; the old value comes from the entry where
the operation returns one. (R61, R62, R81, R82, R85) -/
def Obligations.AtomicsAreDoneOnce : Prop :=
  (∀ (v : Via) (p : Packet) (e : Entry) (tr : List Trans) (s : State), QdServes s v [p] p e tr → e.mir = false →
     (∀ r ∈ e.ranges tr p, s.qd.hbm.good r.1 r.2 = true) → (e.bytesNamed tr p).Nodup → s.lgTakes p.ctx = false →
     s.replayFull .own p.key = false → (p.rty = false ∨ s.replayOf .own p.key = none) →
     let n := atomSize p.aux
     let named := e.bytesNamed tr p
     let old := named.map s.qd.hbm.byte
     let a := natOf old
     let b := natOf (p.data.take n)
     let signed := p.aux / 4 % 2 = 1
     let less := fun (x y : Nat) => if signed then sext (8 * n) x < sext (8 * n) y else x < y
     let elems := fun (f : Nat → Nat → Nat) (w : Nat) => (List.range (p.len / w)).flatMap (fun k =>
       bytesOf w (f (natOf ((old.drop (w * k)).take w)) (natOf ((p.data.drop (w * k)).take w))))
     let runs := fun (i : Instr) (new ret : List Byte) (noted kept answered : Bool) =>
       ∃ (h : Hbm) (q : Packet) (atoms : List (Nat × ReplayKey × Nat × Nat)), Answers q p St.OK ret ∧
         s.qd.hbm.Wrote h named new ∧ (if noted then ∃ l, atoms = l ++ [(named.headD 0 / 128 * 128, p.key, p.opc, s.qd.aon.ns.toNat)]
           else atoms = s.qd.trace.ledger.atoms) ∧
         exec i s = .next { s with
           out := s.out ++ (if answered then [Out.unitSend q] else [])
           qd := { s.qd with
             hbm := h
             node := { s.qd.node with replay := if kept then
               s.qd.node.replay.filter (fun r => decide (r.key ≠ p.key)) ++
                 [{ key := p.key, status := St.OK, old := ret, at_ := s.stamp, kslot := p.kslot }]
               else s.qd.node.replay }
             trace := { s.qd.trace with ledger := { s.qd.trace.ledger with atoms := atoms } } } }
     let atomic := fun (i : Instr) (x : Nat) (ret : Bool) => runs i (bytesOf n x) (if ret then old else []) true true true
     let asked := bitAt (wd p.aux) 3
     (p.opc = Opc.ADD → atomic (.add v p) ((a + b) % 2 ^ (8 * n)) false) ∧
     (p.opc = Opc.FADD → atomic (.fadd v p) ((a + b) % 2 ^ (8 * n)) true) ∧
     (p.opc = Opc.MIN → ∀ x, (less b a ∧ x = b ∨ ¬ less b a ∧ x = a) → atomic (.amin v p) x asked) ∧
     (p.opc = Opc.MAX → ∀ x, (less a b ∧ x = b ∨ ¬ less a b ∧ x = a) → atomic (.amax v p) x asked) ∧
     (p.opc = Opc.SWAP → atomic (.swap v p) b true) ∧
     (p.opc = Opc.CAS → atomic (.cas v p) (if a = b then natOf ((p.data.drop n).take n) else a) true) ∧
     (p.opc = Opc.AND → atomic (.aand v p) (a &&& b) asked) ∧
     (p.opc = Opc.OR → atomic (.aor v p) (a ||| b) asked) ∧
     (p.opc = Opc.XOR → atomic (.axor v p) (a ^^^ b) asked) ∧
     (p.opc = Opc.FPADD → ∀ x,
       (x = if p.aux / 16 = 1 then Fp.bf16.addCodes (a % 65536) (b % 65536) +
               65536 * Fp.bf16.addCodes (a / 65536) (b / 65536)
            else if n = 4 then Fp.f32.addCodes a b else if n = 8 then Fp.f64.addCodes a b
            else Fp.f64.addCodes (a % 2 ^ 64) (b % 2 ^ 64) + 2 ^ 64 * Fp.f64.addCodes (a / 2 ^ 64) (b / 2 ^ 64)) →
       atomic (.fpadd v p) x true) ∧
     ∀ new, (p.aux = 0 → new = elems (fun x y => (x + y) % 2 ^ 32) 4) →
       (p.aux = 1 → new = elems (fun x y => (x + y) % 2 ^ 64) 8) → (p.aux = 2 → new = elems Fp.f32.addCodes 4) →
       (p.aux = 3 → new = elems Fp.bf16.addCodes 2) → (p.aux = 4 → new = elems Fp.f16.addCodes 2) →
       (p.aux = 5 → new = elems Fp.f64.addCodes 8) →
       (p.opc = Opc.RED → runs (.red v p) new [] false false false) ∧
       (p.opc = Opc.REDA → runs (.reda v p) new [] false true true)) ∧
  (∀ (v : Via) (p : Packet) (e : Entry) (tr : List Trans) (r : ReplayEnt) (s : State), QdServes s v [p] p e tr →
     p.rty = true → s.replayOf .own p.key = some r → r.old.length ≤ 16 →
     ∀ i ∈ [(Opc.ADD, Instr.add v p), (Opc.FADD, .fadd v p), (Opc.MIN, .amin v p), (Opc.MAX, .amax v p),
            (Opc.SWAP, .swap v p), (Opc.CAS, .cas v p), (Opc.AND, .aand v p), (Opc.OR, .aor v p),
            (Opc.XOR, .axor v p), (Opc.FPADD, .fpadd v p), (Opc.REDA, .reda v p)],
       p.opc = i.1 → ∃ q : Packet, Answers q p St.OK_DUP (if atomReturns p.opc p.aux then r.old else []) ∧
         exec i.2 s = .next { s with out := s.out ++ [.unitSend q] })

/-- A request that fails a window check is answered with that check's status and performs nothing. For a request
other than a tile for a window 0-47 of this QD1 that has passed checks 1 to 4 of R69, whose window-table
entry matches its complement, and behind which no packet of its stream waits: with an entry of STATE 0 it is
answered ERR_NOWIN; of STATE 2 or with another GEN ERR_STALE; of another context ERR_CTX; without the
permission, with another key slot, or partial on a protected window ERR_PERM; with a key slot that is
neither active nor retiring ERR_KEY; past the limit ERR_BOUNDS. The first that holds decides, the response
is all that happens. (R30, R47, R69, R70) -/
def Obligations.RefusedRequestsChangeNothing : Prop :=
  ∀ (v : Via) (p : Packet) (s : State),
    v.isSv = false → s.fenced = false → p.dst = s.qdNode → p.win < 48 → p.rsp = false → rxForm [p] = none →
    p.geom = none → s.streamBusy .own p = false → p.opc ≠ Opc.MSG → (s.wte .own p.win).complOk = true →
    let e := s.wte .own p.win
    let right := opcRight p.opc e = true ∧ (e.prot = true → p.kslot = e.kslot ∧ opcPartial p.opc = false)
    let fails := fun (st : BitVec 7) => ∀ i ∈ [(Opc.LD, Instr.ld v p), (Opc.ST, .st v p), (Opc.STA, .sta v p),
        (Opc.STM, .stm v p), (Opc.STMA, .stma v p), (Opc.ADD, .add v p), (Opc.FADD, .fadd v p), (Opc.MIN, .amin v p),
        (Opc.MAX, .amax v p), (Opc.SWAP, .swap v p), (Opc.CAS, .cas v p), (Opc.AND, .aand v p), (Opc.OR, .aor v p),
        (Opc.XOR, .axor v p), (Opc.FPADD, .fpadd v p), (Opc.RED, .red v p), (Opc.REDA, .reda v p)],
      p.opc = i.1 → ∃ q : Packet, Answers q p st [] ∧ exec i.2 s = .next { s with out := s.out ++ [.unitSend q] }
    (e.state = 0 → fails St.NOWIN) ∧
    (e.state ≠ 0 → (e.state ≠ 1 ∨ p.gen ≠ e.gen) → fails St.STALE) ∧
    (e.state = 1 → p.gen = e.gen →
      (e.ctx ≠ 0xFFFF → e.ctx ≠ p.ctx → fails St.CTX) ∧
      ((e.ctx = 0xFFFF ∨ e.ctx = p.ctx) →
        (¬ right → fails St.PERM) ∧
        (right → (e.prot = true ∧ s.keyAtDest .own e.kslot.toNat = false) → fails St.KEY) ∧
        (right → (e.prot = true → s.keyAtDest .own e.kslot.toNat = true) → e.limit < p.endOff → fails St.BOUNDS)))

/-- Mirrored writes wait for the partner; fences wait for what came before; registrations and replay entries end
at their times. For an STA of one run of bytes that a mirrored window of this QD1 serves while mirroring: a
message with the bytes goes to the partner, the write stands unacknowledged with its response, nothing is
written. MIRROR_ACK of the last message of such an update, nothing waiting: its bytes are written, its
replay entry enters the cache, its response goes out and it stands no more; of an earlier one: one message
fewer is awaited. MIRROR_WRITE at the partner: the bytes of a data or atomic message enter the mirror copy,
with the replay entry of an atomic, and it is acknowledged. Nothing else changes. A FENCE of this QD1 is
answered at once when no earlier packet of its stream on its way waits or is unacknowledged, and is held
with the next number otherwise; FENCE_ANSWER answers the first held FENCE of a stream whose earlier packets
have been performed. PAGE_TABLE_READ_DONE for an LD that waits alone: with a mapped entry the translation is
kept and the LD is answered with its bytes, with another ERR_UNMAPPED is answered. TILE_REGISTRATION_LAPSE
removes the registrations of a request; REPLAY_ENTRY_EXPIRE removes the entry of a key unless it is kept.
Nothing else changes. (R31, R44, R57, R73, R81, R83, R84, R117) -/
def Obligations.MirroringFencesAndExpiries : Prop :=
  ((∀ (v : Via) (p : Packet) (e : Entry) (tr : List Trans) (s : State) (a : Nat), QdServes s v [p] p e tr →
     e.mir = true → s.mirroring = true → p.opc = Opc.STA → e.ranges tr p = [(a, p.len)] →
     ∃ q : Packet, Answers q p St.OK [] ∧
       let m : MirrorPend := { id := s.qd.node.nextId, then_ := .write .own p [(a, p.data)] none
                               answers := [.unitSend q], lost := [.unitSend q], need := 1
                               strm := some (v, p.src, p.que, p.cls) }
       exec (.sta v p) s = .next { s with
         out := s.out ++ [.mirror (.data s.qd.node.nextId a p.data)]
         qd := { s.qd with node := { s.qd.node with mirrors := s.qd.node.mirrors ++ [m]
                                                    nextId := s.qd.node.nextId + 1 } } }) ∧
   (∀ (id a : Nat) (d : List Byte) (p : Packet) (r : Option ReplayEnt) (qs : List Packet) (m : MirrorPend) (s : State),
     s.qd.node.mirrors.find? (fun x => x.id == id) = some m → m.then_ = .write .own p [(a, d)] r → p.geom = none →
     m.answers = qs.map Out.unitSend →
     (m.need ≤ 1 → s.qd.node.waits = [] → s.qd.mnode.waits = [] → ∃ h : Hbm,
       s.qd.hbm.Wrote h ((List.range d.length).map (fun i => a + i)) d ∧
       exec (.mirrorAck id) s = .next { s with
         out := s.out ++ qs.map Out.unitSend
         qd := { s.qd with
           hbm := h
           node := { s.qd.node with
             mirrors := s.qd.node.mirrors.filter (fun x => x.id != id)
             replay := match r with
               | some x => s.qd.node.replay.filter (fun y => decide (y.key ≠ x.key)) ++ [x]
               | none => s.qd.node.replay } } }) ∧
     (1 < m.need → exec (.mirrorAck id) s = .next { s with qd := { s.qd with node := { s.qd.node with
       mirrors := s.qd.node.mirrors.map (fun x => if x.id = id then { x with need := x.need - 1 } else x) } } })) ∧
   ∀ (id a : Nat) (d old : List Byte) (k : ReplayKey) (st : BitVec 7) (s : State), s.fenced = false →
     ∃ h : Hbm, s.qd.mhbm.Wrote h ((List.range d.length).map (fun i => a + i)) d ∧
       exec (.mirrorWrite (.data id a d)) s = .next { s with
         out := s.out ++ [.mirrorAck id]
         qd := { s.qd with mhbm := h } } ∧
       (s.replayFull .own k = false → exec (.mirrorWrite (.atomic id a d k st old)) s = .next { s with
         out := s.out ++ [.mirrorAck id]
         qd := { s.qd with
           mhbm := h
           node := { s.qd.node with replay := s.qd.node.replay.filter (fun y => decide (y.key ≠ k)) ++
             [{ key := k, status := st, old := old, at_ := s.stamp, mirrored := true }] } } })) ∧
  ((∀ (v : Via) (p : Packet) (s : State), v.isSv = false → s.fenced = false → p.dst = s.qdNode → p.rsp = false →
     p.opc = Opc.FENCE → rxForm [p] = none →
     let busy := s.fenceBusy .own v p s.qd.node.waits s.qd.node.nextId
     (busy = false → ∃ q : Packet, Answers q p St.OK [] ∧
       exec (.fence v p) s = .next { s with out := s.out ++ [.unitSend q] }) ∧
     (busy = true → exec (.fence v p) s = .next { s with qd := { s.qd with node := { s.qd.node with
       nextId := s.qd.node.nextId + 1
       waits := s.qd.node.waits ++ [{ why := .fence s.qd.node.nextId, via := v, pkts := [p] }] } } })) ∧
   (∀ (v : Via) (p : Packet) (n : Nat) (l r : List Waiting) (w : Waiting) (s : State), v.isSv = false →
     s.qd.node.waits = l ++ [w] ++ r → s.qd.mnode.waits = [] → w.why = .fence n → w.via = v → w.pkts = [p] →
     (∀ x ∈ l, ∀ k, x.why ≠ .fence k) → p.opc = Opc.FENCE → s.fenceBusy .own v p l n = false →
     ∃ q : Packet, Answers q p St.OK [] ∧ exec (.fenceAnswer v p.src p.que p.cls) s = .next { s with
       out := s.out ++ [.unitSend q]
       qd := { s.qd with node := { s.qd.node with waits := l ++ r } } }) ∧
   (∀ (v : Via) (p : Packet) (e : Entry) (id pg off : Nat) (w : Waiting) (r : ReadResult) (s : State),
     let x := wd (natOf (s.qd.hbm.read (e.pteAddr pg) 8))
     let t : Trans := { win := p.win, page := pg, gen := e.gen.toNat, pte := x, pinned := e.pin }
     v.isSv = false → s.qd.node.waits = [w] → w = { why := .pageTable id pg, via := v, pkts := [p], ent := some e } →
     p.opc = Opc.LD → p.geom = none → p.len ≤ 256 → e.pagesOf p = [(pg, off)] →
     s.transOf .own p.win e.gen pg = none →
     s.qd.node.trans.length < 65536 → s.qd.hbm.good (e.pteAddr pg) 8 = true →
     (pteMapped s .own e x = true → s.lineBusy .own false (e.ranges [t] p) = false →
       (∀ y ∈ e.ranges [t] p, s.qd.hbm.good y.1 y.2 = true) → (e.bytesNamed [t] p).length = p.len →
       ∃ q : Packet, Answers q p St.OK ((e.bytesNamed [t] p).map s.qd.hbm.byte) ∧
       exec (.pageTableReadDone .qd id r) s = .next { s with
         out := s.out ++ [.unitSend q]
         qd := { s.qd with node := { s.qd.node with waits := [], trans := s.qd.node.trans ++ [t] } } }) ∧
     (pteMapped s .own e x = false → ∃ q : Packet, q.status = St.UNMAPPED ∧ q.dst = p.src ∧
       q.woff.toNat = p.win * 2 ^ 44 + off % 2 ^ 44 ∧
       exec (.pageTableReadDone .qd id r) s = .next { s with
         out := s.out ++ [.unitSend q], qd := { s.qd with node := { s.qd.node with waits := [] } } })) ∧
   (∀ (src : BitVec 14) (que : BitVec 10) (tag : BitVec 9) (s : State),
     let left := fun (n : Node) => { n with tiles := n.tiles.filter (fun t => ¬ (t.src = src ∧ t.que = que ∧ t.tag = tag)) }
     exec (.tileRegistrationLapse .qd src que tag) s =
       .next { s with qd := { s.qd with node := left s.qd.node, mnode := left s.qd.mnode } } ∧
     exec (.tileRegistrationLapse .sv src que tag) s = .next { s with sv := { s.sv with node := left s.sv.node } }) ∧
   ∀ (k : ReplayKey) (s : State),
     let left := fun (n : Node) => { n with replay := n.replay.filter (fun r => r.kept || decide (r.key ≠ k)) }
     (s.qd.node.waits = [] → s.qd.mnode.waits = [] →
       exec (.replayEntryExpire .qd k) s = .next { s with qd := { s.qd with node := left s.qd.node } }) ∧
     (s.sv.node.waits = [] →
       exec (.replayEntryExpire .sv k) s = .next { s with sv := { s.sv with node := left s.sv.node } }))

/-- A Svapo block passes inbound requests to the accelerator and answers with what comes back. For a request on
the loopback that an unprotected window of the Svapo block serves: LD sends an RD for each piece of its
bytes and STA a WRA, each with a tag that no request holds, ST and nothing else a WR without a tag; MSG
sends a message unit; the operation waits for its tags. RSI_RESPONSE with status OK on the last tag of a
load answers with the bytes returned, of an acknowledged write or a message answers OK; on a tag that no
request holds it changes nothing. An error is answered with its status. RQI_ANSWER_LATE on a tag in use
raises a TIMEOUT event and the block keeps waiting. Nothing else changes. (R57, R361, R362, R364, R376) -/
def Obligations.InnerPortOperations : Prop :=
  (∀ (p : Packet) (s : State), p.dst = s.svNode → p.rsp = false → rxForm [p] = none → p.geom = none →
    s.streamBusy .sv p = false → WindowAdmits s .sv p →
    let e := s.wte .sv p.win
    let tr := s.gather .sv p.win e p
    let ps := piecesOf (e.ranges tr p)
    let ws := writesAt ps p.data
    e.prot = false → (e.coh = true → cohForeign s p = false) → s.lineBusy .sv (opcWrites p.opc) (e.ranges tr p) = false →
    let sends := fun (i : Instr) (kind op : Nat) (us : List (Nat × List Byte)) (len : Nat → Nat) (ord : List Nat) =>
      us.length ≤ s.rqiFree.length → ∃ ts : List Nat, ts.length = us.length ∧ ts.Nodup ∧
        (∀ t ∈ ts, t < 4096 ∧ t ∉ s.rqiUsed) ∧
        exec i s = .next { s with
          free := s.free + us.length
          out := s.out ++ (List.range us.length).map (fun k =>
            let u := us.getD k (0, [])
            Out.rqi (s.inBerth p) op (ts.getD k 0) u.1 (len k) p.src.toNat p.que.toNat u.2
              (List.replicate u.2.length true))
          sv := { s.sv with
            node := { s.sv.node with nextId := s.sv.node.nextId + 1 }
            inbound := s.sv.inbound ++ [{
              tags := (List.range us.length).map (fun k => (BitVec.ofNat 12 (ts.getD k 0), (us.getD k (0, [])).1, len k))
              kind := kind, via := .loop, pkts := [p], win := p.win, ent := e, order := ord
              no := s.sv.node.nextId }] } }
    (p.opc = Opc.LD → sends (.ld .loop p) 1 0 (ps.map (fun r => (r.1, []))) (fun k => (ps.getD k (0, 0)).2) (ps.map (·.1))) ∧
    (p.opc = Opc.STA → sends (.sta .loop p) 2 2 ws (fun k => (ws.getD k (0, [])).2.length) []) ∧
    (p.opc = Opc.MSG → sends (.msg .loop p) 4 6 [(p.aux, p.data)] (fun _ => p.len) []) ∧
    (p.opc = Opc.ST → exec (.st .loop p) s = .next { s with out := s.out ++ ws.map (fun w =>
      Out.rqi (s.inBerth p) 1 0 w.1 w.2.length p.src.toNat p.que.toNat w.2 (List.replicate w.2.length true)) })) ∧
  (∀ (i : Inbound) (l r : List Inbound) (t : BitVec 12 × Nat × Nat) (p : Packet) (st : BitVec 7) (d : List Byte) (s : State),
    s.sv.inbound = l ++ [i] ++ r → (∀ x ∈ l ++ r, x.no ≠ i.no ∧ ∀ y ∈ x.tags, y.1 ≠ t.1) → i.tags = [t] →
    i.status = 0 → i.pkts = [p] → p.geom = none → i.via = .loop → s.sv.node.waits = [] → t.2.2 ≤ 256 →
    let done := fun (q : Packet) => { s with out := s.out ++ [.svLoop q], sv := { s.sv with inbound := l ++ r } }
    (i.kind = 1 → i.order = [t.2.1] → i.got = [] → d.length = t.2.2 → ∃ q : Packet, Answers q p St.OK d ∧
      exec (.rsiResponse t.1 St.OK d) s = .next (done q)) ∧
    ((i.kind = 2 ∨ i.kind = 4) → i.order = [] → ∃ q : Packet, Answers q p St.OK [] ∧
      exec (.rsiResponse t.1 St.OK d) s = .next (done q)) ∧
    ((i.kind = 1 ∨ i.kind = 2) → st ≠ St.OK → ∃ q : Packet, Answers q p st [] ∧
      exec (.rsiResponse t.1 st d) s = .next (done q))) ∧
  ∀ (tag : BitVec 12) (st : BitVec 7) (d : List Byte) (s : State),
    ((∀ i ∈ s.sv.inbound, ∀ t ∈ i.tags, t.1 ≠ tag) → exec (.rsiResponse tag st d) s = .next s) ∧
    (tag.toNat ∈ s.rqiUsed → exec (.rqiAnswerLate tag) s =
      .next (s.svEvent 0xFF { cat := Cat.TIMEOUT, arg0 := BitVec.ofNat 64 tag.toNat, arg1 := 1000 }))

/-- BELL, MILL_MSG_RECEIVE, WINDOW63_ACCESS and MANAGEMENT_ACCESS act on what they address. BELL from the
owner's port with the complement and within the ring: a producer index ahead of the held one is taken,
another leaves it. MILL_MSG_RECEIVE to a mill that is there, an endpoint in mode 3 with room and its
context, with KSLOT 0, no instruction waiting and the journal off: the message enters the endpoint, MSG_IN
counts and OK is answered. WINDOW63_ACCESS of the operator context, an LD of a register of 8 bytes: answered
with what the register reads; an STA of WT_DATA: the staged word of the fabric's source is written and
answered. MANAGEMENT_ACCESS of the QD1 of a plane: an LD is answered with the register, an STA to the
key-load area writes it and is answered. Nothing else changes. (R17, R96, R277, R368, R369, R535, R537) -/
def Obligations.BellsMessagesAndRegisterWindows : Prop :=
  (∀ (n : Fin 160) (p : Packet) (k : Nat) (e : Entry) (s : State), s.fenced = false → p.rsp = false → p.opc = Opc.BELL →
    rxForm [p] = none → p.dst = s.qdNode → n.val < 144 → p.src = mkNode s.qdRack n.val → p.off / 4096 = n.val →
    s.replaying = false → s.bellQueue false p.src (p.off % 4096 / 8) = some k → e = s.bind k → p.ctx = e.qctx →
    let w := natOf p.data
    let pi := BitVec.ofNat 32 w
    let q := s.sq k
    w / 2 ^ 32 = (~~~ pi).toNat → (pi - q.ci).toNat ≤ e.ringN → e.qmir = false →
    ((pi - q.ci).toNat ≤ (q.pi - q.ci).toNat → exec (.bell (.link n) p) s = .next s) ∧
    ((q.pi - q.ci).toNat < (pi - q.ci).toNat → ∃ t, exec (.bell (.link n) p) s = .next t ∧
      t.sq k = { q with pi := pi } ∧ (∀ j, j ≠ k → t.sq j = s.sq j) ∧
      t = { s with qd := { s.qd with rings := { s.qd.rings with qs := t.qd.rings.qs } } })) ∧
  (∀ (v : Via) (p : Packet) (s : State), v.isSv = false → s.fenced = false → p.rsp = false → p.opc = Opc.MSG →
    p.win = 50 → rxForm [p] = none → p.dst = s.qdNode → p.off < 256 → p.aux < 8 → p.off < millCount s.qd.variant →
    s.unitOn 0 0 = true → s.qd.boot.gp = false → p.kslot = 0 → s.lgTakes p.ctx = false →
    let x := s.mill p.off
    let e := x.qe p.aux
    e.cfg.toNat % 8 = 3 → p.ctx = s.millCtx p.off → e.entries.length < 8 → x.wait = .none →
    ∃ (t : State) (q : Packet), Answers q p St.OK [] ∧ exec (.millMsgReceive v p) s = .next t ∧
      t.mill p.off = { x.mapQe p.aux (fun e => { e with entries := e.entries ++
        [{ fabric := true, src := p.src.toNat, que := p.que.toNat, data := p.data }] }) with msgIn := x.msgIn + 1 } ∧
      OnlyMill { s with out := s.out ++ [.unitSend q] } t p.off) ∧
  (∀ (v : Via) (p : Packet) (s : State), v.isSv = false → s.fenced = false → p.rsp = false → p.win = 63 →
    rxForm [p] = none → p.dst = s.qdNode → p.kslot = 0 → p.len = 8 → p.off % 8 = 0 → p.off < 14 * 2 ^ 24 →
    s.isNotice v p = false → s.fl F.ACC_CTL_OPCTX ≠ 0 → p.ctx.toNat = s.fl F.ACC_CTL_OPCTX →
    s.flag F.ACC_CTL_FAB_EN = true →
    (p.opc = Opc.LD → p.off ≠ R.FT_CMD → p.off ≠ R.FT_CMD_STS → ∃ q : Packet,
      Answers q p St.OK (wordBytes (readReg .fabric p.off s).1) ∧
      exec (.window63Access v p) s = .next { (readReg .fabric p.off s).2 with
        out := (readReg .fabric p.off s).2.out ++ [.unitSend q] }) ∧
    (p.opc = Opc.STA → ∀ i, i < 4 → p.off = R.WT_DATA i → ∃ (q : Packet) (t : State), Answers q p St.OK [] ∧
      exec (.window63Access v p) s = .next t ∧ t = { s with out := s.out ++ [.unitSend q], qd := { s.qd with stage := t.qd.stage } } ∧
      t.staged .fabric 0 i = BitVec.ofNat 64 (natOf p.data) ∧
      ∀ src tab j, tab < 2 → j < 4 → (srcIdx src ≠ 2 ∨ tab ≠ 0 ∨ j ≠ i) → t.staged src tab j = s.staged src tab j)) ∧
  ∀ (n : Fin 18) (p : Packet) (s : State), s.sv.inReset = false → p.dst = s.svNode → p.rsp = false → rxForm [p] = none →
    p.len = 8 → p.ctx = 0 → p.src = mkNode (nodeRack s.svNode) (160 + n.val) →
    (p.opc = Opc.LD → ∃ q : Packet, Answers q p St.OK (wordBytes (s.svRead (p.off % 65536))) ∧
      exec (.managementAccess n p) s = .next (svTx n.val q s)) ∧
    (p.opc = Opc.STA → 0xC000 ≤ p.off → p.off < 0xC688 → p.off % 8 = 0 → ∃ (q : Packet) (x : Tbl Word),
      Answers q p St.OK [] ∧
      (∀ k, Tbl.at x k = if k = p.off then BitVec.ofNat 64 (natOf p.data) else Tbl.at s.sv.keyStage k) ∧
      exec (.managementAccess n p) s = .next (svTx n.val q { s with sv := { s.sv with keyStage := x } }))

/-- Requests of units and of engine queues take free tags, go out with their use count and end with their
answers. A request that a unit makes below its queue's limit of outstanding requests, none of that queue
waiting, takes a tag that no outstanding request of the queue has, with the use count of the tag one higher,
and its packets are sent with both; beyond the limit or behind a waiting request it waits last. Nothing else
changes. Which free tag is taken is open. RQO_REQUEST on another berth than its queue's completes with
ERR_DESC, for a disabled queue with ERR_ABSENT. For an idle queue in run, one that passes the source checks,
needs no FENCE and whose plane is live is sent there, with a free tag and the next use count when it is not
posted, and stands outstanding. An explicit FENCE with nothing sent since the last reports the sticky error
and clears it. RESPONSE_RECEIVE of the only part completes it with the data or with the status; ERROR_NOTICE
sets the sticky error or counts; REPLY_TIMEOUT sends an LD again with RTY = 1 while the count allows, and
ends an STA with ERR_LOST. Nothing else changes. (R66, R68, R72, R73, R76, R363, R369, R370) -/
def Obligations.SourceTagsAndEngineRequests : Prop :=
  (∀ (w : TagWait) (s : State), (∀ o ∈ s.unitOut w.que, o.tag < 512) →
     let turn := (s.unitOut w.que).length < unitLimit w.que ∧ ∀ x ∈ s.qd.srcs.waits, x.que ≠ w.que
     (turn → ∃ (tag : Nat) (n : Byte) (seqs : Tbl Byte), tag < 512 ∧ (∀ o ∈ s.unitOut w.que, o.tag ≠ tag) ∧
       n = Tbl.at s.qd.srcs.tseq (512 * w.que + tag) + 1 ∧
       (∀ k, Tbl.at seqs k = if k = 512 * w.que + tag then n else Tbl.at s.qd.srcs.tseq k) ∧
       unitReq w s = { s with
         free := s.free + 1
         out := s.out ++ (w.parts.flatten.map (retag tag n)).map Out.unitSend
         qd := { s.qd with srcs := { s.qd.srcs with
           tseq := seqs
           reqs := s.qd.srcs.reqs ++ [{ que := w.que, tag := tag, tseq := n, purpose := w.purpose
                                        parts := (List.range w.parts.length).map (fun i =>
                                          { part := i, pkts := (w.parts.getD i []).map (retag tag n) }) }] } } }) ∧
     (¬ turn → unitReq w s =
       { s with qd := { s.qd with srcs := { s.qd.srcs with waits := s.qd.srcs.waits ++ [w] } } })) ∧
  (∀ (r : Rqo) (s : State),
     let q := r.qid.val
     let e := s.eq q
     s.sv.inReset = false →
     (∀ berth : Fin 16, berth.val < s.sv.nberth →
       (q % s.sv.nberth ≠ berth.val → exec (.rqoRequest berth r) s =
         .next { s with out := s.out ++ [.rsoDone berth.val r.id q St.DESC 0 []] }) ∧
       (q % s.sv.nberth = berth.val → s.qen q = false → opcIsPosted r.opc.toNat = false → exec (.rqoRequest berth r) s =
         .next { s with out := s.out ++ [.rsoDone berth.val r.id q St.ABSENT 0 []] }) ∧
       (q % s.sv.nberth = berth.val → s.qen q = true → s.qctx q ≠ 0 → e.waits = [] → e.fence = none → e.acquires = [] →
         s.svRun = true → s.sv.restoring = 0 → s.svNode ≠ 0x3FFF →
         (∀ (x : Prep) (p : Nat), prepare s r = .ok x → x.coh = false → x.dst ≠ s.svNode →
           r.opc.toNat ≠ Opc.FENCE → opcIsTile r.opc.toNat = false → r.ord ≠ 2 →
           (e.lastCls = none ∨ e.lastCls = some x.cls ∨ opcOrdinary r.opc.toNat = false) →
           s.planeSel x.dst q = .go p → s.svPortUp p = true → (∀ h ∈ s.sv.held, h.1 ≠ p) →
           (s.limited x = true → 0 ≤ (Tbl.at s.sv.lim (limKey (nodeSlot x.dst) (x.cls == 2))).tokens) →
           let sent := fun (t : State) (k : Packet) => exec (.rqoRequest berth r) s = .next t ∧
             t.out = s.out ++ [.svSend p k] ∧ k.dst = x.dst ∧ k.woff = x.woff ∧ k.opc = r.opc.toNat ∧ k.cls = x.cls ∧
             t = { s with free := t.free, out := t.out, sv := { s.sv with
               srcs := t.sv.srcs, qs := t.sv.qs, links := t.sv.links, lim := t.sv.lim } } ∧
             ∀ j, j ≠ q → t.eq j = s.eq j
           (opcIsPosted r.opc.toNat = true → ∃ (t : State) (k : Packet), sent t k ∧ rqoPackets s r x 0 0 = [[k]] ∧
             t.sv.srcs = s.sv.srcs) ∧
           (opcIsPosted r.opc.toNat = false → (∃ i, i < 512 ∧ ∀ o ∈ s.outOf q, o.tag ≠ i) →
             ∃ (t : State) (k : Packet) (tag : Nat) (n : Byte), sent t k ∧ rqoPackets s r x tag n = [[k]] ∧
               tag < 512 ∧ (∀ o ∈ s.outOf q, o.tag ≠ tag) ∧ n = Tbl.at s.sv.srcs.tseq (512 * q + tag) + 1 ∧
               t.sv.srcs.reqs = s.sv.srcs.reqs ++ [{ que := q, tag := tag, tseq := n
                                                     parts := [{ part := 0, pkts := [k], plane := p }]
                                                     purpose := .engine r }])) ∧
         (r.opc.toNat = Opc.FENCE → r.len = 0 → r.aux = 0 → r.ord = 0 → s.outOf q = [] → e.dests = [] → e.racks = [] →
           e.ended = false → ∃ t, exec (.rqoRequest berth r) s = .next t ∧
           t = { s with
             out := s.out ++ [.rsoDone berth.val r.id q e.sticky (if e.sticky = 0 then 0 else e.swoff) []]
             sv := { s.sv with qs := t.sv.qs } } ∧ (∀ j, j ≠ q → t.eq j = s.eq j) ∧
           t.eq q = { e with sticky := 0, swoff := if e.sticky = 0 then e.swoff else 0
                             later := if e.sticky = 0 then e.later else 0
                             clsUsed := [], postPlanes := [], since := .nothing }))) ∧
     (∀ (o : OutReq) (l m : List OutReq) (x : Part) (k : Packet), s.sv.srcs.reqs = l ++ [o] ++ m →
       (∀ y ∈ l ++ m, y.que ≠ o.que ∨ y.tag ≠ o.tag) → o.que = q → o.purpose = .engine r → o.parts = [x] →
       x.answered = false → x.unsure = false → x.pkts = [k] → e.waits = [] → e.fence = none →
       let ended := fun (i : Instr) (st : BitVec 7) (woff : BitVec 50) (d : List Byte) => ∃ t, exec i s = .next t ∧
         t = { s with
           out := s.out ++ [.rsoDone (q % s.sv.nberth) r.id q st woff d]
           sv := { s.sv with qs := t.sv.qs, srcs := { s.sv.srcs with reqs := l ++ m } } } ∧
         t.eq q = { e with acquires := e.acquires.filter (· != o.tag) } ∧ ∀ j, j ≠ q → t.eq j = s.eq j
       (∀ (v : Via) (p : Packet), v.isSv = true → p.rsp = true → p.complOk = true → p.dst = s.svNode →
         p.que.toNat = q → p.tag.toNat = o.tag → p.tseq = o.tseq → p.ce = false → p.ece = false → p.aux = 0 →
         (p.status = St.OK → p.e2eOk = true → k.kslot = 0 → (k.opc = Opc.LD ∨ k.opc = Opc.STA) →
           ended (.responseReceive v p) St.OK 0 p.data) ∧
         (p.status ≠ St.OK → p.status ≠ St.OK_DUP → p.status ≠ St.COMPL → p.status ≠ St.CHECK →
           ended (.responseReceive v p) p.status p.woff [])) ∧
       (∀ (que : BitVec 10) (tag : BitVec 9), que.toNat = q → tag.toNat = o.tag → s.svPortUp x.plane = true →
         k.dst ≠ s.svNode →
         (k.opc = Opc.STA → ended (.replyTimeout .sv que tag) St.LOST k.woff []) ∧
         (k.opc = Opc.LD → x.rty < s.srf SR.SV_TXN_TMO 16 3 → (∀ h ∈ s.sv.held, h.1 ≠ x.plane) →
           ∃ t, exec (.replyTimeout .sv que tag) s = .next t ∧ t.out = s.out ++ [.svSend x.plane k.resent] ∧
             t.sv.srcs.reqs = l ++ [{ o with parts := [{ x with rty := x.rty + 1, unsure := true, pkts := [k.resent] }] }]
               ++ m ∧
             t = { s with out := t.out, sv := { s.sv with srcs := { s.sv.srcs with reqs := t.sv.srcs.reqs }
                                                          links := t.sv.links } }))) ∧
     ∀ (v : Via) (p : Packet), v.isSv = true → p.rsp = true → opcIsPosted p.opc = true → p.complOk = true →
       p.dst = s.svNode → p.que.toNat = q → p.status ≠ 0 → p.ce = false → p.ece = false →
       ∃ t, exec (.errorNotice v p) s = .next t ∧ t = { s with sv := { s.sv with qs := t.sv.qs } } ∧
         (∀ j, j ≠ q → t.eq j = s.eq j) ∧
         (e.sticky = 0 → t.eq q = { e with sticky := p.status, swoff := p.woff }) ∧
         (e.sticky ≠ 0 → t.eq q = { e with later := e.later + 1 }))

/-- The register commands and the key slots of a Svapo block, and its reset. APERTURE_WRITE within the rules of
R22 writes that word, any other is dropped with ERR_PERM and an event. SV_PTR_L2F and SV_PTR_F2L leave the
translated pointer, all ones on a miss, the lowest matching entry deciding. SV_WT_CMD writes the staged
words with their complement into a closed entry that R375 admits, any other is refused. KEY_LOAD_COMMIT that
opens fills an empty slot, one that does not answers ERR_CHECK. HOLDER_RETIRE_PHASE0 makes an active slot
retiring; PHASE1 and HOLDER_ZEROIZE_TIMEOUT zeroize it and the old values under it; HOLDER_SLOT_RELEASE
empties it with the next SGEN. BLOCK_RESET clears everything but the build, BLOCK_RESET_RELEASE ends it with
a new key pair. Nothing else changes. (R22, R24, R25, R375, R378, R388, R443, R448, R451) -/
def Obligations.SvapoRegistersAndKeySlots : Prop :=
  ∀ (s : State),
    let ok := fun (t : State) (src : RegSrc) (st : BitVec 7) => { t with out := t.out ++ [.regAnswer src st 0] }
    let puts := fun (i : Instr) (off : Nat) (v : Word) => ∃ x : Tbl Word,
      (∀ k, Tbl.get svReset x k = if k = off then v else s.sr k) ∧
      exec i s = .next (ok { s with sv := { s.sv with regs := x } } .channel St.OK)
    let key := fun (k : Nat) => Tbl.at s.sv.keys k
    let slot := fun (i : Instr) (k : Nat) (y : KeySlot) (olds : Bool) (answered : Bool) => ∃ x : Tbl KeySlot,
      (∀ j, Tbl.at x j = if j = k then y else key j) ∧
      exec i s = .next { s with
        out := s.out ++ (if answered then [.regAnswer .management St.OK 0] else [])
        sv := { s.sv with
          keys := x
          node := { s.sv.node with replay := if olds then s.sv.node.replay.map (fun (r : ReplayEnt) =>
            if r.kslot.toNat = k then { r with old := List.replicate r.old.length 0 } else r) else s.sv.node.replay } } }
    (∀ (i : Fin 256) (w : Fin 4) (v : Word),
      let g := fun (k : Nat) => if k = w.val then v else s.sr (SR.APERTURE i.val k)
      let good := (g 0).toNat + (g 1).toNat ≤ 2 ^ 63 ∧ faOff (g 2) + (g 1).toNat ≤ 2 ^ 44 ∧
        slotReserved (nodeSlot (faNode (g 2))) = false ∧ (g 0).toNat % 2 ^ 16 = 0 ∧ (g 1).toNat % 2 ^ 16 = 0 ∧
        (g 2).toNat % 2 ^ 16 = 0 ∧ (g 3).toNat / 2 ^ 33 = 0
      (good → puts (.apertureWrite i w v) (SR.APERTURE i.val w.val) v) ∧
      (¬ good → exec (.apertureWrite i w v) s = .next (ok (s.svRefused (SR.APERTURE i.val w.val) v) .channel St.PERM))) ∧
    (∀ (v : Word),
      let inL := fun (i : Nat) => s.apLbase i ≤ v.toNat ∧ v.toNat < s.apLbase i + s.apLsize i
      let inF := fun (i : Nat) => s.apFbase i ≤ v.toNat ∧ v.toNat < s.apFbase i + s.apLsize i
      (∀ i, i < 256 → inL i → (∀ j, j < i → ¬ inL j) →
        puts (.svPtrL2f v) SR.SV_PTR_L2F (BitVec.ofNat 64 (s.apFbase i + (v.toNat - s.apLbase i)))) ∧
      ((∀ i, i < 256 → ¬ inL i) → puts (.svPtrL2f v) SR.SV_PTR_L2F (BitVec.ofNat 64 (2 ^ 64 - 1))) ∧
      (∀ i, i < 256 → inF i → (∀ j, j < i → ¬ inF j) →
        puts (.svPtrF2l v) SR.SV_PTR_F2L (BitVec.ofNat 64 (s.apLbase i + (v.toNat - s.apFbase i)))) ∧
      ((∀ i, i < 256 → ¬ inF i) → puts (.svPtrF2l v) SR.SV_PTR_F2L (BitVec.ofNat 64 (2 ^ 64 - 1)))) ∧
    (∀ (v : Word),
      let w := v.toNat % 64
      let d := fun (i : Nat) => s.sr (SR.SV_WT_DATA i)
      let e : Entry := ⟨d 0, d 1, d 2, d 3, ~~~ d 0, ~~~ d 1, ~~~ d 2, ~~~ d 3⟩
      let good := (s.wte .sv w).state = 0 ∧ e.mir = false ∧ e.pin = false ∧ (e.prot = true → e.ctx ≠ 0xFFFF)
      (good → ∃ t, exec (.svWtCmd v) s = .next t ∧ t.wte .sv w = e ∧ (∀ j, j ≠ w → t.wte .sv j = s.wte .sv j) ∧
        t = ok { s with sv := { s.sv with node := { s.sv.node with wt := t.sv.node.wt } } } .channel St.OK) ∧
      (¬ good → exec (.svWtCmd v) s = .next (ok (s.svEvent 0xFF
        { cat := Cat.REFUSED, obj := Obj.WINDOW, arg0 := BitVec.ofNat 64 w, arg1 := v }) .channel St.PERM))) ∧
    (s.sv.inReset = false → ∀ (plane : Fin 18),
      let ss := Config.mlkemDecaps s.sv.dk (s.keyArea 0xC000 1568)
      let head := Tbl.at s.sv.keyStage 0xC620
      let k := head.toNat % 64
      let opened := Config.gcmOpen ss (s.keyArea 0xC628 12) (wordBytes head) (s.keyArea 0xC634 64) (s.keyArea 0xC674 16)
      (opened = none → exec (.keyLoadCommit plane) s = .next (ok s .management St.CHECK)) ∧
      (∀ d, opened = some d → d.take 32 ≠ d.drop 32 → k ≠ 0 → (key k).st = 0 →
        slot (.keyLoadCommit plane) k
          { key k with st := 1, ctx := BitVec.ofNat 16 (head.toNat / 2 ^ 16), key := d } false true) ∧
      (∀ j : Fin 64, (key j.val).st = 1 → slot (.holderRetirePhase0 plane j) j.val { key j.val with st := 2 } false true) ∧
      (∀ j : Fin 64, (key j.val).st = 1 ∨ (key j.val).st = 2 →
        slot (.holderRetirePhase1 plane j) j.val { key j.val with st := 3, key := [] } true true)) ∧
    (∀ k : Fin 64,
      ((key k.val).st = 2 → slot (.holderZeroizeTimeout k) k.val { key k.val with st := 3, key := [] } true false) ∧
      ((key k.val).st = 3 → slot (.holderSlotRelease k) k.val { st := 0, sgen := (key k.val).sgen + 1 } false false)) ∧
    exec .blockReset s = .next { s with sv := { nberth := s.sv.nberth, ca := s.sv.ca, inReset := true } } ∧
    (s.sv.inReset = true → ∃ seed : BitVec 512, exec .blockResetRelease s = .next { s with
      free := s.free + 1, sv := { s.sv with inReset := false, dk := seed, ek := Config.mlkemPublic seed } })

/-- Planes that leave and return, the bring-up of an end point, and the injection limiter. PORT_CONTROLLER_DOWN
of a port in service takes it down, holds its queued packets and keeps the replay entries it answered;
PORT_CONTROLLER_UP of one that is up sends the held packets in order and lets the entries expire.
SV_LIVE_WRITE changes the two bits of the writing QD1's pair; the map entries of a plane that it takes from
LIVE go round robin to the live planes after it, the others stay. MAP_RESTORE, with nothing outstanding or
owed, gives every restored plane its entries back. SVAPO_BRINGUP of an end point in service writes its
pair's bits of SV_LIVE, before that the maps, its hamlet and the coherent windows where LIVE is zero, and
reads its key. CA_FLUSH starts a flush, or ends it when no line is held. LIMITER_PERIOD gives each pair its
tokens and its rate, TOKEN_BUCKET_REFILL ends a debt. (R38, R77, R85, R384, R386, R399, R448, R474, R477,
R556) -/
def Obligations.PlanesAndTheLimiter : Prop :=
  (∀ (n : Fin 18) (s : State), s.inService (.sv n) = true → ∃ t, exec (.portControllerDown n) s = .next t ∧
    t.pst (.sv n) = 0 ∧ t.pstep (.sv n) = 1 ∧
    t.sv.held = s.sv.held ++ (Tbl.at s.sv.links n.val).txq.map (fun k => (n.val, k)) ∧
    t.sv.node = { s.sv.node with replay := s.sv.node.replay.map (fun (r : ReplayEnt) =>
      if r.plane = n.val then { r with kept := true } else r) } ∧ t.qd = s.qd ∧ t.sv.srcs = s.sv.srcs ∧
    ((t.link (.sv n)).txq = [] ∧ (t.link (.sv n)).kept = [] ∧ (t.link (.sv n)).crSeen = false)) ∧
  (∀ (n : Fin 18) (s : State), s.svPortUp n.val = true → ∃ t, exec (.portControllerUp n) s = .next t ∧
    t = { s with
      out := s.out ++ (s.sv.held.filter (fun h => h.1 == n.val)).map (fun h => Out.svSend n.val h.2)
      sv := { s.sv with
        links := t.sv.links
        held := s.sv.held.filter (fun h => h.1 != n.val)
        node := { s.sv.node with replay := s.sv.node.replay.map (fun (r : ReplayEnt) =>
          if r.plane = n.val then { r with kept := false } else r) } } }) ∧
  (∀ (n : Fin 18) (v : Word) (s : State), s.sv.inReset = false → ∃ t, exec (.svLiveWrite n v) s = .next t ∧ t.qd = s.qd ∧
    (∀ j, j < 18 → (j = n.val ∨ j = (n.val ^^^ 1)) → t.svLive j = bitAt v j) ∧
    (∀ j, j < 18 → j ≠ n.val → j ≠ (n.val ^^^ 1) → (s.svPortUp j = true ∨ bitAt v j = true) → t.svLive j = s.svLive j) ∧
    (∀ d, d < 18 → s.svLive d = true → (∀ j, j < 18 → (s.svLive j = true ∧ t.svLive j = false ↔ j = d)) →
      let alive := ((List.range 17).map (fun i => (d + 1 + i) % 18)).filter (fun k => t.svLive k)
      alive ≠ [] → ∀ (old new : Nat → Nat), (old = s.planeMap ∧ new = t.planeMap) ∨ (old = s.homeMap ∧ new = t.homeMap) →
        ∀ i, i < 144 → new i = if old i = d then
          alive.getD (((List.range i).filter (fun k => old k == d)).length % alive.length) d else old i)) ∧
  (∀ (s : State), s.sv.inReset = false → s.sv.restoring ≠ 0 → (∀ o ∈ s.sv.srcs.reqs, 32 < o.que) →
    (∀ q, q < 32 → (s.eq q).fence = none ∧ s.fenceTargets q = [] ∧ (s.eq q).waits = []) →
    ∃ t, exec .mapRestore s = .next t ∧ t.sv.restoring = 0 ∧ t.qd = s.qd ∧ t.sv.node = s.sv.node ∧
      ∀ i, i < 144 →
        t.planeMap i = (if s.sv.restoring.getLsbD (i % 18) then i % 18 else s.planeMap i) ∧
        t.homeMap i = (if s.sv.restoring.getLsbD (i % 18) then i % 18 else s.homeMap i)) ∧
  (∀ (n : Fin 144) (live : BitVec 18) (s : State), s.serving = true → s.inSetup = false → s.portUp n.val = true →
    let pairBit := fun (j : Nat) => j = s.qdPlane ∨ j = (s.qdPlane ^^^ 1)
    ∃ v : Word, (∀ j, j < 64 → bitAt v j = if pairBit j then bitAt (s.rg R.FT_LIVE) j else decide (j < 18) && live.getLsbD j) ∧
      let sta := fun (x : Nat × Word) => ({ que := 576, purpose := .unit Un.HM n.val 0 0
                                            parts := [[mgmtSta s n.val x.1 x.2]] } : TagWait)
      exec (.svapoBringup n live) s = .next
        (((if live = 0 then s.bringUpWords n.val else []) ++ [(SR.SV_LIVE, v)]).map sta ++
          (List.range 196).map (fun j => ({ que := 576, purpose := .unit Un.HM n.val 1 j
                                            parts := [[mgmtLd s n.val (0xC800 + 8 * j)]] } : TagWait))
        |>.foldl (fun s w => unitReq w s) s)) ∧
  (∀ (s : State), s.sv.ca = true → s.sv.inReset = false → ∃ t, exec .caFlush s = .next t ∧ t.qd = s.qd ∧
    t.sv.flushing = !s.sv.lines.isEmpty ∧ bitAt (t.sr SR.SV_CA_CTL) 8 = !s.sv.lines.isEmpty) ∧
  (∀ (s : State), s.sv.inReset = false → Tbl.wf (fun _ => default) s.sv.lim = true →
    (∀ q, q < 32 → (s.eq q).waits = [] ∧ (s.eq q).fence = none) →
    (∃ t, exec .limiterPeriod s = .next t ∧ t.qd = s.qd ∧ t.sv.srcs = s.sv.srcs ∧ ∀ k,
      let l := Tbl.at s.sv.lim k
      let f := fun (lo n : Nat) => fget (s.sr SR.SV_LIM_CTL) lo n
      let rate := if f 0 1 = 1 then l.rate else 256
      Tbl.at t.sv.lim k = {
        tokens := min 16384 (l.tokens + Int.ofNat (rate * 7 * (f 22 10 * 100)))
        rate := if f 1 1 = 1 then l.rate
          else if l.marked then max (f 2 8) (l.rate - (l.rate * f 10 4 + 15) / 16)
          else if l.waited then min 256 (l.rate + f 14 8) else l.rate
        marked := false, waited := false }) ∧
    ∀ (d : Fin 256) (c : Bool), ∃ t, exec (.tokenBucketRefill d c) s = .next t ∧
      t = { s with sv := { s.sv with lim := t.sv.lim } } ∧ ∀ k, Tbl.at t.sv.lim k =
        if k = limKey d.val c then { Tbl.at s.sv.lim k with tokens := max 0 (Tbl.at s.sv.lim k).tokens }
        else Tbl.at s.sv.lim k)

/-- Flits are sent in sequence and kept, resent, and taken in order at a Svapo port controller. At a running
Svapo port controller with no control message waiting: FLIT_SEND with nothing to send sends an idle flit of
the last SEQ; with one packet of up to 15 slots and credits for it, a flit of the next SEQ whose HDRMASK
marks slot 0 and which is kept; with a flit to be resent, that flit again. RETRY_TIMEOUT asks again after a
NAK. FLIT_RECEIVE of a block that decodes to a flit of the next SEQ with one whole packet delivers the
packet, counts its credits to be returned and moves the expected SEQ; of a flit of the last SEQ it delivers
nothing. Nothing else changes. (R50, R51, R52, R391, R400, R401, R402) -/
def Obligations.FlitsAndRetry : Prop :=
  ∀ (n : Fin 18) (s : State), s.sv.inReset = false → s.portRuns (.sv n) = true →
    let p := PortSel.sv n
    let l := s.link p
    let does := fun (i : Instr) (l' : Link) (os : List Out) => ∃ t, exec i s = .next t ∧ t.link p = l' ∧
      t = { s with out := s.out ++ os, sv := { s.sv with links := t.sv.links } } ∧ ∀ q, q ≠ p → t.link q = s.link q
    let wire := fun (seq : BitVec 12) (fields : Word) (slots : List Byte) =>
      Out.wire p (blockOf (flitOf (mkPrefix seq l.rxSeq l.nakDue false fields) slots))
    let told := { l with nakDue := false, nakSent := l.nakSent || l.nakDue }
    (l.ctl = [] → l.pmAsked = 0 → l.testAsk = false →
      (l.resend = [] → l.txSlots = [] → l.txq = [] → (∀ c, c < 4 → Tbl.at l.owed c = 0) →
        does (.flitSend p) told [wire l.txSeq 0 []]) ∧
      (∀ k : Packet, l.resend = [] → l.txSlots = [] → l.txq = [k] → (∀ c, c < 4 → Tbl.at l.owed c = 0) →
        l.kept.length < 256 → k.slots ≤ 15 → isMgmt k = false → pktCells k ≤ Tbl.at l.cred k.cls.toNat → k.cls = 0 →
        ∃ cr : Tbl Nat, (∀ c, Tbl.at cr c = Tbl.at l.cred c - if c = 0 then pktCells k else 0) ∧
        ∃ d : Tbl Nat, does (.flitSend p) { told with
            txq := [], txSeq := l.txSeq + 1, cred := cr, drr := d
            kept := l.kept ++ [{ seq := l.txSeq + 1, fields := 2 ^ 48, slots := k.bytes, pkts := [k] }] }
          [wire (l.txSeq + 1) (2 ^ 48) k.bytes]) ∧
      (∀ (x : KeptFlit) (rest : List (BitVec 12)), l.resend = x.seq :: rest →
        l.kept.find? (fun y => decide (y.seq = x.seq)) = some x → x.resent < 8 →
        does (.flitSend p) { told with
            resend := rest
            kept := l.kept.map (fun y => if y.seq = x.seq then { y with resent := y.resent + 1 } else y) }
          [wire x.seq x.fields x.slots])) ∧
    does (.retryTimeout p) { l with nakDue := l.nakDue || l.nakSent } [] ∧
    (∀ (u : RxUnit) (f : List Byte), u.block.length = 272 → blockDecode u.block = some (f, []) → flitCheckOk f = true →
      l.locked = true → ((false :: l.blocks).take 256).countP (fun b => b) < 8 → l.kept = [] → l.rxSlots = [] →
      let w := flitPrefix f
      let got := { l with blocks := (false :: l.blocks).take 256 }
      pfAck w = l.txSeq → pfNak w = false → pfCtrl w = false →
      (pfSeq w = l.rxSeq → does (.flitReceive p u) got []) ∧
      (pfSeq w = l.rxSeq + 1 → fget w 26 2 = 0 → fget w 28 6 = 0 → fget w 34 2 = 0 → fget w 36 6 = 0 →
        (∀ i, i < 15 → (pfHdr w i = true ↔ i = 0)) →
        let b := flitSlots f
        let k := packetOf (b.take (16 * hdrSlots (wordAt b 0) (wordAt b 24)))
        hdrSlots (wordAt b 0) (wordAt b 24) ≤ 15 → isMgmt k = false → ∃ ow : Tbl Nat,
          (∀ c, Tbl.at ow c = Tbl.at l.owed c + if c = k.cls.toNat then pktCells k else 0) ∧
          does (.flitReceive p u) { got with rxSeq := l.rxSeq + 1, nakSent := false, nakDue := false, owed := ow }
            [.svArrive n k]))

/-- A port trains step by step, checks the far end's identity and comes up with its credits. For a port whose
lanes run: SIGNAL_ENERGY_DETECT on a pair ends T1 of a port that is down; TRAINING_STEP_DONE ends T2 and T3,
and T4, T5 and T6 on block lock, on a MARK of every active lane and on an IDENT seen; TRAINING_STEP_FAIL
narrows the port, or with lanes of both pairs failed it is down; TRAINING_RESTART begins again with every
lane; TS in T3 keeps and passes on the coefficient; MARK in T5 notes the lane; IDENT in T6 of the expected
far end is noted, SV_NODE set at a Svapo block, and of another holds the port; CRINIT in T7 brings it up at
its width. Nothing but that port changes. (R374, R394, R395, R396, R397, R398, R402) -/
def Obligations.TrainingSteps : Prop :=
  ∀ (p : PortSel) (s : State), s.lanesOn p = true →
    let l := s.link p
    let goes := fun (i : Instr) (st step : Nat) (l' : Link) => ∃ t, exec i s = .next t ∧ PortOnly s t p ∧
      t.pst p = st ∧ t.pstep p = step ∧ t.link p = (match p with
        | .sv _ => { l' with step := step }
        | .qd _ => l')
    (∀ lanes : BitVec 4, (lanes.getLsbD 0 && lanes.getLsbD 1 || lanes.getLsbD 2 && lanes.getLsbD 3) = true →
      s.pst p = 0 → s.pstep p ≤ 1 → goes (.signalEnergyDetect p lanes) 1 2
        { l with mode := 0, marks := 0, identSeen := false, locked := false, zeroBlocks := 0, blocks := [] }) ∧
    (s.pst p = 1 →
      ((s.pstep p = 2 ∨ s.pstep p = 3 ∨ (s.pstep p = 4 ∧ (l.locked = true ∨ isFerry p = true)) ∨
          (s.pstep p = 5 ∧ (isFerry p = true ∨ ∀ i ∈ s.activeLanes p, l.marks.testBit i = true)) ∨
          (s.pstep p = 6 ∧ l.identSeen = true)) →
        goes (.trainingStepDone p) 1 (s.pstep p + 1) l) ∧
      (∀ lanes : BitVec 4, lanes ≠ 0 → 2 ≤ s.pstep p → s.pstep p ≤ 5 → isFerry p = false → l.mode = 0 →
        ∃ t, exec (.trainingStepFail p lanes) s = .next t ∧ PortOnly s t p ∧ t.pstep p = s.pstep p ∧
          t.pfailed p = (s.pfailed p ||| lanes.toNat) ∧
          (pairsFailed (s.pfailed p ||| lanes.toNat) = true → t.pst p = 0) ∧
          (pairsFailed (s.pfailed p ||| lanes.toNat) = false → t.pst p = 1 ∧ (t.link p).narrow = true)) ∧
      (∀ (lane st : Byte) (coef : BitVec 16), lane.toNat < 4 → s.pstep p = 3 → ∃ t, exec (.ts p lane coef st) s = .next t ∧
        PortOnly s t p ∧ t.out = s.out ++ [.lane p (16 + lane.toNat) coef.toNat] ∧
        (∀ i, Tbl.at (t.link p).coef i = if i = lane.toNat then coef.toNat else Tbl.at l.coef i) ∧
        t.link p = { l with coef := (t.link p).coef }) ∧
      (∀ lane : Byte, lane.toNat < 4 → s.pstep p = 5 → goes (.mark p lane) 1 5 { l with marks := l.marks ||| 2 ^ lane.toNat }) ∧
      (∀ (node : BitVec 16) (plane port role : Byte), s.pstep p = 6 →
        (s.identOk p node plane port role = true → goes (.ident p node plane port role) 1 6 { l with identSeen := true } ∧
          ∀ n, p = .sv n → ∀ t, exec (.ident p node plane port role) s = .next t →
            t.svNode = mkNode (node.toNat / 256) port.toNat) ∧
        (s.identOk p node plane port role = false → l.mode = 0 → ∃ t, exec (.ident p node plane port role) s = .next t ∧
          PortOnly s t p ∧ (∀ n, p = .qd n → t.pst p = 6) ∧ t.link p = l)) ∧
      (∀ c0 c1 c2 c3 : Byte, s.pstep p = 7 → l.mode = 0 → ∃ t, exec (.crinit p c0 c1 c2 c3) s = .next t ∧
        t.pst p = (if l.narrow then 3 else 2) ∧ t.pstep p = 7 ∧ (t.link p).crSeen = true ∧ (t.link p).kept = [] ∧
        (t.link p).txSeq = 4095 ∧ (t.link p).rxSeq = 4095 ∧
        (∀ i, i < 4 → Tbl.at (t.link p).cred i = ([c0, c1, c2, c3].getD i 0).toNat) ∧
        (∀ q, q ≠ p → t.link q = s.link q) ∧ t.qd.hbm = s.qd.hbm ∧ t.sv.node = s.sv.node)) ∧
    ((s.pst p = 0 ∧ 2 ≤ s.pstep p ∨ s.pst p = 6) → ∃ t, exec (.trainingRestart p) s = .next t ∧ PortOnly s t p ∧
      t.pst p = 0 ∧ t.pstep p = 1 ∧ t.pfailed p = 0 ∧ (t.link p).narrow = false ∧ (t.link p).kept = [] ∧
      (t.link p).coef = l.coef)

/-- Ports return credits, agree on low power, retrain, lose lanes, run tests, and go down. For a running port
whose lanes run: MCRED frees management credits; PMREQ is acknowledged when nothing waits and refused
otherwise; PMACK of the state asked for, with no acknowledgement due, enters it; PMNAK clears the request;
LQ_REQUEST and LD_REQUEST ask, and LQ_AUTO_TIMEOUT asks at an idle port that has LQ_AUTO; RETRAIN and
LANE_FAIL retrain at the width that is left, lanes of both pairs failing take the port down. PM_EXIT leaves
low power. TEST: a Svapo block replies with the count its receiver finds, a QD1 keeps the reply. PORT_TEST
in set-up state holds a port; PORT_RESET and LINK_DOWN of a port take it down, in T1. (R192, R398, R399,
R403, R404, R405, R406) -/
def Obligations.LowPowerRetrainsAndTests : Prop :=
  ∀ (p : PortSel) (s : State), s.lanesOn p = true →
    let l := s.link p
    let links := fun (i : Instr) (l' : Link) => ∃ t, exec i s = .next t ∧ PortOnly s t p ∧ t.link p = l' ∧
      t.out = s.out ∧ t.pst p = s.pst p
    (s.portRuns p = true →
      (∀ n : Byte, links (.mcred p n) { l with mused := l.mused - (n - l.mseen).toNat, mseen := n }) ∧
      (∀ st : Byte, st = 1 ∨ st = 2 →
        (s.linkIdle p = true → links (.pmreq p st) { l with pmIn := st, ctl := l.ctl ++ [[7, st]] }) ∧
        (s.linkIdle p = false → links (.pmreq p st) { l with ctl := l.ctl ++ [[8, st]] }) ∧
        (l.pmAsked = st → l.pmIn = 0 → (∀ m ∈ l.ctl, m.headD 0 ≠ 7) → ∃ t, exec (.pmack p st) s = .next t ∧ PortOnly s t p ∧
          t.pst p = 3 + st.toNat ∧ Out.lane p 1 st.toNat ∈ t.out ∧
          t.link p = { l with pmAsked := 0, pmIn := 0, pmGot := 0, ctl := [] }) ∧
        (l.pmAsked = st → l.pmIn = 0 → l.pmGot = 0 → links (.pmnak p st) { l with pmAsked := 0 })) ∧
      links (.lqRequest p) { l with pmAsked := 1 } ∧ links (.ldRequest p) { l with pmAsked := 2 } ∧
      (∀ n, p = .qd n → s.flag ⟨R.LN_PORT_CTL n.val, 3, 12⟩ = true → s.linkIdle p = true →
        links (.lqAutoTimeout p) { l with pmAsked := 1 }) ∧
      (∀ w : Byte, w = 4 ∨ (w = 2 ∧ isFerry p = false) → ∃ t, exec (.retrain p w) s = .next t ∧ PortOnly s t p ∧
        t.pst p = 1 ∧ t.pstep p = 4 ∧ (t.link p).mode = 1 ∧ (t.link p).kept = l.kept ∧ (t.link p).txSeq = l.txSeq ∧
        (t.link p).narrow = (l.narrow || w == 2)) ∧
      (∀ lanes : BitVec 4, lanes ≠ 0 → isFerry p = false → pairsFailed (s.pfailed p ||| lanes.toNat) = false →
        l.narrow = false → ∃ t, exec (.laneFail p lanes) s = .next t ∧ PortOnly s t p ∧ t.pst p = 1 ∧ t.pstep p = 4 ∧
          (t.link p).narrow = true ∧ (t.link p).kept = l.kept ∧ t.pfailed p = (s.pfailed p ||| lanes.toNat)) ∧
      (∀ lanes : BitVec 4, pairsFailed (s.pfailed p ||| lanes.toNat) = true → lanes ≠ 0 → ∃ t,
        exec (.laneFail p lanes) s = .next t ∧ t.pst p = 0 ∧ t.pstep p = 1 ∧ (t.link p).kept = [])) ∧
    (s.pst p = 4 ∨ s.pst p = 5 → ∃ t, exec (.pmExit p) s = .next t ∧ PortOnly s t p ∧ t.pst p = 1 ∧
      t.pstep p = (if s.pst p = 4 then 4 else 2) ∧ (t.link p).mode = 2) ∧
    (∀ (pat : Byte) (e : BitVec 32),
      (∀ n, p = .sv n → ∃ r : BitVec 32, ∃ t, exec (.test p pat e) s = .next t ∧ PortOnly s t p ∧
        t.link p = { l with testPat := pat, ctl := l.ctl ++ [[0x0A, pat] ++ bytesOf 4 r.toNat] }) ∧
      (∀ n, p = .qd n → l.testAsk = true → links (.test p pat e) { l with testAsk := false, farErrs := e })) ∧
    (∀ n, p = .qd n → s.inSetup = true → s.inService p = false → ∃ t, exec (.portTest n) s = .next t ∧ t.pst p = 7 ∧
      t.pstep p = 0 ∧ (t.link p).testAsk = decide (n.val < 144) ∧ (t.link p).kept = []) ∧
    (∃ t, exec (.portReset p) s = .next t ∧ t.pst p = 0 ∧ t.pstep p = 1 ∧ t.pfailed p = 0 ∧ (t.link p).kept = [] ∧
      (t.link p).narrow = false) ∧
    (s.inService p = true → ∀ c : DownCause, ∃ t, exec (.linkDown p c) s = .next t ∧ t.pst p = 0 ∧ t.pstep p = 1 ∧
      (t.link p).kept = [] ∧ (t.link p).txSlots = [] ∧ (t.link p).ctl = [] ∧
      (∀ n, p = .qd n → (∀ c ∈ t.qd.sw.stage, c.egr ≠ n.val) ∧ t.qd.hbm = s.qd.hbm) ∧
      (∀ n, p = .sv n → t.qd = s.qd ∧
        t.sv.held = s.sv.held ++ l.txq.map (fun k => (n.val, k))))

/-- A packet is routed once, taken into the buffer cell by cell, and matched to its egress. INGRESS_PACKET of a
whole packet for another node of the rack: a valid route-table entry whose target is a port takes its cells
into the shared buffer for that port, in order, each counted and each with a credit of its ingress and
class; an entry without a valid state has a request answered with ERR_LOST. A packet whose E2E fails raises
an event, and a request is answered with ERR_CHECK. CELL_TIME_MATCH with one cell of class 0 waiting moves
it to the unit of its service port, counted, or into the stage of its Ferry or partner port. Nothing else
changes. (R79, R172, R174, R175, R176, R178, R193, R194, R197) -/
def Obligations.PacketsEnterAndCrossTheSwitch : Prop :=
  (∀ (i : Ingress) (p : Packet) (s : State), s.fenced = false → p.complOk = true →
    let n := ingNo i
    let slot := nodeSlot p.dst
    let w := s.rg (R.RT_LOCAL slot)
    (p.e2eOk = true → p.dst ≠ s.qdNode → s.qd.fault.takeover = false → nodeRack p.dst = s.qdRack → toDirectory p = false →
      fget w 32 32 = 2 ^ 32 - 1 - fget w 0 32 → slot ∉ s.qd.sw.rtBad →
      (fget w 8 2 = 1 → fget w 0 8 < 160 → p.cls ≠ 3 → ∃ t, exec (.ingressPacket i p) s = .next t ∧
        (∃ cells : List Cell, t = { s with qd := { s.qd with
            regs := t.qd.regs
            sw := { s.qd.sw with buf := s.qd.sw.buf ++ cells, cg := t.qd.sw.cg, cs := t.qd.sw.cs } } } ∧
          cells.length = pktCells p ∧ ∀ j c, cells[j]? = some c → c.ing = n ∧ c.egr = fget w 0 8 ∧ c.cls = p.cls.toNat ∧
            c.pkt = p ∧ c.idx = j ∧ (c.last = true ↔ j + 1 = pktCells p) ∧ c.route = slot ∧ c.held = false) ∧
        t.rg (R.TEL_00 n) = s.rg (R.TEL_00 n) + BitVec.ofNat 64 (pktCells p) ∧
        RegsKept s t [R.TEL_00 n, R.TEL_48 (fget w 0 8)] ∧
        (∀ k, k ≠ 4 * n + p.cls.toNat → Tbl.at t.qd.sw.cg k = Tbl.at s.qd.sw.cg k ∧ Tbl.at t.qd.sw.cs k = Tbl.at s.qd.sw.cs k) ∧
        let k := 4 * n + p.cls.toNat
        (isMgmt p = false → n < 160 → pktCells p ≤ Tbl.at s.qd.sw.cg k + Tbl.at s.qd.sw.cs k →
          Tbl.at t.qd.sw.cg k + Tbl.at t.qd.sw.cs k + pktCells p = Tbl.at s.qd.sw.cg k + Tbl.at s.qd.sw.cs k)) ∧
      (fget w 8 2 = 0 ∨ fget w 8 2 = 3 → p.rsp = false → ∃ q : Packet, Answers q p St.LOST [] ∧
        exec (.ingressPacket i p) s = .next { s with out := s.out ++ [.unitSend q] })) ∧
    (p.e2eOk = false → p.rsp = false → ∃ q : Packet, Answers q p St.CHECK [] ∧
      let v : Via := match i with
        | .link k => .link k
        | .service _ => .unit
      let e := pktEvent v St.CHECK p s
      exec (.ingressPacket i p) s = .next { e with out := e.out ++ [.unitSend q] })) ∧
  ∀ (c : Cell) (s : State), s.qd.sw.buf = [c] → s.qd.sw.stage = [] → s.qd.node.waits = [] → c.ing < 160 → c.cls = 0 →
    c.last = true → c.idx = 0 → c.held = false →
    (160 ≤ c.egr → c.egr < 176 → c.egr ≠ 172 → ∃ t, exec .cellTimeMatch s = .next t ∧
      t = { s with out := s.out ++ [.toUnit (c.egr - 160) c.pkt]
                   qd := { s.qd with regs := t.qd.regs, links := t.qd.links, sw := t.qd.sw } } ∧
      t.qd.sw.buf = [] ∧ t.qd.sw.stage = [] ∧ t.rg (R.TEL_08 c.egr) = s.rg (R.TEL_08 c.egr) + 1 ∧
      RegsKept s t [R.TEL_08 c.egr]) ∧
    (144 ≤ c.egr → c.egr < 160 → s.flag (F.SW_PORT_CTL_MARK_EN c.egr) = false → ∃ t, exec .cellTimeMatch s = .next t ∧
      t = { s with qd := { s.qd with links := t.qd.links, sw := t.qd.sw } } ∧ t.qd.sw.buf = [] ∧ t.qd.sw.stage = [c])

/-- Updates of hot lines are recorded at the partner, sent, and answered to their members. MERGE_UPDATE_SEND of
an add update while mirroring sends its combine record once, of an update of stores puts its packets in the
egress stage and waits for their answers when one of its members waits for one. COMBINE_RECORD_ACK sends the
add update. MERGE_UPDATE_RESPONSE to an add update answers each fetch-add member with the line's old value
plus the total before it, and retires the record. COMBINE_RECORD keeps a record and acknowledges it, one
without members retires it. HOT_WINDOW_TICK rolls the counts and drops the lines with fewer than 16 requests
and no update. Nothing else changes. (R185, R186, R187, R189, R190) -/
def Obligations.HotLinesAreCombined : Prop :=
  (∀ (e : Fin 512) (m : MergeEnt) (u : Update) (s : State), Tbl.at s.qd.sw.merge e.val = some m → m.update = some u →
    let entry := fun (t : State) (x : Option Update) =>
      ∀ k, Tbl.at t.qd.sw.merge k = if k = e.val then some { m with update := x } else Tbl.at s.qd.sw.merge k
    let sends := fun (i : Instr) (v : Update) => s.qd.sw.heldQ = [] → ∃ t, exec i s = .next t ∧ entry t none ∧
      t = { s with qd := { s.qd with sw := { s.qd.sw with
        merge := t.qd.sw.merge
        stage := s.qd.sw.stage ++ (updatePackets s e.val m u).flatMap (s.stageCells m.egr)
        sentUpd := s.qd.sw.sentUpd.filter (fun x => !(x.1 == e.val && x.2.2.2.awaiting == 0)) ++
          [(e.val, m.dst, m.egr, v)] } } }
    (u.isAdd = true → u.recAcked = false → u.recSent = false → s.mirroring = true → ∃ t,
      exec (.mergeUpdateSend e) s = .next t ∧ entry t (some { u with closed := true, recSent := true }) ∧
      t = { s with out := s.out ++ [.combine (recordOf s e.val m u)]
                   qd := { s.qd with sw := { s.qd.sw with merge := t.qd.sw.merge } } }) ∧
    (u.isAdd = false → sends (.mergeUpdateSend e) { u with
      closed := true
      awaiting := if u.members.any (fun x => !(opcIsPosted x.1.opc)) then (updatePackets s e.val m u).length else 0 }) ∧
    (u.isAdd = true → u.recSent = true → s.lgTakes u.head.ctx = false →
      sends (.combineRecordAck e) { u with closed := true, recAcked := true, awaiting := 1 })) ∧
  (∀ (e : Fin 512) (dst : BitVec 14) (egr : Nat) (p : Packet) (u : Update) (s : State), p.rsp = true → p.complOk = true →
    p.que = 512 → p.dst = s.qdNode → p.tag.toNat = e.val → p.tseq = u.tseq → p.status = St.OK →
    s.qd.sw.sentUpd = [(e.val, dst, egr, u)] → u.awaiting = 1 → u.status = 0 → u.isAdd = true → u.recAcked = true →
    (∀ x ∈ u.members, x.1.opc = Opc.FADD) →
    ∃ qs : List Packet, qs.length = u.members.length ∧
      (∀ (j : Nat) (q : Packet) (x : Packet × BitVec 128), qs[j]? = some q → u.members[j]? = some x →
        Answers q x.1 St.OK (bytesOf (atomSize u.head.aux) (natOf p.data + x.2.toNat))) ∧
      exec (.mergeUpdateResponse p) s = .next { s with
        out := s.out ++ qs.map Out.unitSend ++ [.combine { entry := e, dst := 0, total := 0, tag := BitVec.ofNat 9 e.val,
                                                           tseq := u.tseq, members := [], head := default }]
        qd := { s.qd with sw := { s.qd.sw with sentUpd := [] } } }) ∧
  (∀ (r : CombineRec) (s : State),
    let others := s.qd.sw.partnerRecs.filter (fun x => decide (x.entry ≠ r.entry))
    (r.members ≠ [] → exec (.combineRecord r) s = .next { s with
      out := s.out ++ [.combineAck r.entry.val]
      qd := { s.qd with sw := { s.qd.sw with partnerRecs := others ++ [r] } } }) ∧
    (r.members = [] → exec (.combineRecord r) s = .next
      { s with qd := { s.qd with sw := { s.qd.sw with partnerRecs := others } } })) ∧
  ∀ (s : State), ∃ t, exec .hotWindowTick s = .next t ∧
    t = { s with qd := { s.qd with sw := { s.qd.sw with hot := t.qd.sw.hot, merge := t.qd.sw.merge } } } ∧
    (∀ x : Nat × List HotLine, x ∈ t.qd.sw.hot ↔ x.2 ≠ [] ∧ ∃ l, (x.1, l) ∈ s.qd.sw.hot ∧
      x.2 = (l.filter (fun h => decide (h.cur ≠ 0))).map (fun h => { h with prev := h.cur, cur := 0 })) ∧
    ∀ x : Nat × Option MergeEnt, x ∈ t.qd.sw.merge ↔ x ∈ s.qd.sw.merge ∧ ∃ m, x.2 = some m ∧ (m.update.isSome = true ∨
      ∃ h ∈ (Tbl.at s.qd.sw.hot m.egr).find? (fun h => h.dst == m.dst && h.line == m.line), 16 ≤ h.prev + h.cur)

/-- A route-table entry is held, drained, given a new value and released; the scrub and the sample. ROUTE_HOLD
sets the entry's state to held and BUSY; ROUTE_DRAINED with nothing of it left sets HELD;
ROUTE_DRAIN_TIMEOUT before that raises an event; ROUTE_UPDATE of the drained entry stores the new value,
held; ROUTE_RELEASE gives it the new value, or the old one when none was written, and ends the hold; one
that names another entry answers OK with ERR_DESC in RT_STS. RT_LOAD in set-up state writes an entry, at any
other time it is dropped with an event. ROUTE_SCRUB finds an entry that does not match its complement,
raises an event and treats it as broken until rewritten. TELEMETRY_SAMPLE takes the backlogs. Nothing else
changes. (R193, R194, R195, R196, R198, R529) -/
def Obligations.RouteChanges : Prop :=
  ∀ (s : State) (src : RegSrc) (v : Word),
    let idx := fun (remote : Bool) (lo : Nat) => if remote then 256 + fget v lo 8 % 64 else fget v lo 8
    let i := idx (bitAt v 2) 3
    let off := if i < 256 then R.RT_LOCAL i else R.RT_REMOTE (i - 256)
    let low := fun (w : Word) (st : Nat) => fget (fset w 8 2 st) 0 32
    let done := fun (j : Instr) (regs : List (Nat × Word)) (bad : Nat → Bool) (hold : Option (Nat × Word × Option Word × Bool))
        (busy st held : Nat) (ans : Bool) => ∃ t, exec j s = .next t ∧
      t = { s with
        out := s.out ++ (if ans then [.regAnswer src St.OK 0] else [])
        qd := { s.qd with regs := t.qd.regs
                          sw := { s.qd.sw with rtBad := s.qd.sw.rtBad.filter bad, rtHold := hold } } } ∧
      RegsKept s t (R.RT_STS :: regs.map (·.1)) ∧ (∀ x ∈ regs, t.rg x.1 = x.2) ∧
      t.fl F.RT_STS_BUSY = busy ∧ t.fl F.RT_STS_STATUS = st ∧ t.fl F.RT_STS_HELD = held
    let fl := fun (f : Fld) => s.fl f
    let good := fun (k : Nat) => decide (k ≠ i)
    (s.qd.sw.rtHold = none →
      done (.routeHold src v) [(off, withCompl (low (s.rg off) 2))] good (some (i, s.rg off, none, false)) 1 0 0 true) ∧
    (∀ (j : Nat) (old : Word) (nw : Option Word), s.qd.sw.rtHold = some (j, old, nw, false) →
      ((∀ c ∈ s.qd.sw.buf, c.route = j → c.held = true) → (∀ c ∈ s.qd.sw.stage, c.route ≠ j) → j < 256 →
        (fget old 0 8 < 160 → (Tbl.at s.qd.links (fget old 0 8)).kept = []) →
        done .routeDrained [] (fun _ => true) (some (j, old, nw, true)) 0 (fl F.RT_STS_STATUS) 1 false) ∧
      exec .routeDrainTimeout s = .next (s.event Rg.switch
        { cat := Cat.TIMEOUT, obj := Obj.ROUTE, arg0 := BitVec.ofNat 64 j
          arg1 := BitVec.ofNat 64 (fl F.RT_DRAIN_TMO_TMO * 1000) })) ∧
    (∀ (j : Nat) (old : Word) (nw : Option Word) (d : Bool), s.qd.sw.rtHold = some (j, old, nw, d) →
      (i = j → d = true → done (.routeUpdate src v) [(off, withCompl (low (BitVec.ofNat 64 (fget v 11 32)) 2))] good
        (some (i, old, some (BitVec.ofNat 64 (fget v 11 32)), true)) (fl F.RT_STS_BUSY) 0 (fl F.RT_STS_HELD) true) ∧
      (i = j → (∀ c ∈ s.qd.sw.buf, c.route ≠ i) → done (.routeRelease src v)
        [(off, withCompl (fget (nw.getD old) 0 32))] good none 0 0 0 true) ∧
      (i ≠ j → ∀ k ∈ [Instr.routeUpdate src v, .routeRelease src v], done k [] (fun _ => true) (some (j, old, nw, d))
        (fl F.RT_STS_BUSY) St.DESC.toNat (fl F.RT_STS_HELD) true)) ∧
    (let r := idx (bitAt v 8) 0
     let roff := if r < 256 then R.RT_LOCAL r else R.RT_REMOTE (r - 256)
     (s.inSetup = true → done (.rtLoad src v) [(roff, withCompl (fget v 9 32))] (fun k => decide (k ≠ r)) s.qd.sw.rtHold
       (fl F.RT_STS_BUSY) (fl F.RT_STS_STATUS) (fl F.RT_STS_HELD) true) ∧
     (s.inSetup = false → ∃ t, t = s.refused Rg.switch R.RT_LOAD v ∧
       exec (.rtLoad src v) s = .next { t with out := t.out ++ [.regAnswer src St.PERM 0] })) ∧
    (∀ k, k < 320 → let o := fun (j : Nat) => if j < 256 then R.RT_LOCAL j else R.RT_REMOTE (j - 256)
      (∀ j, j < 320 → (fget (s.rg (o j)) 32 32 = 2 ^ 32 - 1 - fget (s.rg (o j)) 0 32 ↔ j ≠ k)) → k ∉ s.qd.sw.rtBad → ∃ t,
        t = (s.event Rg.switch { cat := Cat.INTEGRITY, obj := Obj.ROUTE, arg0 := BitVec.ofNat 64 k
                                 arg1 := s.rg (o k) }).score 8 1 256 ∧
        exec .routeScrub s = .next { t with qd := { t.qd with sw := { t.qd.sw with rtBad := t.qd.sw.rtBad ++ [k] } } }) ∧
    ∃ t, exec .telemetrySample s = .next t ∧ t = { s with qd := { s.qd with regs := t.qd.regs } } ∧
      RegsKept s t ((List.range 176).map R.TEL_40) ∧
      ∀ n c, n < 176 → c < 4 → fget (t.rg (R.TEL_40 n)) (16 * c) 16 = min 65535
        ((s.qd.sw.buf ++ s.qd.sw.stage).countP (fun x => x.egr == n && x.cls == c))

/-- Windows are loaded, withdrawn, drained, scrubbed and their streams prefetched. WT_CMD of a staged entry that
passes the checks of R527 writes it, an entry of a window that is not closed or not there is refused with an
event. WIN_WITHDRAW of a valid window that is not mirrored drains it: STATE 2, GEN one more, its
translations dropped; of another it is refused. WITHDRAW_COMPLETE with no use left closes it.
WITHDRAW_TIMEOUT with uses left raises an event that carries them. MIRROR_WITHDRAW_UPDATE gives the
partner's copy its word and is acknowledged. STREAM_PREFETCH reads the translations of the next tiles that
are missing. WINDOW_TABLE_SCRUB drains the entry that fails its complement, not mirrored, with an event.
Nothing else changes. (R34, R41, R42, R43, R484, R527, R555) -/
def Obligations.WindowTableCommands : Prop :=
  ∀ (s : State),
    let drop := fun (n : Node) (w : Nat) (wt : Tbl Entry) => { n with
      wt := wt
      trans := n.trans.filter (fun t => t.win != w)
      streams := n.streams.map (fun x => { x with buf := x.buf.filter (fun t => t.win != w) }) }
    let put := fun (b : Bank) (w : Nat) (wt : Tbl Entry) (st gen : Nat) => ∃ e : Entry,
      (∀ j, Tbl.at wt j = if j = w then e else s.wte b j) ∧ e.complOk = true ∧ e.state = st ∧ e.gen.toNat = gen ∧
      e.w0 = (s.wte b w).w0 ∧ e.w1 = (s.wte b w).w1 ∧ e.w3 = (s.wte b w).w3 ∧
      ∀ i, i < 64 → (i < 16 ∨ 24 ≤ i ∧ i < 30 ∨ 32 ≤ i) → bitAt e.w2 i = bitAt (s.wte b w).w2 i
    (∀ (src : RegSrc) (v : Word),
      let w := v.toNat % 64
      let d := fun (i : Nat) => s.staged src 0 i
      let e : Entry := ⟨d 0, d 1, d 2, d 3, ~~~ d 0, ~~~ d 1, ~~~ d 2, ~~~ d 3⟩
      let ps := if e.pgsz = 3 then 65536 else e.pageSize
      let done := fun (i : Instr) (u : State) (st : BitVec 7) (wt : Tbl Entry) => ∃ regs : Tbl Word,
        let t : State := { u with out := u.out ++ [.regAnswer src st 0]
                                  qd := { u.qd with regs := regs, node := { u.qd.node with wt := wt } } }
        exec i s = .next t ∧ RegsKept u t [R.WT_STS] ∧ t.fl F.WT_STS_STATUS = st.toNat ∧ t.fl F.WT_STS_INDEX = w
      let bad := fun (st : BitVec 7) => s.event Rg.ctu
        { cat := Cat.REFUSED, obj := Obj.WINDOW, status := st, arg0 := BitVec.ofNat 64 w, arg1 := v }
      (w < 48 → (s.wte .own w).state = 0 → e.state = 1 → e.w0.toNat % 2 ^ 16 = 0 → e.w1.toNat < 2 ^ 45 → e.w2.toNat < 2 ^ 42 →
        e.w3 = 0 → e.coh = false → (e.prot = true → e.ctx ≠ 0xFFFF) → e.ctx ≠ 0 → 0 < e.limit → e.limit % ps = 0 →
        e.limit ≤ 2 ^ 44 → (e.baseAddr + if e.pgsz = 3 then e.limit else e.limit / e.pageSize * 8) ≤ granarySize s.qd.variant →
        s.pinned + e.pins ≤ 16384 → e.mir = false → ∃ wt : Tbl Entry,
          (∀ j, Tbl.at wt j = if j = w then e else s.wte .own j) ∧ done (.wtCmd src v) s St.OK wt) ∧
      (48 ≤ w → done (.wtCmd src v) (bad St.NOWIN) St.NOWIN (bad St.NOWIN).qd.node.wt) ∧
      (w < 48 → (s.wte .own w).state ≠ 0 → done (.wtCmd src v) (bad St.PERM) St.PERM (bad St.PERM).qd.node.wt)) ∧
    (∀ (src : RegSrc) (v : Word), let w := v.toNat % 64
      (w < 48 → (s.wte .own w).state = 1 → ((s.wte .own w).mir = false ∨ s.mirroring = false) → ∃ wt,
        put .own w wt 2 (((s.wte .own w).gen.toNat + 1) % 256) ∧ exec (.winWithdraw .qd src v) s = .next { s with
          out := s.acks src St.OK, qd := { s.qd with node := drop s.qd.node w wt } }) ∧
      ((s.wte .sv w).state = 1 → ∃ wt, put .sv w wt 2 (((s.wte .sv w).gen.toNat + 1) % 256) ∧
        exec (.winWithdraw .sv src v) s = .next { s with
          out := s.acks src St.OK, sv := { s.sv with node := drop s.sv.node w wt } }) ∧
      (48 ≤ w ∨ (s.wte .own w).state ≠ 1 → exec (.winWithdraw .qd src v) s =
        let u := s.refused Rg.ctu R.WIN_WITHDRAW v
        .next { u with out := u.out ++ [.regAnswer src St.PERM 0] })) ∧
    (∀ w : Fin 64,
      ((s.wte .own w.val).state = 2 → s.inUse .own w.val = 0 → s.qd.fault.takeover = false →
        ((s.wte .own w.val).mir = false ∨ s.mirroring = false) → ∃ wt, put .own w.val wt 0 (s.wte .own w.val).gen.toNat ∧
          exec (.withdrawComplete .qd w) s = .next { s with qd := { s.qd with node := drop s.qd.node w.val wt } }) ∧
      ((s.wte .sv w.val).state = 2 → s.inUse .sv w.val = 0 → ∃ wt, put .sv w.val wt 0 (s.wte .sv w.val).gen.toNat ∧
          exec (.withdrawComplete .sv w) s = .next { s with sv := { s.sv with node := drop s.sv.node w.val wt } }) ∧
      ((s.wte .own w.val).state = 2 → 0 < s.inUse .own w.val → exec (.withdrawTimeout .qd w) s = .next (s.event Rg.ctu
        { cat := Cat.TIMEOUT, obj := Obj.WINDOW
          arg0 := BitVec.ofNat 64 (w.val + s.inUse .own w.val % 2 ^ 32 * 2 ^ 32)
          arg1 := BitVec.ofNat 64 (s.fl F.WIN_WD_TMO_TMO * 1000) })) ∧
      ((s.wte .sv w.val).state = 2 → 0 < s.inUse .sv w.val → exec (.withdrawTimeout .sv w) s = .next (s.svEvent 0xFF
        { cat := Cat.TIMEOUT, obj := Obj.WINDOW
          arg0 := BitVec.ofNat 64 (w.val + s.inUse .sv w.val % 2 ^ 32 * 2 ^ 32), arg1 := 100000 }))) ∧
    (∀ (id : Nat) (w : Fin 48) (w2 : Word), ∃ wt : Tbl Entry,
      let e := s.wte .mir w.val
      (∀ j, Tbl.at wt j = if j = w.val then ⟨e.w0, e.w1, w2, e.w3, ~~~ e.w0, ~~~ e.w1, ~~~ w2, ~~~ e.w3⟩ else s.wte .mir j) ∧
      exec (.mirrorWithdrawUpdate id w w2) s = .next { s with
        out := s.out ++ [.mirrorAck id], qd := { s.qd with mnode := drop s.qd.mnode w.val wt } }) ∧
    (∀ (x : Stream), s.qd.node.streams = [x] → x.prefetch = true → (s.wte .own x.win).state = 1 → (s.wte .own x.win).pgsz ≠ 3 →
      let e := s.wte .own x.win
      let wanted := fun (pg : Nat) => ∃ k, k < s.fl F.CTU_CTL_LOOKAHEAD ∧ pg ∈ x.pages e.pageSize (x.next + k)
      ∃ buf : List Trans, exec (.streamPrefetch x.id) s =
          .next { s with qd := { s.qd with node := { s.qd.node with streams := [{ x with buf := buf }] } } } ∧
        ∀ y, y ∈ buf ↔ wanted y.page ∧ (y ∈ x.buf ∨
          (s.transOf .own x.win e.gen y.page = none ∧ y.page * e.pageSize < e.limit ∧
            s.qd.hbm.good (e.pteAddr y.page) 8 = true ∧
            y = ⟨x.win, y.page, e.gen.toNat, BitVec.ofNat 64 (natOf (s.qd.hbm.read (e.pteAddr y.page) 8)), false⟩ ∧
            pteMapped s .own e y.pte = true))) ∧
    ∀ w, w < 48 → (∀ j, j < 48 → ((s.wte .own j).complOk = false ↔ j = w)) →
      ((s.wte .own w).mir = false ∨ s.mirroring = false) → ∃ wt,
      let u := (s.event Rg.ctu { cat := Cat.INTEGRITY, obj := Obj.WINDOW, arg0 := BitVec.ofNat 64 w
                                 arg1 := (s.wte .own w).mismatch }).score 8 0 256
      put .own w wt 2 (((s.wte .own w).gen.toNat + 1) % 256) ∧
      exec (.windowTableScrub .qd) s = .next { u with qd := { u.qd with node := drop s.qd.node w wt } }

/-- Register writes: a field in its range, one out of it, offsets that hold nothing; and the Granary patrol.
REGISTER_WRITE of RT_DRAIN_TMO, a field of set-up state, from a source of window 63 within 1 to 10,000
changes that field only and is answered OK; out of the range, or outside set-up state, it is dropped, with
ERR_PERM and an event; an offset off the word grid answers ERR_DESC and one outside the blocks ERR_NOWIN. A
Svapo block takes a staged word from its channel. GRANARY_SCRUB that finds a word it cannot correct raises
an event, counts it, retires its frame, and takes the word out of the bad ones where the pair holds a
mirrored copy, and keeps it among them otherwise. Nothing else changes. (R369, R482, R483, R485, R534, R537,
R538) -/
def Obligations.RegisterWritesAndThePatrol : Prop :=
  (∀ (src : RegSrc) (v : Word) (s : State), src ≠ .channel → src ≠ .management →
    let off := R.RT_DRAIN_TMO
    let x := v.toNat % 65536
    (s.inSetup = true → 1 ≤ x → x ≤ 10000 → ∃ t, exec (.registerWrite .qd src (BitVec.ofNat 64 off) v) s = .next t ∧
      t = { s with out := s.acks src St.OK, qd := { s.qd with regs := t.qd.regs } } ∧ RegsKept s t [off] ∧
      t.fl F.RT_DRAIN_TMO_TMO = x) ∧
    (s.inSetup = false ∨ x = 0 ∨ 10000 < x → s.fl F.RT_DRAIN_TMO_TMO ≠ x → exec (.registerWrite .qd src (BitVec.ofNat 64 off) v) s =
      let u := s.refused Rg.switch off v
      .next { u with out := u.out ++ [.regAnswer src St.PERM 0] }) ∧
    (∀ o : Word, (o.toNat % 8 ≠ 0 → exec (.registerWrite .qd src o v) s = .next { s with out := s.acks src St.DESC }) ∧
      (o.toNat % 8 = 0 → 14 * 2 ^ 24 ≤ o.toNat → o.toNat < 2 ^ 40 →
        exec (.registerWrite .qd src o v) s = .next { s with out := s.acks src St.NOWIN })) ∧
    ∀ i : Fin 4, s.sv.inReset = false → ∃ x : Tbl Word,
      (∀ k, Tbl.get svReset x k = if k = SR.SV_WT_DATA i.val then v else s.sr k) ∧
      exec (.registerWrite .sv .channel (BitVec.ofNat 64 (SR.SV_WT_DATA i.val)) v) s = .next { s with
        out := s.acks .channel St.OK, sv := { s.sv with regs := x } }) ∧
  ∀ (f : EccFinding) (s : State), f.correctable = false → f.addr < granarySize s.qd.variant → ∃ k, k < stacksOf s.qd.variant ∧
    let w := f.addr / 8 * 8
    let u := (({ s with free := s.free + 1 }.event (Rg.hbm k) { cat := Cat.INTEGRITY, obj := Obj.HBM, status := St.DATA
                                                                arg0 := BitVec.ofNat 64 w, arg1 := f.found }).score 3 k 512).retireFrame w
    ∃ t, exec (.granaryScrub f) s = .next t ∧
      t = { u with qd := { u.qd with hbm := { u.qd.hbm with bad := t.qd.hbm.bad } } } ∧ t.qd.hbm.mem = s.qd.hbm.mem ∧
      (∀ x, x ≠ w → (x ∈ t.qd.hbm.bad ↔ x ∈ s.qd.hbm.bad)) ∧
      (w ∈ t.qd.hbm.bad ↔ ¬ (u.pair = 0 ∧ f.addr / 65536 ∈ mirFrames .own u))

/-- Descriptors are fetched in their queue's turn, checked and started. DESCRIPTOR_FETCH of the own queue whose
turn it is sends one LD of class 1 for the entries below PI within a 256-byte block of its ring, and moves
the fetch index. DESCRIPTOR_FETCH_RETURN of one entry that holds a NOP with its index and complements in
order adds the descriptor, started or held by BARRIER, and advances CI. DESCRIPTOR_START of the oldest
descriptor starts it. DESCRIPTOR_NOP of a started one completes it with status OK and a RESULT that the spec
does not state, a free value. Nothing else changes. (R92, R93, R96, R98, R99, R100, R107) -/
def Obligations.DescriptorsAreFetchedAndStarted : Prop :=
  ∀ (q : Fin 4096) (s : State),
    let k := q.val
    let b := s.bind k
    let x := s.sq k
    (s.fetchTurn = some k → x.redo = [] → faOff b.ring + b.ringN * 64 ≤ 2 ^ 44 →
      let n := min (min (x.pi - x.fp).toNat (64 - x.descs.length - (x.fetching.map (·.n)).sum)) (4 - x.fp.toNat % 4)
      ∃ (p : Packet) (qs : Tbl SQ), p.opc = Opc.LD ∧ p.rsp = false ∧ p.cls = 1 ∧ p.src = s.qdNode ∧ p.ctx = b.qctx ∧
        p.gen = b.qgen ∧ p.len = 64 * n ∧ p.fabric = b.ring + BitVec.ofNat 64 (x.fp.toNat % b.ringN * 64) ∧
        p.complOk = true ∧ p.e2eOk = true ∧
        SqIs s qs k { x with fp := x.fp + BitVec.ofNat 32 n, fetching := x.fetching ++ [{ ridx := x.fp, n := n }] } ∧
        exec (.descriptorFetch q) s = .next (unitReq
          { que := 448 + k % 64, purpose := .unit Un.FETCH k x.fp.toNat 0, parts := [[p]] }
          { s with qd := { s.qd with rings := { s.qd.rings with turn := k + 1, qs := qs } } })) ∧
    (∀ (o : OutReq) (c : Part) (p r : Packet) (ridx : BitVec 32) (notify barrier : Bool), s.fenced = false → r.rsp = true →
      r.opc = Opc.LD → r.complOk = true → r.e2eOk = true → r.status = St.OK → s.qd.srcs.reqs = [o] → s.qd.srcs.waits = [] →
      r.que.toNat = o.que → r.tag.toNat = o.tag → r.tseq = o.tseq → o.purpose = .unit Un.FETCH k ridx.toNat 0 →
      o.parts = [c] → c.answered = false → c.pkts = [p] → p.opc = Opc.LD → o.st = 0 → o.data = [] →
      x.fetching = [{ ridx := ridx, n := 1 }] → (∀ d ∈ x.descs, d.stage ≠ 0 ∧ d.ridx ≠ ridx) → b.qmir = false →
      s.lgTakes b.qctx = false → b.qtype < 256 → r.data.length = 64 →
      let w := fun (i : Nat) => BitVec.ofNat 64 (natOf ((r.data.drop (8 * i)).take 8))
      w 0 = withCompl (b.qtype * 256 + (if notify then 2 ^ 18 else 0) + if barrier then 2 ^ 19 else 0) → w 1 = withCompl 0 →
      w 2 = BitVec.ofNat 64 ridx.toNat → w 4 = 0 →
      ∃ (t : State) (d : Desc), exec (.descriptorFetchReturn r) s = .next t ∧
        d = { ridx := ridx, words := (List.range 8).map w, no := s.qd.rings.fetchNo, stage := if barrier then 1 else 2
              aux := d.aux } ∧
        SqIs s t.qd.rings.qs k { x with descs := x.descs ++ [d], fetching := [], ci := ridx + 1, statusDue := true } ∧
        t = { s with qd := { s.qd with
          rings := { s.qd.rings with qs := t.qd.rings.qs, fetchNo := s.qd.rings.fetchNo + 1 }
          srcs := { s.qd.srcs with reqs := [] } } }) ∧
    (∀ (d : Desc) (rest : List Desc), x.descs = d :: rest → (∀ y ∈ rest, y.ridx ≠ d.ridx) → b.qmir = false →
      (d.stage = 1 → ∃ qs, SqIs s qs k { x with descs := { d with stage := 2 } :: rest } ∧
        exec (.descriptorStart q d.ridx) s = .next { s with qd := { s.qd with rings := { s.qd.rings with qs := qs } } }) ∧
      (d.stage = 2 → d.opc = 0 → ∃ (qs : Tbl SQ) (v : Word),
        SqIs s qs k { x with descs := { d with stage := 4, status := St.OK, result := v } :: rest } ∧
        exec (.descriptorNop q d.ridx) s = .next { s with
          free := s.free + 1, qd := { s.qd with rings := { s.qd.rings with qs := qs } } }))

/-- Status words, chunk signals, completion entries, and the binding and unbinding of queues. STATUS_WORD_WRITE
of a queue that owes one stores CI, its complement and STATE with the error and the descriptors held.
CHUNK_SIGNAL_WRITE stores COUNT, its complement and the stamp with release. COMPLETION_WRITE of a complete
descriptor without notice stores its 32-byte entry with release at its place of the completion ring. SQ_LOAD
of a closed queue binds the staged entry that R88 admits, of another it is refused. SQ_UNBIND drains a
queue, UNBIND_PROGRESS_EVENT tells of one with descriptors left, UNBIND_COMPLETE closes one without.
SQ_BINDING_SCRUB fails the queue whose binding fails its complement. Nothing else changes. (R88, R90, R101,
R102, R103, R104, R107, R109, R110, R113, R484, R528) -/
def Obligations.QueuesReportAndComplete : Prop :=
  ∀ (q : Fin 4096) (s : State),
    let k := q.val
    let b := s.bind k
    let x := s.sq k
    let que := 448 + k % 64
    let word := fun (st : Nat) => bytesOf 4 x.ci.toNat ++ bytesOf 4 (2 ^ 32 - 1 - x.ci.toNat) ++
      bytesOf 8 (st + x.rerr.toNat * 4 + (x.descs.filter (fun d => d.stage != 0)).length % 65536 * 65536)
    let stores := fun (i : Instr) (purpose : Purpose) (gen : Byte) (fa : Word) (ord : Nat) (d : List Byte) (y : SQ)
        (bind : Tbl Entry) => ∃ (p : Packet) (qs : Tbl SQ),
      let u := unitReq { que := que, purpose := purpose, parts := [[p]] } s
      StoresAt p s.qdNode b.qctx gen fa ord d ∧ p.que.toNat = que ∧ SqIs s qs k y ∧
      exec i s = .next { u with qd := { u.qd with rings := { u.qd.rings with qs := qs, bind := bind } } }
    (x.statusDue = true → s.qd.fault.spare = false → b.qstate ≠ 0 → s.fenced = false →
      stores (.statusWordWrite q) (.unit Un.STATUS k 0 0) b.qgen b.rsw 0 (word b.qstate) { x with statusDue := false }
        s.qd.rings.bind) ∧
    (∀ (d : Desc) (rest : List Desc), x.descs = d :: rest → (∀ y ∈ rest, y.ridx ≠ d.ridx) → d.replay = false → s.fenced = false →
      (d.sig ≠ 0 → d.sigSent < d.count → d.stage < 5 → d.type ≠ Ty.GREEN → d.count < 2 ^ 32 →
        stores (.chunkSignalWrite q d.ridx) (.unit Un.SIGNAL k d.ridx.toNat d.count) d.siggen d.sig 2
          (bytesOf 4 d.count ++ bytesOf 4 (2 ^ 32 - 1 - d.count) ++ bytesOf 8 d.stamp.toNat)
          { x with descs := { d with sigSent := d.count, sigOut := d.sigOut + 1 } :: rest } s.qd.rings.bind) ∧
      (d.stage = 4 → d.writes = 0 → d.sigOut = 0 → (d.sig = 0 ∨ d.sigSent = d.count ∨ d.status ≠ 0) →
        (b.note = false ∨ d.notify = false) →
        stores (.completionWrite q d.ridx) (.unit Un.COMPLETION k d.ridx.toNat 0) b.qgen
          (b.cq + BitVec.ofNat 64 (d.ridx.toNat % b.ringN * 32)) 2
          (bytesOf 8 d.user.toNat ++ bytesOf 4 d.ridx.toNat ++
            bytesOf 4 (d.status.toNat + k * 2 ^ 16 + (1 - d.ridx.toNat / b.ringN % 2) * 2 ^ 31) ++
            bytesOf 8 d.result.toNat ++ bytesOf 8 s.stamp.toNat)
          { x with descs := { d with stage := 5 } :: rest } s.qd.rings.bind)) ∧
    (∀ (src : RegSrc) (v : Word), v.toNat % 4096 = k →
      let d := fun (i : Nat) => s.staged src 1 i
      let e : Entry := ⟨d 0, d 1, d 2, d 3, ~~~ d 0, ~~~ d 1, ~~~ d 2, ~~~ d 3⟩
      let sts := fun (u t : State) (st : BitVec 7) => RegsKept u t [R.SQ_STS] ∧ t.fl F.SQ_STS_STATUS = st.toNat ∧
        t.fl F.SQ_STS_QUEUE = k
      (b.qstate = 0 → sqEntryOk s k e = true → e.qmir = false → ∃ t, exec (.sqLoad src v) s = .next t ∧
        t.bind k = e ∧ (∀ j, j ≠ k → t.bind j = s.bind j) ∧ SqIs s t.qd.rings.qs k { statusDue := true } ∧ sts s t St.OK ∧
        t = { s with out := s.acks src St.OK
                     qd := { s.qd with
                       regs := t.qd.regs
                       rings := { s.qd.rings with bind := t.qd.rings.bind, qs := t.qd.rings.qs } } }) ∧
      (b.qstate ≠ 0 → ∃ t, exec (.sqLoad src v) s = .next t ∧
        let u := s.event Rg.frontEnd { cat := Cat.REFUSED, obj := Obj.BINDING, status := St.PERM
                                       arg0 := BitVec.ofNat 64 k, arg1 := v }
        sts u t St.PERM ∧ t = { u with out := u.out ++ [.regAnswer src St.PERM 0], qd := { u.qd with regs := t.qd.regs } }) ∧
      (b.qstate = 1 ∨ b.qstate = 3 → b.qmir = false → (∀ c ∈ s.qd.grid.creates, c.1 ≠ k) → ∃ t, exec (.sqUnbind src v) s = .next t ∧
        t.bind k = mkEntry b.w0 b.w1 b.w2 (fset b.w3 56 2 2) ∧ (∀ j, j ≠ k → t.bind j = s.bind j) ∧
        SqIs s t.qd.rings.qs k { x with statusDue := true } ∧ RegsKept s t [R.GRID_STS] ∧
        t = { s with out := s.acks src St.OK
                     qd := { s.qd with
                       regs := t.qd.regs
                       rings := { s.qd.rings with bind := t.qd.rings.bind, qs := t.qd.rings.qs } } })) ∧
    (b.qstate = 2 → x.descs.filter (fun d => d.stage != 0) ≠ [] → exec (.unbindProgressEvent q) s = .next (s.event Rg.frontEnd
      { cat := Cat.TIMEOUT, obj := Obj.BINDING, ctx := b.qctx, arg0 := BitVec.ofNat 64 k, arg1 := 100000 })) ∧
    (b.qstate = 2 → x.descs.filter (fun d => d.stage != 0) = [] → x.fetching = [] → x.redo = [] → b.qmir = false → s.qd.fault.takeover = false →
      ∃ bind : Tbl Entry, Tbl.at bind k = mkEntry b.w0 b.w1 b.w2 (fset b.w3 56 2 0) ∧ (∀ j, j ≠ k → Tbl.at bind j = s.bind j) ∧
        stores (.unbindComplete q) (.unit Un.STATUS k 0 0) b.qgen b.rsw 0 (word 0) {} bind) ∧
    (Tbl.wf (fun _ => default) s.qd.rings.bind = true → (∀ j, j < 4096 → ((s.bind j).complOk = false ↔ j = k)) → b.qstate = 1 →
      b.qmir = false → ∃ t, exec .sqBindingScrub s = .next t ∧ (t.bind k).qstate = 3 ∧ (t.bind k).complOk = true ∧
        (∀ j, j ≠ k → t.bind j = s.bind j ∧ t.sq j = s.sq j) ∧
        t.sq k = { x with rerr := St.COMPL, fetching := [], redo := [], descs := x.descs.filter (fun d => d.stage != 0)
                          statusDue := false } ∧ t.qd.hbm = s.qd.hbm ∧ t.sv = s.sv)

/-- The directory reads memory, snoops holders, grants, and takes lines back. For an admitted request on a
stable line: RDSH reads memory in I and S and snoops the owner in X; RDOWN in S invalidates the holders and
reads memory; RDNA reads memory in I and snoops the owner in X; UPGR by the one holder is granted at once,
with others it invalidates them; WBD by the owner writes memory; EVICT by a sharer removes it.
DIRECTORY_MEMORY_REPLY with the line grants E to the first reader. CDATA with the owner's dirty data is
granted on and written back; the SNPACK of the last sharer grants the upgrade; WBDONE ends a write-back. The
line is busy in between, and nothing else changes. (R145, R146, R148, R155, R156, R157, R158, R159, R162) -/
def Obligations.DirectoryServesRequests : Prop :=
  (∀ (v : Via) (p : Packet) (cw : Word) (m k : Nat) (s : State), DirAdmits s v p cw m k →
    let l := lineOf p
    let e := s.dent k
    let sl := dirSlice l
    let aged := { e with age := s.qd.dir.clock }
    let dir := fun (d : Tbl DirEnt) (ts : Tbl Byte) (xs : List DirTxn) => { s.qd.dir with
      ents := d, tseq := ts, txns := xs, clock := s.qd.dir.clock + 1 }
    let opens := fun (j : Instr) (kind : BitVec 4) (set : DirTxn → DirTxn) (sends : DirTxn → List Packet) =>
      (∃ n, n < 64 ∧ ∀ z ∈ s.qd.dir.txns, z.slice = sl → z.idx ≠ n) →
      ∃ (n : Nat) (d : Tbl DirEnt) (ts : Tbl Byte), n < 64 ∧ (∀ z ∈ s.qd.dir.txns, z.slice = sl → z.idx ≠ n) ∧
        EntIs s d k { aged with busy := kind } ∧
        let x := set { slice := sl, idx := n, tseq := Tbl.at s.qd.dir.tseq (64 * sl + n) + 1, line := l, kind := kind, cw := cw }
        (∀ i, Tbl.at ts i = if i = 64 * sl + n then x.tseq else Tbl.at s.qd.dir.tseq i) ∧
        exec j s = .next { s with
          free := s.free + 1, out := s.out ++ (sends x).map Out.unitSend
          qd := { s.qd with dir := dir d ts (s.qd.dir.txns ++ [x]) } }
    let answers := fun (j : Instr) (kind : Nat) (y : DirEnt) => ∃ (d : Tbl DirEnt) (q : Packet), EntIs s d k y ∧
      CohAnswers q p Opc.CACK kind 0 [] ∧ exec j s = .next { s with
        out := s.out ++ [.unitSend q], qd := { s.qd with dir := dir d s.qd.dir.tseq s.qd.dir.txns } }
    let asks := fun (x : DirTxn) => { x with req := some (v, p) }
    let reads := fun (x : DirTxn) => [memLd s x]
    let snoops := fun (x : DirTxn) => x.snoops.map (snoopPacket s x)
    (p.opc = Opc.RDSH →
      (e.hst = Hst.I → opens (.rdsh v p) 1 (fun x => { asks x with memRead := true, grant := 2 }) reads) ∧
      (e.hst = Hst.S → m ∉ e.holders → opens (.rdsh v p) 1 (fun x => { asks x with memRead := true, grant := 1 }) reads) ∧
      (e.hst = Hst.X → m ∉ e.holders → opens (.rdsh v p) 2 (fun x => { asks x with
        snpOpc := Opc.SNPSH, snpAux := if s.effMode cw then 1 else 0, snoops := [e.own.toNat], grant := 1 }) snoops)) ∧
    (p.opc = Opc.RDOWN → e.hst = Hst.S → m ∉ e.holders → opens (.rdown v p) 2 (fun x => { asks x with
      snpOpc := Opc.SNPINV, snoops := e.holders, memRead := true, grant := 3 }) (fun x => snoops x ++ reads x)) ∧
    (p.opc = Opc.RDNA →
      (e.hst = Hst.I → opens (.rdna v p) 1 (fun x => { asks x with memRead := true }) reads) ∧
      (e.hst = Hst.X → opens (.rdna v p) 2 (fun x => { asks x with snpOpc := Opc.SNPNA, snoops := [e.own.toNat] }) snoops)) ∧
    (p.opc = Opc.UPGR → e.hst = Hst.S →
      (e.holders = [m] → answers (.upgr v p) 1 { aged with hst := Hst.X, shr := 1#16 <<< m, own := BitVec.ofNat 4 m }) ∧
      (m ∈ e.holders → e.holders ≠ [m] → opens (.upgr v p) 2 (fun x => { asks x with
        snpOpc := Opc.SNPINV, snoops := e.holders.filter (fun i => i != m), grant := 3, upok := true }) snoops)) ∧
    (p.opc = Opc.WBD → e.hst = Hst.X → e.own.toNat = m → opens (.wbd v p) 3 (fun x => { x with
      wb := 1, giver := m, gone := [m], wbData := p.data, keep := bitAt (BitVec.ofNat 64 p.aux) 0 })
      (fun x => [memSta s x])) ∧
    (p.opc = Opc.EVICT → e.hst = Hst.S → m ∈ e.holders →
      (e.holders = [m] → answers (.evict v p) 0 default) ∧
      (e.holders ≠ [m] → ∃ h : BitVec 16, (∀ i, i < 16 → (h.getLsbD i = true ↔ i ∈ e.holders ∧ i ≠ m)) ∧
        answers (.evict v p) 0 { aged with shr := h, own := 0 }))) ∧
  ∀ (v : Via) (p r : Packet) (x : DirTxn) (m k o : Nat) (s : State), v.isSv = false → s.fenced = false →
    s.qd.dir.txns = [x] → s.qd.dir.cmd = none → s.dirWay x.line = some k → (s.dent k).nxv = false → x.req = some (v, p) →
    s.memberOf x.cw p.src = some m → m < 16 → s.homePlane x.line = s.qdPlane →
    let e := s.dent k
    let ends := fun (j : Instr) (y : DirEnt) (q : List Packet) => ∃ d : Tbl DirEnt, EntIs s d k y ∧
      exec j s = .next { s with out := s.out ++ q.map Out.unitSend
                                qd := { s.qd with dir := { s.qd.dir with ents := d, txns := [] } } }
    let mine := { e with hst := Hst.X, shr := 1#16 <<< m, own := BitVec.ofNat 4 m, busy := 0 }
    let answer := r.rsp = true ∧ r.complOk = true ∧ r.e2eOk = true ∧ r.status = 0 ∧ r.dst = s.qdNode ∧ x.slice < 16 ∧
      r.que.toNat = 544 + x.slice ∧ r.tag.toNat = x.idx ∧ r.tseq = x.tseq ∧ s.memberOf x.cw r.src = some o
    (∀ (sl : Fin 16) (tag : BitVec 9) (d : List Byte), e.hst = Hst.I → p.opc = Opc.RDSH → d.length = 128 →
      x = { slice := sl.val, idx := tag.toNat, tseq := x.tseq, line := x.line, kind := 1, cw := x.cw, req := some (v, p)
            memRead := true, grant := 2 } →
      ∃ q : Packet, CohAnswers q p Opc.CDATA 2 0 d ∧ ends (.directoryMemoryReply ⟨sl, tag, St.OK, d⟩) mine [q]) ∧
    (answer → r.opc = Opc.CDATA → r.aux = 3 + 8 → p.opc = Opc.RDSH →
      x = { slice := x.slice, idx := x.idx, tseq := x.tseq, line := x.line, kind := 2, cw := x.cw, req := some (v, p)
            snpOpc := Opc.SNPSH, snoops := [o], grant := 1 } →
      let y := { x with snoops := [], data := some r.data, dirty := true, wb := 1, giver := o, wbData := r.data, granted := true }
      ∃ (q : Packet) (d : Tbl DirEnt), CohAnswers q p Opc.CDATA 1 0 r.data ∧ EntIs s d k { e with busy := 3 } ∧
        exec (.cdata v r) s = .next { s with out := s.out ++ [.unitSend (memSta s y), .unitSend q]
                                             qd := { s.qd with dir := { s.qd.dir with ents := d, txns := [y] } } }) ∧
    (answer → r.opc = Opc.CACK → r.aux = 4 + 16 → p.opc = Opc.UPGR →
      x = { slice := x.slice, idx := x.idx, tseq := x.tseq, line := x.line, kind := 2, cw := x.cw, req := some (v, p)
            snpOpc := Opc.SNPINV, snoops := [o], grant := 3, upok := true } →
      ∃ q : Packet, CohAnswers q p Opc.CACK 1 0 [] ∧ ends (.cack v r) mine [q]) ∧
    (answer → r.opc = Opc.CACK → r.aux = 3 → x.wb = 2 → x.giver = o → x.granted = false → x.failed = false → x.after = false →
      x.snoops ≠ [] → ∃ d : Tbl DirEnt, EntIs s d k { e with busy := x.kind } ∧ exec (.cack v r) s =
        .next { s with qd := { s.qd with dir := { s.qd.dir with ents := d, txns := [{ x with wb := 0 }] } } })

/-- Hamlets, coherent windows, mode commands, and what the directory does of itself. HAM_CFG_WRITE of a member
word of a hamlet that is not valid writes it, of one that is valid it is dropped. COH_WIN_WRITE writes an
entry that is not valid, and drops a write to a valid one. SET_MODE, SET_MODE_SWEEP and REMOVE_WINDOW of a
valid window with no entry left to act on start, the first two with the window's new mode; COH_CMD_DONE ends
the command, REMOVE_WINDOW's by making the window invalid. RESERVATION_EXPIRE ends a reservation.
COHERENCE_TIMEOUT resends the snoops of a transaction. CENSUS_TIMEOUT passes over a silent member with an
event. WAY11_MIGRATE moves an entry of way 11 to a free way. DIRECTORY_SCRUB notes a corrected entry.
Nothing else changes. (R137, R138, R144, R162, R163, R164, R165, R170, R484) -/
def Obligations.DirectorySetUpAndUpkeep : Prop :=
  ∀ (s : State),
    let answered := fun (i : Instr) (src : RegSrc) (offs : List Nat) (P : State → Prop) => ∃ t, exec i s = .next t ∧
      t = { s with out := s.acks src St.OK, qd := { s.qd with regs := t.qd.regs, dir := t.qd.dir } } ∧
      RegsKept s t offs ∧ P t
    let dropped := fun (i : Instr) (src : RegSrc) (off : Nat) (v : Word) => exec i s =
      let u := s.refused (Rg.dir 0) off v
      .next { u with out := u.out ++ [.regAnswer src St.PERM 0] }
    (∀ (src : RegSrc) (h : Fin 9) (v : Word),
      (s.flag (F.HAM_CFG_W2_VALID h.val) = false → answered (.hamCfgWrite src h 0 v) src [R.HAM_CFG_W0 h.val]
        (fun t => t.rg (R.HAM_CFG_W0 h.val) = v ∧ t.qd.dir = s.qd.dir)) ∧
      (s.flag (F.HAM_CFG_W2_VALID h.val) = true → dropped (.hamCfgWrite src h 0 v) src (R.HAM_CFG_W0 h.val) v)) ∧
    (∀ (src : RegSrc) (i : Fin 256) (v : Word),
      (Cw.valid (s.rg (R.COH_WIN i.val)) = false → answered (.cohWinWrite src i v) src [R.COH_WIN i.val]
        (fun t => t.rg (R.COH_WIN i.val) = BitVec.ofNat 64 (v.toNat % 2 ^ 51) ∧ t.qd.dir = s.qd.dir)) ∧
      (Cw.valid (s.rg (R.COH_WIN i.val)) = true → dropped (.cohWinWrite src i v) src (R.COH_WIN i.val) v)) ∧
    (∀ (src : RegSrc) (v : Word), s.flag F.COH_CMD_STS_BUSY = false → s.qd.dir.ents = [] →
      let i := v.toNat % 256
      Cw.valid (s.rg (R.COH_WIN i)) = true →
      let starts := fun (j : Instr) (op : Nat) => answered j src [R.COH_CMD_STS, R.COH_WIN i] (fun t =>
        t.qd.dir = { s.qd.dir with cmd := some (i, op, bitAt v 10) } ∧ t.fl F.COH_CMD_STS_BUSY = 1 ∧
        t.fl F.COH_CMD_STS_STATUS = 0 ∧ t.fl F.COH_CMD_STS_COUNT = 0 ∧
        ∀ b, b < 64 → bitAt (t.rg (R.COH_WIN i)) b =
          if b = 18 ∧ op ≠ 2 then bitAt v 10 else bitAt (s.rg (R.COH_WIN i)) b)
      starts (.setMode src v) 0 ∧ starts (.setModeSweep src v) 1 ∧ starts (.removeWindow src v) 2) ∧
    (∀ (i op : Nat) (mode : Bool), s.qd.dir.cmd = some (i, op, mode) → s.cmdLeft i op = [] → i < 256 →
      ∃ t, exec .cohCmdDone s = .next t ∧ t = { s with qd := { s.qd with
          regs := t.qd.regs, dir := { s.qd.dir with cmd := none } } } ∧
        RegsKept s t [R.COH_CMD_STS, R.COH_WIN i] ∧ t.fl F.COH_CMD_STS_BUSY = 0 ∧
        ∀ b, b < 64 → bitAt (t.rg (R.COH_WIN i)) b = if b = 19 ∧ op = 2 then false else bitAt (s.rg (R.COH_WIN i)) b) ∧
    (∀ (l : BitVec 57) (k : Nat), l ∈ s.qd.dir.reserved → s.txnOf l = none → s.dirWay l = some k → (s.dent k).hst ≠ Hst.I →
      ∃ d : Tbl DirEnt, EntIs s d k { s.dent k with nxv := false, nxt := 0 } ∧ exec (.reservationExpire l) s =
        .next { s with qd := { s.qd with dir := { s.qd.dir with
          ents := d, reserved := s.qd.dir.reserved.filter (fun x => decide (x ≠ l)) } } }) ∧
    (∀ (x : DirTxn) (k : Nat) (que : BitVec 10) (tag : BitVec 9), s.fenced = false → s.qd.dir.txns = [x] → que.toNat = 544 + x.slice →
      tag.toNat = x.idx → x.snoops ≠ [] → x.wb = 0 → x.resends < s.fl F.QD_TXN_TMO_RTY_MAX → s.dirWay x.line = some k →
      ∃ d : Tbl DirEnt, EntIs s d k { s.dent k with busy := x.busyKind } ∧ exec (.coherenceTimeout .qd que tag) s = .next { s with
        out := s.out ++ (x.snoops ++ x.acks).map (fun r => .unitSend (snoopPacket s x r).resent)
        qd := { s.qd with dir := { s.qd.dir with ents := d, txns := [{ x with resends := x.resends + 1 }] } } }) ∧
    (∀ (c : Census) (slot : Fin 144) (w : Nat), s.qd.dir.census = some c → slot.val ∈ c.waiting → w ∈ c.waiting → w ≠ slot.val →
      let u := s.event (Rg.dir 0) { cat := Cat.TIMEOUT, obj := Obj.EP, arg0 := BitVec.ofNat 64 slot.val
                                    arg1 := BitVec.ofNat 64 (s.fl F.DIR_CTL_CEN_TMO * 1000) }
      exec (.censusTimeout slot) s = .next { u with qd := { u.qd with dir := { u.qd.dir with census := some { c with
        waiting := c.waiting.filter (fun x => x != slot.val)
        reports := c.reports.filter (fun x => x.1 != slot.val) } } } }) ∧
    (∀ (k : Nat) (e : DirEnt), s.flag F.DIR_CTL_RWMIG = true → s.qd.dir.late = [] → s.qd.dir.ents = [(12 * k + 11, e)] →
      e.valid = true → ∃ d : Tbl DirEnt, (∀ j, Tbl.at d j = if j = 12 * k then e else default) ∧
        exec .way11Migrate s = .next { s with qd := { s.qd with dir := { s.qd.dir with ents := d } } }) ∧
    ∀ (f : EccFinding), f.correctable = true → f.addr / 16 / (12 * 8192) < 16 → exec (.directoryScrub f) s = .next
      ((s.event (Rg.dir (f.addr / 16 / (12 * 8192)))
        { cat := Cat.INTEGRITY, obj := Obj.DIRENT, arg0 := BitVec.ofNat 64 f.addr, arg1 := f.found }).score 6
          (f.addr / 16 / (12 * 8192)) 1)

/-- The coherence agent of a Svapo block: accesses, replacement, grants, snoops, census and relayed reads. With
no access waiting: AGENT_LOAD of a line held in E completes with its bytes; AGENT_STORE to one held in M
completes and changes them. AGENT_REPLACE of the oldest line of a full set sends EVICT for S and WBD for M.
CDATA in IS makes the line S, the upgrade's CACK makes it M. SNPSH takes M to WS with the data, SNPINV takes
S to I, SNPNA leaves M; a line not held is answered in I. CNACK marks the request, AGENT_NACK_RESEND sends
it again, so does COHERENCE_TIMEOUT. SNPCEN reports the lines held. RELAYED_RDNA goes on to the home plane
on QUE 33, beyond 64 it is refused. Nothing else changes. (R151, R152, R153, R165, R169, R382, R383, R385) -/
def Obligations.TheCoherenceAgent : Prop :=
  ∀ (s : State), s.sv.inReset = false → s.sv.ca = true → s.sv.accs = [] → s.sv.flushing = false →
    let lines := fun (u : State) (ls : Tbl AgLine) => { u with sv := { u.sv with lines := ls } }
    (∀ (q : Fin 32) (tag : BitVec 9) (o : OutReq) (r : Rqo) (fa : Word) (l : BitVec 57), s.sv.srcs.reqs = [o] →
      o.que = q.val → o.tag = tag.toNat → o.purpose = .access r fa → accLines r fa = [l] → (accKey s r).2 = 0 →
      (s.eq q.val).waits = [] → (s.eq q.val).fence = none →
      let x := s.agLine l
      let off := fa.toNat % 128
      let n := r.len.toNat
      x.data.length = 128 → off + n ≤ 128 →
      let done := fun (j : Instr) (y : AgLine) (d : List Byte) => ∃ (ls : Tbl AgLine) (qs : Tbl EngQ), LineIs s ls l y ∧
        exec j s = .next { s with
          out := s.out ++ [.rsoDone (r.qid.val % s.sv.nberth) r.id r.qid.val St.OK 0 d]
          sv := { s.sv with lines := ls, agClock := s.sv.agClock + 1, qs := qs, srcs := { s.sv.srcs with reqs := [] } } }
      (r.opc.toNat = Opc.LD → x.st = .e → done (.agentLoad q tag) { x with age := s.sv.agClock + 1 }
        ((x.data.drop off).take n)) ∧
      (r.opc.toNat = Opc.STA → x.st = .m → r.data.length = n → done (.agentStore q tag)
        { x with st := .m, age := s.sv.agClock + 1, data := x.data.take off ++ r.data ++ x.data.drop (off + n) } [])) ∧
    (∀ (l : BitVec 57) (u : State), (s.agInSet (agSet l)).length = 16 →
      (∀ y ∈ s.agInSet (agSet l), y.2.st.stable = true → (s.agLine l).age ≤ y.2.age) →
      ((s.agLine l).st = .s → agSend l (s.agLine l) Opc.EVICT 0 s = some u → ∃ ls, LineIs s ls l { s.agLine l with st := .ci } ∧
        exec (.agentReplace l) s = .next (lines u ls)) ∧
      ((s.agLine l).st = .m → agSend l (s.agLine l) Opc.WBD 0 s = some u → ∃ ls, LineIs s ls l { s.agLine l with st := .wi } ∧
        exec (.agentReplace l) s = .next (lines u ls))) ∧
    (∀ (n : Fin 18) (o : OutReq) (l : BitVec 57) (p : Packet), s.sv.srcs.reqs = [o] → o.purpose = .agent l → p.rsp = true →
      p.complOk = true → p.e2eOk = true → p.status = 0 → p.dst = s.svNode → p.que.toNat = o.que → p.tag.toNat = o.tag →
      p.tseq = o.tseq → o.que < 544 →
      let x := s.agLine l
      let takes := fun (j : Instr) (y : AgLine) => ∃ ls, LineIs s ls l y ∧ exec j s = .next { s with
        sv := { s.sv with lines := ls, srcs := { s.sv.srcs with reqs := [] } } }
      (p.opc = Opc.CDATA → p.aux = 1 → x.st = .is → takes (.cdata (.plane n) p) { x with st := .s, data := p.data }) ∧
      (p.opc = Opc.CACK → p.aux = 1 → x.st = .sm → takes (.cack (.plane n) p) { x with st := .m }) ∧
      (p.opc = Opc.CNACK → exec (.cnack n p) s = .next { s with sv := { s.sv with srcs := { s.sv.srcs with
        reqs := [{ o with parts := o.parts.map (fun c => { c with answered := true }) }] } } })) ∧
    (∀ (o : OutReq) (c : Part) (k : Packet) (l : BitVec 57), s.sv.srcs.reqs = [o] → o.purpose = .agent l → o.parts = [c] →
      c.pkts = [k] → k.opc ≠ Opc.WBD →
      let again := fun (j : Instr) (d : Part) (pl : Nat) (w : Packet) => exec j s = .next (svTx pl w { s with
        sv := { s.sv with srcs := { s.sv.srcs with reqs := [{ o with parts := [d] }] } } })
      (c.answered = true → let pl := s.homeMap (homeIdx (lineAddr l))
        let w := (agPacket s l (s.agLine l) ((s.agLine l).st.resendOpc k.opc) o.tag o.tseq k.aux).resent
        again (.agentNackResend l) { c with answered := false, plane := pl, pkts := [w] } pl w) ∧
      (c.answered = false → s.svPortUp c.plane = true → c.rty < fget (s.sr SR.SV_TXN_TMO) 16 3 → ∀ (que : BitVec 10) (tag : BitVec 9),
        que.toNat = o.que → tag.toNat = o.tag → again (.coherenceTimeout .sv que tag)
          { c with rty := c.rty + 1, pkts := [k.resent] } c.plane k.resent)) ∧
    (∀ (n : Fin 18) (p : Packet), p.rsp = false → rxForm [p] = none → p.dst = s.svNode → p.rty = false →
      let back := fun (j : Instr) (q : Packet) (u : State) => exec j s = .next (svTx n.val q u)
      (∀ (l : BitVec 57) (x : AgLine), s.sv.lines = [(l.toNat, x)] → x.data.length = 128 → faWoff (lineAddr l) = p.woff →
        s.homeMap (homeIdx (lineAddr l)) = n.val → p.que.toNat = 544 + dirSlice l → x.ctx = p.ctx → x.gen = p.gen →
        let moves := fun (j : Instr) (y : AgLine) (q : Packet) => ∃ ls, LineIs s ls l y ∧ back j q (lines s ls)
        (p.opc = Opc.SNPSH → p.aux = 0 → x.st = .m → ∃ q, CohAnswers q p Opc.CDATA (3 + 8) 0 x.data ∧
          moves (.snpsh n p) { x with st := .ws } q) ∧
        (p.opc = Opc.SNPINV → x.st = .s → ∃ q, CohAnswers q p Opc.CACK (4 + 16) 0 [] ∧ moves (.snpinv n p) default q) ∧
        (p.opc = Opc.SNPNA → x.st = .m → ∃ q, CohAnswers q p Opc.CDATA (3 + 8) 0 x.data ∧ moves (.snpna n p) x q)) ∧
      (∀ (l : BitVec 57) (x : AgLine), s.sv.lines = [(l.toNat, x)] → p.opc = Opc.SNPCEN → x.st = .m →
        s.homeMap (homeIdx (lineAddr l)) = n.val → (BitVec.ofNat 144 (natOf p.data)).getLsbD (homeIdx (lineAddr l)) = true →
        ∃ q, CohAnswers q p Opc.CACK (5 + 128) 0 (bytesOf 8 (l.toNat + 3 * 2 ^ 57)) ∧ back (.snpcen n p) q s) ∧
      (p.opc = Opc.SNPINV → s.sv.lines = [] → ∃ q, CohAnswers q p Opc.CACK 4 0 [] ∧ back (.snpinv n p) q s) ∧
      (p.opc = Opc.RDNA → p.aux = 1 → let others := s.sv.srcs.reqs.filter (fun o => o.que == 33)
        (64 ≤ others.length → ∃ q, CohAnswers q p Opc.CNACK 1 0 [] ∧ back (.relayedRdna n p) q s) ∧
        (others.length < 64 → ∃ (k : Packet) (tag : Nat) (ts : Tbl Byte) (f : Nat),
          k.dst = p.dst ∧ k.woff = p.woff ∧ k.opc = Opc.RDNA ∧ k.aux = 0 ∧ k.rsp = false ∧ k.que = 33 ∧ k.tag.toNat = tag ∧
          k.src = s.svNode ∧ tag < 512 ∧ (∀ o ∈ others, o.tag ≠ tag) ∧ k.complOk = true ∧ k.e2eOk = true ∧
          let pl := s.homeMap (homeIdx p.fabric)
          exec (.relayedRdna n p) s = .next (svTx pl k { s with
            free := f
            sv := { s.sv with srcs := { s.sv.srcs with
              tseq := ts
              reqs := s.sv.srcs.reqs ++ [{ que := 33, tag := tag, tseq := k.tseq, parts := [{ pkts := [k], plane := pl }]
                                           purpose := .relay n.val p }] } } }))))

/-- Collectives enter the table, start, take their chunks, and end by abort or timeout. With no entry in the
table, each of REDUCE, ALLRED, RSCAT, AGATH, BCAST, SHIFT, PERM, DISP and COMB of one rack without a key
opens entry 0 with its member; SEED replaces its context's seed. COLLECTIVE_START of the one entry, all its
members there, makes it run with no chunk whole. GREEN_CHUNK of a sum with its inputs in order takes the
chunk and finishes the exact sum of them. RING_DIGEST before its entry is kept, one that matches is noted;
RING_CHUNK keeps a partial that comes before the own sum. COLLECTIVE_ARRIVAL_TIMEOUT and COLLECTIVE_ABORT
end the members' descriptors with ERR_ABORT, the node and the cause, with an event. Nothing else changes.
(R213, R230, R239, R240, R242, R243, R247, R248, R255, R256, R258) -/
def Obligations.CollectivesOfTheGreen : Prop :=
  ∀ (s : State),
    let green := fun (u : State) (cs : List Coll) => { u with qd := { u.qd with green := { u.qd.green with colls := cs } } }
    (∀ (q : Fin 4096) (d : Desc) (rest : List Desc) (opc : Nat), Started s q.val d rest Ty.GREEN opc →
      let k := q.val
      let ctx := (s.bind k).qctx
      (s.qd.green.colls = [] → Gd.kslot d.words = 0 → Gd.nrack d.words < 2 → ∀ i : Instr,
        (i, opc) ∈ [(.reduce q d.ridx, 0x10), (.allred q d.ridx, 0x11), (.rscat q d.ridx, 0x12), (.agath q d.ridx, 0x13),
          (.bcast q d.ridx, 0x14), (.shift q d.ridx, 0x20), (.perm q d.ridx, 0x21), (.disp q d.ridx, 0x30),
          (Instr.comb q d.ridx, 0x31)] →
        ∃ qs, SqIs s qs k (s.headIs k { d with stage := 3 } rest) ∧ exec i s = .next { s with qd := { s.qd with
          rings := { s.qd.rings with qs := qs }
          green := { s.qd.green with
            no := s.qd.green.no + 1
            colls := [{ no := s.qd.green.no, idx := 0, plane := s.qdPlane, ctx := ctx, coll := Gd.coll d.words, words := d.words
                        seed := d.aux.headD 0, opened := s.stamp
                        mems := [{ slot := nodeSlot (s.bind k).owner, key := k, ridx := d.ridx }] }] } } }) ∧
      (opc = 0x01 → d.w 6 = ~~~ (d.w 5) → (∃ x ∈ s.qd.green.seeds, x.1 = ctx) → s.mirroring = false →
        ∃ (qs : Tbl SQ) (v : Word), SqIs s qs k (s.headIs k { d with stage := 4, status := St.OK, result := v } rest) ∧
          exec (.seed q d.ridx) s = .next { s with
            free := s.free + 1
            qd := { s.qd with
              rings := { s.qd.rings with qs := qs }
              green := { s.qd.green with
                seeds := s.qd.green.seeds.filter (fun x => decide (x.1 ≠ ctx)) ++ [(ctx, d.w 5)] } } })) ∧
    (∀ (c : Coll) (m : CollMem) (d : Desc) (rest : List Desc), s.qd.green.colls = [c] → c.ended = false → c.mems = [m] →
      (s.sq m.key).descs = d :: rest → (∀ y ∈ rest, y.ridx ≠ d.ridx) → m.ridx = d.ridx → d.stage = 3 →
      let u := fun (node cause : Nat) => s.event Rg.green { cat := Cat.FAULT, obj := Obj.COLL, status := St.ABORT, arg0 := BitVec.ofNat 64 c.coll.toNat, arg1 := BitVec.ofNat 64 (node + cause * 2 ^ 14) }
      let aborts := fun (i : Instr) (node cause : Nat) => ∃ qs, SqIs s qs m.key (s.headIs m.key { d with
          stage := 4, status := St.ABORT, result := BitVec.ofNat 64 (node + cause * 2 ^ 14) } rest) ∧
        exec i s = let u := u node cause
          .next { u with qd := { u.qd with
            rings := { u.qd.rings with qs := qs }
            green := { u.qd.green with colls := [{ c with ended := true, running := false }] } } }
      (Gd.nrack c.words < 2 → (c.running = false → aborts (.collectiveArrivalTimeout c.ctx c.coll) 0 2) ∧
        ∀ (node : BitVec 14) (cause : BitVec 2), aborts (.collectiveAbort c.ctx c.coll node cause) node.toNat cause.toNat) ∧
      (c.running = false → Gd.nmem c.words = 1 → Gd.nrack c.words < 2 → Gd.opts c.words = false → collShare s c ≠ [] →
        s.flag F.TR_CTL_GT_EN = false → s.qd.green.mcounts = [] → s.qd.green.hcounts = [] →
        ∃ qs, SqIs s qs m.key (s.headIs m.key { d with goal := (collShare s c).length } rest) ∧
          exec (.collectiveStart c.ctx c.coll) s = .next (green { s with qd := { s.qd with rings := { s.qd.rings with qs := qs } } }
            [{ c with running := true, nch := collChunks s c, taken := [], mems := [{ m with whole := [] }] }])) ∧
      (∀ (n : Nat) (x : GreenIn) (ins : List GreenMember), c.running = true → n ∈ collShare s c → n ∉ c.taken →
        s.qd.boot.pwr = 0 → Gd.expert c.words = false → Gd.sums c.words = true → Gd.nrack c.words < 2 →
        s.flag F.GR_CTL_SENT_EN = false → s.replaying = false → s.lgTakes c.ctx = false →
        chunkSources c.words (ringPos s c.words * Gd.nmem c.words) n = List.range ins.length → ins ≠ [] → x.members = ins →
        (∀ (j : Nat) (y : GreenMember), ins[j]? = some y → y.member = j) → Gd.chka d.words = 0 → Gd.chka c.words = 0 →
        (∀ y ∈ ins, y.status = St.OK) → (Gd.actl c.words).ifmt ≠ 13 → (Gd.actl c.words).ifmt ≠ 14 →
        let r := chunkRange c.words n
        exec (.greenChunk c.ctx c.coll n x) s = .next (finishSum c.no n (sumInputs (Gd.actl c.words).ifmt (r.2 - r.1) ins)
          (icrcOf x) (green s [{ c with taken := c.taken ++ [n] }]))) ∧
      (∀ fromPrev : Bool, exec (.ringDigest c.ctx c.coll fromPrev (collDigest c.words)) s = .next (green s
        [if fromPrev then { c with dPrev := true } else { c with dNext := true }])) ∧
      ∀ (n : Nat) (b : List Byte), c.running = true → 2 ≤ Gd.nrack c.words → n % 18 = c.plane → n < Gd.chunks c.words →
        (∀ y ∈ c.sums, y.1 ≠ n) → exec (.ringChunk c.ctx c.coll n false b) s = .next (green s
          [{ c with parts := c.parts.filter (fun y => y.1 != n) ++ [(n, b)] }])) ∧
    ∀ (ctx : BitVec 16) (coll : BitVec 32) (fromPrev : Bool) (g : BitVec 128), s.qd.green.colls = [] →
      exec (.ringDigest ctx coll fromPrev g) s = .next { s with qd := { s.qd with green := { s.qd.green with
        early := s.qd.green.early ++ [(ctx, coll, fromPrev, g)] } } }

/-- The six kinds of DMA descriptor start from the command queue and complete into their counter. The oldest
descriptor of a mill's command queue, of a kind and passing the checks, with no FENCE or acquire in front,
starts when the engine is asked to: it leaves the queue and stands started. DMA_READ and DMA_WRITE send the
tile requests of their fabric side, after declaring the stream when STRM is 1; RELST, with nothing
outstanding, an STA with release; ACQLD a load with acquire; a coherent window is read line by line;
DMA_PEAK follows. COPY writes its rows in the grid, and a single row between own scratch offsets changes no
other byte. DMA_FENCE sends nothing. DMA_DESCRIPTOR_COMPLETE of a descriptor that is over raises COUNT,
keeps the first error in STATUS, and logs USER and WOFF of an error. Nothing else changes. (R34, R123, R125,
R126, R279, R280, R281, R283) -/
def Obligations.DmaDescriptorsStartAndComplete : Prop :=
  ∀ (m : Fin 256) (a : Nat) (s : State),
    let x := s.mill m.val
    s.allotOf m.val = some a →
    (∀ (w : List Word) (rest : List (List Word)) (g : List Target × List Target),
      x.dmaq = w :: rest → x.dmaHolds = false → s.fenced = false → descStatus s a m.val w = St.OK →
      descTargets s a m.val w = some g →
      let begun := fun (n : Nat) (d : List Byte) => ({ x with
        dmaq := rest, dmaNo := x.dmaNo + 1
        dmas := x.dmas ++ [{ id := x.dmaNo, words := w, waits := n, data := d }] } : Mill)
      let hdr := fun (opc ord : Nat) => ({
        dst := faNode (Td.fa w), ctx := BitVec.ofNat 16 (s.fl (F.ALLOT_STS_W0_CTX a)), opc := opc
        kslot := if Td.prot w then BitVec.ofNat 6 (s.fl (F.ALLOT_STS_W0_KSLOT a)) else 0, src := s.qdNode
        cls := Td.cls w, gen := Td.gen w, que := m.val, ord := ord, woff := (faWoff (Td.fa w)).toNat } : Hdr)
      let others := s.qd.node.streams.filter (fun y => y.id != m.val)
      let declared : Stream := {
        id := m.val, win := faWin (Td.fa w), base := (Td.geom w).base, rowLen := (Td.geom w).rowLen
        rows := (Td.geom w).rows, stride := (Td.geom w).stride, step := Td.step w
        prefetch := decide ((others.filter (fun y => y.prefetch)).length < 1024) }
      let streams := if Td.strm w = false then s.qd.node.streams
        else if faNode (Td.fa w) = s.qdNode then others ++ [declared] else others
      let stream : State := { s with qd := { s.qd with node := { s.qd.node with streams := streams } } }
      let sends := fun (i : Instr) (u : State) (d : List Byte) (parts : List (List Packet)) => ∃ b t : State,
        MillIs u b m.val (begun 1 d) ∧ exec i s = .next t ∧
        let r := unitReq { que := m.val, purpose := .unit Un.DMA m.val x.dmaNo 0, parts := parts } b
        MillIs r t m.val { begun 1 d with dmaPeak := BitVec.ofNat 16 (max x.dmaPeak.toNat (r.dmaOut m.val)) }
      let fa := Td.fa w
      (Td.kind w = Td.READ → sends (.dmaRead m) stream [] (if s.cohWin fa = none then tileParts (hdr Opc.TRD 0) (Td.geom w) []
        else readParts s (hdr Opc.TRD 0) fa (some (Td.geom w)) 0)) ∧
      (Td.kind w = Td.WRITE → let d := g.1.flatMap (fun t => s.gridRead t (Td.rowLen w))
        sends (.dmaWrite m) stream d (tileParts (hdr Opc.TWR 0) (Td.geom w) (descCrypt s a false w d))) ∧
      (Td.kind w = Td.RELST → s.unitOut m.val = [] → (∀ y ∈ s.qd.srcs.waits, y.que ≠ m.val) →
        let d := g.1.flatMap (fun t => s.gridRead t 8)
        sends (.relst m) s [] [[Hdr.packet { hdr Opc.STA 2 with len := 8 } none none (descCrypt s a false w d)]]) ∧
      (Td.kind w = Td.ACQLD → sends (.acqld m) s [] (if s.cohWin fa = none then
        [[Hdr.packet { hdr Opc.LD 1 with len := 8 } none none []]] else readParts s (hdr Opc.LD 1) fa none 8)) ∧
      (Td.kind w = Td.COPY → ∃ b, MillIs s b m.val (begun 0 []) ∧ exec (.copy m) s =
        .next (writeRows g.2 (Td.rowLen w) (g.1.flatMap (fun t => s.gridRead t (Td.rowLen w))) b)) ∧
      (Td.kind w = Td.FENCE → ∃ t, exec (.dmaFence m) s = .next t ∧ MillIs s t m.val (begun 0 [])) ∧
      (∀ o1 o2, Td.kind w = Td.COPY → g = ([.scratch m.val o1], [.scratch m.val o2]) → x.tmma = [] →
        let d := s.scratch m.val o1 (Td.rowLen w)
        ∃ t, exec (.copy m) s = .next t ∧ OnlyMillScratch s t m.val ∧ t.mill m.val = begun 0 [] ∧
          (∀ k, k < d.length → Tbl.at t.qd.grid.scratch (m.val * 2 ^ 21 + o2 + k) = d.getD k 0) ∧
          ∀ k, (k < m.val * 2 ^ 21 + o2 ∨ m.val * 2 ^ 21 + o2 + d.length ≤ k) →
            Tbl.at t.qd.grid.scratch k = Tbl.at s.qd.grid.scratch k)) ∧
    ∀ (r : DmaRun) (l l' : List DmaRun), x.dmas = l ++ [r] ++ l' → (∀ y ∈ l ++ l', y.id ≠ r.id) → r.waits = 0 →
      (r.st = 0 → Td.kind r.words = Td.FENCE → s.unitOut m.val = [] ∧ (∀ y ∈ s.qd.srcs.waits, y.que ≠ m.val) ∧
        ∀ y ∈ l ++ l', y.id < r.id → y.waits = 0) →
      (r.st = 0 → Td.kind r.words = Td.WRITE → s.flag F.CLK_ENABLE_TWATCH = false) → x.wait = .none →
      let k := x.counter (Td.cnt r.words)
      ∃ (t : State) (cnt : Tbl (BitVec 32 × BitVec 7)), exec (.dmaDescriptorComplete m r.id) s = .next t ∧
        (∀ j, Tbl.at cnt j = if j = Td.cnt r.words then (k.1 + 1, if k.2 = 0 then r.st else k.2) else x.counter j) ∧
        MillIs s t m.val { x with
          cnt := cnt, dmas := l ++ l'
          errs := if r.st = 0 then x.errs else
            (if 16 ≤ x.errs.length then x.errs.tail else x.errs) ++ [(r.st, Td.user r.words, r.woff)] }

/-- Allotments are created, placed, loaded, started, ended, halted and freed by their descriptors and events.
CREATE that can be met joins the waiting requests; ALLOT_PLACE gives the oldest its place, in state 1, and
completes it with the index; CREATE_WAIT_TIMEOUT ends it with ERR_ABSENT. ALLOT_LOAD of a good image writes
it to every mill, the rest zero, and sets text section and measurement; ALLOT_LOAD_DONE completes it in
state 2. ALLOT_START starts every mill at ENTRY with its three registers, in state 3; ALLOT_RUN_END with
every mill ended returns to state 2 and completes START with OK. ALLOT_HALT and FREE of an idle allotment
are taken and ALLOT_HALT_DONE and ALLOT_FREE_DONE complete them; freeing zeroes scratch, share and status.
With the journal off; nothing else changes. (R285, R286, R287, R288, R289, R323, R326, R329) -/
def Obligations.AllotmentsAreMadeAndRun : Prop :=
  ∀ (s : State),
    s.flag F.LG_CTL_EN = false → s.replaying = false → s.qd.trace.ledger.expect = [] →
    let kept := fun (t : State) (l : List Nat) => t = { s with
        free := t.free
        qd := { s.qd with regs := t.qd.regs, grid := t.qd.grid, rings := { s.qd.rings with qs := t.qd.rings.qs }
                          boot := { s.qd.boot with gp := t.qd.boot.gp } } } ∧ RegsKept s t l
    (∀ (q : Fin 4096) (d : Desc) (rest : List Desc) (opc : Nat), Started s q.val d rest Ty.ALLOT opc → d.inherited = false →
      let k := q.val
      let a := Al.idx d
      let taken := fun (t : State) => SqIs s t.qd.rings.qs k (s.headIs k { d with stage := 3 } rest) ∧ t.free = s.free
      (opc = 1 → createStatus s k d = St.OK → (Al.wait d = 0 → s.qd.grid.creates = [] ∧
          (findPlace s false (Al.wm d) (Al.hm d) (Al.csize d)).isSome) →
        ∃ t, exec (.create q d.ridx) s = .next t ∧ kept t [R.GRID_STS] ∧ taken t ∧
          t.qd.grid = { s.qd.grid with creates := s.qd.grid.creates ++ [(k, d.ridx)] } ∧ t.qd.boot = s.qd.boot ∧
          t.fl F.GRID_STS_PEND = (s.qd.grid.creates.length + 1) % 2 ^ 7) ∧
      (s.alState a ≠ 0 → s.alState a ≠ 5 → s.fl (F.ALLOT_STS_W0_CTX a) = ((s.bind k).qctx).toNat →
        (s.allot a).load = none →
        (∀ x : InData, let b := slice x.data 0 d.len
          opc = 2 → s.alState a ≤ 2 → d.len ≤ 2 ^ 21 → bitAt (d.w 6) 8 = false → x.status = St.OK →
          imageOk s.qd.variant b d.len = true → ∃ t, exec (.allotLoad q d.ridx x) s = .next t ∧
            kept t [R.ALLOT_STS_W0 a] ∧ taken t ∧ t.qd.boot = s.qd.boot ∧ t.alState a = 1 ∧
            t.qd.grid = { s.qd.grid with scratch := t.qd.grid.scratch, allots := t.qd.grid.allots } ∧
            AllotIs s t.qd.grid.allots a { s.allot a with
              textOff := natOf (slice b 12 4), textLen := natOf (slice b 16 4), meas := Config.sha3 b
              load := some (k, d.ridx) } ∧
            ∀ m i, i < 2 ^ 21 → Tbl.at t.qd.grid.scratch (m * 2 ^ 21 + i) =
              if m ∈ s.millsOf a then b.getD i 0 else Tbl.at s.qd.grid.scratch (m * 2 ^ 21 + i)) ∧
        (opc = 3 → s.alState a = 2 → s.inText a (fget (d.w 6) 0 21) = true → ∃ t,
          exec (.allotStart q d.ridx) s = .next t ∧ kept t [R.ALLOT_STS_W0 a, R.ALLOT_STS_W1 a] ∧ taken t ∧
          t.qd.boot = { s.qd.boot with gp := false } ∧ t.alState a = 3 ∧ t.fl (F.ALLOT_STS_W1_FAULTS a) = 0 ∧
          t.qd.grid = { s.qd.grid with mills := t.qd.grid.mills, allots := t.qd.grid.allots } ∧
          AllotIs s t.qd.grid.allots a { s.allot a with
            start := some (k, d.ridx), firstSt := 0, arrived := [], broken := false } ∧
          (∀ m, m ∉ s.millsOf a → t.mill m = s.mill m) ∧
          ∀ m ∈ s.millsOf a, (t.mill m).run = .running ∧ (t.mill m).pc.toNat = fget (d.w 6) 0 21 ∧
            (t.mill m).arg = d.w 5 ∧ (t.mill m).sr 1 = d.w 5 ∧ (t.mill m).sr 3 = BitVec.ofNat 64 (s.millsOf a).length ∧
            (t.mill m).sr 2 = BitVec.ofNat 64 ((m / 16 - s.fl (F.ALLOT_STS_W0_Y0 a)) *
              (s.fl (F.ALLOT_STS_W0_WM1 a) + 1) + (m % 16 - s.fl (F.ALLOT_STS_W0_X0 a))) ∧
            (∀ r, 3 < r → (t.mill m).sr r = 0) ∧ (t.mill m).wait = .none ∧ (t.mill m).retired = 0) ∧
        (opc = 4 → s.alState a ≤ 2 → (s.allot a).halt = none → ∃ t, exec (.allotHalt q d.ridx) s = .next t ∧
          kept t [] ∧ taken t ∧ t.qd.boot = s.qd.boot ∧ t.qd.grid = { s.qd.grid with allots := t.qd.grid.allots } ∧
          AllotIs s t.qd.grid.allots a { s.allot a with halt := some (k, d.ridx) }) ∧
        (opc = 5 → (∀ m ∈ s.millsOf a, (s.mill m).run ≠ .running) → ∃ t, exec (.free q d.ridx) s = .next t ∧
          kept t [R.ALLOT_STS_W0 a] ∧ taken t ∧ t.qd.boot = s.qd.boot ∧ t.alState a = 5 ∧
          t.qd.grid = { s.qd.grid with allots := t.qd.grid.allots } ∧
          AllotIs s t.qd.grid.allots a { s.allot a with free := some (k, d.ridx) }))) ∧
    (∀ (k : Nat) (d : Desc) (rest : List Desc), (s.sq k).descs = d :: rest → (∀ y ∈ rest, y.ridx ≠ d.ridx) → d.stage = 3 →
      let ended := fun (t : State) (st : BitVec 7) (v : Word) =>
        SqIs s t.qd.rings.qs k (s.headIs k { d with stage := 4, status := st, result := v } rest)
      (∀ l, s.qd.grid.creates = (k, d.ridx) :: l →
        (∀ a c r b, findPlace s false (Al.wm d) (Al.hm d) (Al.csize d) = some (a, c, r, b) → ∃ t,
          exec .allotPlace s = .next t ∧ kept t [R.GRID_STS, R.ALLOT_STS_W0 a, R.ALLOT_STS_W1 a] ∧ t.free = s.free ∧
          ended t St.OK (BitVec.ofNat 64 a) ∧ t.qd.boot = s.qd.boot ∧
          t.qd.grid = { s.qd.grid with creates := l, allots := t.qd.grid.allots } ∧ AllotIs s t.qd.grid.allots a {} ∧
          t.rg (R.ALLOT_STS_W1 a) = BitVec.ofNat 64 (b + Al.csize d * 2 ^ 11) ∧
          t.rg (R.ALLOT_STS_W0 a) = BitVec.ofNat 64 (c + r * 2 ^ 4 + (Al.wm d - 1) * 2 ^ 8 + (Al.hm d - 1) * 2 ^ 12 +
            (s.bind k).qctx.toNat * 2 ^ 16 + Al.kslot d * 2 ^ 32 + (if Al.prot d then 2 ^ 38 else 0) + 2 ^ 39)) ∧
        (∀ q : Fin 4096, q.val = k → (k, d.ridx) ∉ l → ∃ t, exec (.createWaitTimeout q d.ridx) s = .next t ∧
          kept t [R.GRID_STS] ∧ t.free = s.free ∧ ended t St.ABSENT (1#64 <<< 63) ∧ t.qd.boot = s.qd.boot ∧
          t.qd.grid = { s.qd.grid with creates := l } ∧ t.fl F.GRID_STS_PEND = l.length % 2 ^ 7)) ∧
      ∀ a : Fin 64,
        let x := s.allot a.val
        let ends := fun (i : Instr) (l : List Nat) (g : Tbl Allot → Grid) (y : Allot) => ∃ (t : State) (v : Word),
          exec i s = .next t ∧ kept t l ∧ ended t St.OK v ∧ t.free = s.free + 1 ∧ t.qd.boot = s.qd.boot ∧
          t.qd.grid = g t.qd.grid.allots ∧ AllotIs s t.qd.grid.allots a.val y
        let plain := fun (t : Tbl Allot) => { s.qd.grid with allots := t }
        (∀ q : Fin 4096, q.val = k → x.load = some (k, d.ridx) → (∀ b, b < a.val → (s.allot b).load ≠ some (k, d.ridx)) →
          ends (.allotLoadDone q d.ridx) [R.ALLOT_STS_W0 a.val] plain { x with load := none }) ∧
        (x.start = some (k, d.ridx) → s.alState a.val = 3 → x.keyLost = false →
          (∀ m ∈ s.millsOf a.val, (s.mill m).run = .ended ∧ (s.mill m).tmma = []) → ∃ t,
          exec (.allotRunEnd a) s = .next t ∧ kept t [R.ALLOT_STS_W0 a.val] ∧ t.alState a.val = 2 ∧ t.free = s.free ∧
          ended t St.OK (BitVec.ofNat 64 (s.millsOf a.val).length) ∧ t.qd.boot = s.qd.boot ∧
          t.qd.grid = { s.qd.grid with allots := t.qd.grid.allots } ∧
          AllotIs s t.qd.grid.allots a.val { x with start := none }) ∧
        ((∀ m ∈ s.millsOf a.val, s.millQuiet m = true) → x.start = none →
          (x.halt = some (k, d.ridx) → s.alState a.val < 4 →
            ends (.allotHaltDone a) [] plain { x with halt := none }) ∧
          (s.alState a.val = 5 → x.free = some (k, d.ridx) → x.halt = none →
            (∀ e ∈ s.qd.grid.lease, e.2.held = true → e.1 / 64 ≠ a.val) →
            ∃ (t : State) (v : Word), exec (.allotFreeDone a) s = .next t ∧ ended t St.OK v ∧ t.free = s.free + 1 ∧
              kept t [R.GRID_STS, R.ALLOT_STS_W0 a.val, R.ALLOT_STS_W1 a.val] ∧ t.qd.boot = s.qd.boot ∧
              t.rg (R.ALLOT_STS_W0 a.val) = 0 ∧ t.rg (R.ALLOT_STS_W1 a.val) = 0 ∧
              t.qd.grid = { s.qd.grid with
                mills := t.qd.grid.mills, scratch := t.qd.grid.scratch, common := t.qd.grid.common
                allots := t.qd.grid.allots } ∧ AllotIs s t.qd.grid.allots a.val {} ∧
              (∀ m i, i < 2 ^ 21 → Tbl.at t.qd.grid.scratch (m * 2 ^ 21 + i) =
                if m ∈ s.millsOf a.val then 0 else Tbl.at s.qd.grid.scratch (m * 2 ^ 21 + i)) ∧
              (∀ i, let sh := s.shareOf a.val
                Tbl.at t.qd.grid.common i = if sh.1 ≤ i ∧ i < sh.1 + sh.2 then 0 else Tbl.at s.qd.grid.common i) ∧
              (∀ m, m ∉ s.millsOf a.val → t.mill m = s.mill m) ∧
              ∀ m ∈ s.millsOf a.val, (t.mill m).run = .idle ∧ ∀ e, ((t.mill m).qe e).mode = 0)))

/-- The debug window halts a mill, steps and resumes it, and writes the copies of a halted one. For a mill that
exists while the grid's clock is on: DEBUG_HALT of a mill that runs at an instruction boundary puts it under
debug halt with reason 0; DEBUG_STEP and DEBUG_RESUME of a halted mill that waits for nothing let it go on,
the first for one instruction, past a breakpoint at PC; DEBUG_REG_WRITE writes PC or a scalar register of a
halted mill of an unprotected allotment, and the breakpoint registers at any time, and is answered OK. Each
command is answered. Nothing else changes. (R4, R327, R328) -/
def Obligations.MillsUnderDebug : Prop :=
  ∀ (src : RegSrc) (m : Fin 256) (s : State), s.millThere m.val = true →
    let x := s.mill m.val
    let does := fun (i : Instr) (y : Mill) => ∃ t, exec i s = .next t ∧ MillIs { s with out := s.acks src St.OK } t m.val y
    (x.dhalt = false → x.run = .running → x.wait.inFlight = false →
      does (.debugHalt src m) { x with dhalt := true, reason := 0, stepping := false, haltReq := false }) ∧
    (x.dhalt = true → x.wait = .none →
      does (.debugStep src m) { x with dhalt := false, stepping := true, pass := true } ∧
      does (.debugResume src m) { x with dhalt := false, stepping := false, pass := true }) ∧
    (∀ v : Word, does (.debugRegWrite src m 0x18 v) { x with ibp0 := v &&& 0x1FFFFD } ∧
      does (.debugRegWrite src m 0x20 v) { x with ibp1 := v &&& 0x1FFFFD } ∧
      (x.dhalt = true → s.millProt m.val = false →
        does (.debugRegWrite src m 0x10 v) { x with pc := v.setWidth 21 } ∧
        ∀ r : Fin 32, does (.debugRegWrite src m (BitVec.ofNat 15 (0x100 + 8 * r.val)) v) (x.setSr r.val v)))

/-- The services make and free pools, open, fill, read, truncate and close sequences, and compute partials. Of a
started descriptor whose service has an allotment, unmirrored, at the QD1's own queue: POOL of a good region
clears its directory, adds the pool and completes with its slots; PFREE removes a pool with no open
sequence. OPEN takes free slots, one for each page homed here, and writes entry and page map; APPEND writes
key and value runs into pages that end where it begins and raises FILL; KV_READ sends them; TRUNC lowers
FILL; CLOSE clears page map and entry; PART sends the record of every row. The descriptor ends with OK,
stands at its allotment, GP ends; nothing else changes but the bytes written, what is sent and the resync
set. (R331, R332, R334, R335, R336, R339, R340, R341, R343, R344, R346) -/
def Obligations.KvPagesServeTheirDescriptors : Prop :=
  ∀ (q : Fin 4096) (d : Desc) (rest : List Desc) (a : Nat) (s : State), s.mirroring = false →
    let k := q.val
    let began : State := { s with qd := { s.qd with boot := { s.qd.boot with gp := false } } }
    let wrote := fun (ws : List (Nat × List Byte)) => (began.pokes .own ws).addResync (framesOf .own ws)
    let head := fun (st : Nat) => ({ d with prog := a + 1, stage := st } : Desc)
    let ends := fun (i : Instr) (u : State) (v : Word) => ∃ qs,
      SqIs s qs k (s.headIs k { head 4 with status := St.OK, result := v } rest) ∧ exec i s = .next (u.withQ qs)
    (Started s k d rest Ty.ATTN 1 → s.svcPick Ty.ATTN = some a → ∀ (p : Pool) (x : InData) (m : Nat) (es : List PageEnt)
        (rows : List (Nat × Nat × PartRow)),
      let bs := (homeBlocks s.qdPlane (Kv.seq d) ((d.len + 255) / 256)).filter (fun b => decide (At.wlo d < 256 * b + 256))
      s.poolAt k (Kv.pool d) = some p → partBad s k d (some p.kh) = none → (p.region k).status s = St.OK →
      Kv.seq d < p.maxseq → Kv.layer d < p.layers → p.seq k (Kv.seq d) s = .ok (some m) → d.len ≤ m →
      afterClose s k d = false → badKey s k (Kv.kslot d) = false → x.status = St.OK →
      allOk (bs.map (fun b => p.page k (Kv.seq d) (Kv.layer d) b s)) = .ok es →
      (∀ y ∈ bs.zip es, y.2.v = true ∧ min 256 (d.len - 256 * y.1) ≤ y.2.fill) →
      partRows p d x.data k (bs.zip es) s = .ok rows → ∃ b, SqIs s b k (s.headIs k (head 2) rest) ∧
      exec (.part q d.ridx x) s = .next (svcDone k d.ridx
        (((rows.find? (fun y => y.1 + 1 == At.nqt d && y.2.1 == 0)).map (fun y => y.2.2.n)).getD 0)
        (rows.foldl (fun u y => svcWrite k d.ridx (Kv.kslot d) (Kv.agen d)
          (At.pa d + BitVec.ofNat 64 (((s.qdPlane * At.nqt d + y.1) * At.qh d + y.2.1) * (64 + 4 * p.d)))
          (y.2.2.record s.qdPlane) u) (began.withQ b)))) ∧
    (s.svcPick Ty.KVPG = some a → poolBusy s k d = false → ∀ p : Pool,
      (Started s k d rest Ty.KVPG 1 → ∀ ws, p = { ctx := (s.bind k).qctx, w5 := d.w 5, w6 := d.w 6, w7 := d.w 7 } →
        let e := (p.region k).ent s
        p.rangesOk = true → (p.region k).placed s k (d.w 5) = true → p.plen % 65536 = 0 → s.poolAt k p.id = none →
        (s.pools k).length < 1024 → (p.region k).status s = St.OK →
        (p.region k).patches s [(0, List.replicate p.sb 0)] = .ok ws →
        let u := wrote ws
        ends (.pool q d.ridx) { u with qd := { u.qd with svc := { s.qd.svc with
          pools := s.qd.svc.pools ++ [{ p with kslot := e.kslot }] } } } (BitVec.ofNat 64 p.nslot)) ∧
      (s.poolAt k (Kv.pool d) = some p → (p.region k).status s = St.OK →
        (Started s k d rest Ty.KVPG 2 → (∀ i m, i < p.maxseq → p.seq k i s ≠ .ok (some m)) →
          ∃ v, ends (.pfree q d.ridx) { began with
            free := s.free + 1
            qd := { began.qd with svc := { s.qd.svc with pools := s.qd.svc.pools.filter (fun y => y != p) } } } v) ∧
        (∀ o : Option Nat, Kv.seq d < p.maxseq → p.seq k (Kv.seq d) s = .ok o →
          (Started s k d rest Ty.KVPG 3 → 1 ≤ d.len → d.len ≤ 1048576 →
            let pages := (homeBlocks s.qdPlane (Kv.seq d) ((d.len + 255) / 256)).flatMap (fun b =>
              (List.range p.layers).map (fun l => b / 18 * p.layers + l))
            let bytes := fun (c : List Nat) => (p.region k).patches s ((pages.zip c).map (fun x =>
                (p.mapOff (Kv.seq d) x.1, wordBytes (PageEnt.word ⟨x.2, 0, true⟩))) ++
              [(p.seqOff (Kv.seq d), seqEntry d.len)])
            (o = some d.len → ends (.openSeq q d.ridx) began (BitVec.ofNat 64 pages.length)) ∧
            (∀ used, o = none → p.used k s = .ok used → (∀ c, ∃ ws, bytes c = .ok ws) →
              pages.length ≤ ((List.range p.nslot).filter (fun n => !(used.contains n))).length →
              ∃ c ws, c.length = pages.length ∧ c.Nodup ∧ (∀ n ∈ c, n < p.nslot ∧ n ∉ used) ∧ bytes c = .ok ws ∧
                let u := wrote ws
                ends (.openSeq q d.ridx) { u with free := s.free + pages.length } (BitVec.ofNat 64 pages.length))) ∧
          (∀ (m : Nat) (l : List (Nat × Nat × PageEnt)) (ws : List (Nat × List Byte)), o = some m →
            readersBefore s k d = false → p.pages k (Kv.seq d) m s = .ok l →
            let ended := fun (i : Instr) => let u := wrote ws
              ∃ v, ends i { u with free := s.free + 1 } v
            (Started s k d rest Ty.KVPG 6 → (p.region k).patches s ((l.filter (fun x => x.2.2.v)).map (fun x =>
              (x.2.1, wordBytes (PageEnt.word { x.2.2 with fill := min x.2.2.fill (d.len - 256 * x.1) })))) = .ok ws →
              ended (.trunc q d.ridx)) ∧
            (Started s k d rest Ty.KVPG 7 → (p.region k).patches s (l.map (fun x => (x.2.1, List.replicate 8 0)) ++
              [(p.seqOff (Kv.seq d), List.replicate 32 0)]) = .ok ws → ended (.close q d.ridx))) ∧
          (∀ (m : Nat) (es : List PageEnt), o = some m → afterClose s k d = false → Kv.layer d < p.layers →
            overlapped (Kv.ka d) (Kv.va d) (d.len * p.kh * p.d * p.e) = false → badKey s k (Kv.kslot d) = false →
            let bs := tokenBlocks s.qdPlane (Kv.seq d) (Kv.t0 d) d.len
            (∀ b ∈ bs, b.2.1 + b.2.2 ≤ m) →
            allOk (bs.map (fun b => p.page k (Kv.seq d) (Kv.layer d) b.1 s)) = .ok es →
            let l := bs.zip es
            (∀ (x : InData) (ws : List (Nat × List Byte)), Started s k d rest Ty.KVPG 4 → d.inherited = false →
              x.status = St.OK → l ≠ [] → (∀ y ∈ l, y.2.v = true ∧ y.2.fill = y.1.2.1 - 256 * y.1.1) →
              (p.region k).patches s (l.flatMap (fun y => (List.range y.1.2.2).flatMap (fun i =>
                  (List.range p.kh).flatMap (fun h => let t := y.1.2.1 + i
                    [(p.slotOff y.2.slot + p.keyOff h t, srcRun p d x.data false t h),
                     (p.slotOff y.2.slot + p.valOff h t, srcRun p d x.data true t h)]))) ++
                l.map (fun y => (p.mapOff (Kv.seq d) (y.1.1 / 18 * p.layers + Kv.layer d),
                  wordBytes (PageEnt.word { y.2 with fill := y.1.2.1 + y.1.2.2 - 256 * y.1.1 })))) = .ok ws →
              ends (.append q d.ridx x) (wrote ws) (BitVec.ofNat 64 ((l.map (fun y => y.1.2.2)).sum))) ∧
            (∀ ks vs : List (List Byte), Started s k d rest Ty.KVPG 5 →
              (∀ y ∈ l, y.2.v = true ∧ y.1.2.1 + y.1.2.2 - 256 * y.1.1 ≤ y.2.fill) →
              allOk (l.map (fun y => readTokens p k y false s)) = .ok ks →
              allOk (l.map (fun y => readTokens p k y true s)) = .ok vs → ∃ b, SqIs s b k (s.headIs k (head 2) rest) ∧
              let u := (l.zip (ks.zip vs)).foldl (fun u y =>
                let at_ := BitVec.ofNat 64 ((y.1.1.2.1 - Kv.t0 d) * p.kh * p.d * p.e)
                svcWrite k d.ridx (Kv.kslot d) (Kv.agen d) (Kv.va d + at_) y.2.2
                  (svcWrite k d.ridx (Kv.kslot d) (Kv.agen d) (Kv.ka d + at_) y.2.1 u)) (began.withQ b)
              ∃ v, exec (.kvRead q d.ridx) s = .next (descDone k d.ridx St.OK v { u with free := u.free + 1 }))))))

/-- The optimizer service loads, saves and steps a state region, block by block. Of a started descriptor whose
service has an allotment, unmirrored, at the QD1's own queue: OPTS_LOAD of a good region writes its header,
the arrays and the headers of every block; SAVE, where no block is staged and every LAST is STEP, sends
every array of every block; OPTS_STEP whose region agrees opens its entry in the Green's table.
OPTS_BLOCK_COMMIT of a delivered gradient applies the update of its block to the region, marks the chunk
taken, adds the non-finite gradients to RESULT, and sends the weights on. Nothing else changes but the bytes
written, what is sent and the resync set. (R331, R332, R348, R349, R350, R351, R352, R353, R354, R355) -/
def Obligations.TheOptimizerKeepsItsRegions : Prop :=
  ∀ (d : Desc) (rest : List Desc) (a : Nat) (s : State), s.mirroring = false →
    let o := fun (k : Nat) => optRegion s k (Op.sta d) (Op.tgen d) d.len
    (∀ q : Fin 4096, s.svcPick Ty.OPTS = some a →
      let k := q.val
      let began : State := { s with qd := { s.qd with boot := { s.qd.boot with gp := false } } }
      let head := fun (st : Nat) => ({ d with prog := a + 1, stage := st } : Desc)
      let r := (o k).r
      (Started s k d rest Ty.OPTS 1 → ∀ x : InData, Op.alg d ≤ 1 → optStatus s k (Op.sta d) (o k) = St.OK →
        badKey s k (Kv.kslot d) = false → x.status = St.OK →
        let bytes := fun (y : BitVec 16) => r.patches s ([(0, (o k).top (Op.alg d))] ++
          (List.range (o k).nb).flatMap (loadBlock (o k) d x.data y))
        (∀ y, ∃ ws, bytes y = .ok ws) → ∃ y ws v qs, bytes y = .ok ws ∧
          SqIs s qs k (s.headIs k { head 4 with status := St.OK, result := v } rest) ∧
          let u := (began.pokes .own ws).addResync (framesOf .own ws)
          exec (.optsLoad q d.ridx x) s = .next (State.withQ { u with free := s.free + 2 } qs)) ∧
      (Started s k d rest Ty.OPTS 3 → optStatus s k (Op.sta d) (o k) = St.OK → badKey s k (Kv.kslot d) = false →
        (o k).mismatch s 10 0 none = .ok none → ∀ (hs : List OptHead) (ds : List (List Byte)),
        allOk ((List.range (o k).nb).map (fun b => (o k).head s b)) = .ok hs →
        (∀ h ∈ hs, h.staged = 0xFFFFFFFF ∧ h.last = Op.step d) →
        let arrays := [(0, Op.wa d), (65536, Op.ma d), (131072, Op.va d)].filter (fun y => y.1 == 0 || decide (y.2 ≠ 0))
        let parts := (List.range (o k).nb).flatMap (fun b => arrays.map (fun y =>
          (y.2 + BitVec.ofNat 64 (65536 * (18 * b + s.qdPlane)), r.read s ((o k).block b + y.1) (4 * (o k).elems b))))
        allOk (parts.map (fun y => y.2)) = .ok ds → ∃ (b : Tbl SQ) (v : Word), SqIs s b k (s.headIs k (head 2) rest) ∧
          let u := (parts.zip ds).foldl (fun u y => svcWrite k d.ridx (Kv.kslot d) (Kv.agen d) y.1.1 y.2 u) (began.withQ b)
          exec (.save q d.ridx) s = .next (descDone k d.ridx St.OK v { u with free := u.free + 1 })) ∧
      (Started s k d rest Ty.OPTS 2 → optStatus s k (Gd.word d.words 25) (stepRegion s k d.words) = St.OK →
        (stepRegion s k d.words).mismatch s 25 (entryNat d.words 3 17 1) (some 26) = .ok none →
        s.qd.green.colls = [] → Gd.kslot d.words = 0 → Gd.nrack d.words < 2 → 0 < d.words.length →
        ∃ qs, SqIs s qs k (s.headIs k (head 3) rest) ∧ exec (.optsStep q d.ridx) s = .next { began with qd := { began.qd with
          rings := { s.qd.rings with qs := qs }
          green := { s.qd.green with
            no := s.qd.green.no + 1
            colls := [{ no := s.qd.green.no, idx := 0, plane := s.qdPlane, ctx := (s.bind k).qctx
                        coll := Gd.coll d.words, words := stepWords d.words, seed := d.aux.headD 0, opened := s.stamp
                        mems := [{ slot := nodeSlot (s.bind k).owner, key := k, ridx := d.ridx }] }] } } })) ∧
    ∀ (c : Coll) (m : CollMem) (x : StepSum) (b : Nat) (g : List (BitVec 32)) (ps ws : List (Nat × List Byte)) (t : State),
      s.qd.green.colls = [c] → c.ended = false → c.mems = [m] → m.key < 4096 → (s.sq m.key).descs = d :: rest →
      (∀ y ∈ rest, y.ridx ≠ d.ridx) → m.ridx = d.ridx → d.stage = 3 → c.running = true → Gd.opts c.words = true →
      c.ready = [x] → x.chunk = 18 * b + c.plane → x.busy = false → x.data = f32Bytes (g.map BitVec.toNat) →
      optCommit (stepRegion s m.key c.words) c.words b (g.map BitVec.toNat) s = .ok (some ps, t) →
      (stepRegion s m.key c.words).r.patches s ps = .ok ws →
      let bad := BitVec.ofNat 64 ((g.filter (fun y => nonFinite y.toNat)).length)
      ∃ qs, SqIs s qs m.key (s.headIs m.key { d with result := d.result + bad } rest) ∧
        let u := ((s.withQ qs).pokes .own ws).addResync (framesOf .own ws)
        exec (.optsBlockCommit c.ctx c.coll b g) s = .next (optWeights c.no x.chunk { u with
          free := t.free
          qd := { u.qd with green := { s.qd.green with colls := [{ c with ready := [{ x with busy := true }] }] } } })

/-- The Ferry closes and opens transfers, takes and forwards segments, acknowledges, resends and gives a rack
up. TRANSFER_CLOSE with gathered records, a key and a free index sends them as a transfer of an index that
no transfer to the rack uses. A segment of another rack goes forward with HOPS + 1, or ends after the third;
one that does not open changes nothing. FERRY_DATA of several segments is kept and its ACK is due, one alone
has its records issued; FERRY_RESP of one answer hands it to its source; FERRY_ACK notes what has arrived,
and lets the next answer transfer go; FERRY_ABORT aborts its collective. FERRY_ACK_SEND,
SEGMENT_RESEND_TIMEOUT and PEER_RACK_LOST send the ACK, the segment again, and ERR_LOST for every record;
FERRY_KEY_EXPIRE drops the previous key. Nothing else changes. (R19, R134, R256, R407, R408, R409, R449) -/
def Obligations.TheFerryMovesTransfers : Prop :=
  ∀ (port : Fin 160) (s : State), s.fenced = false →
    let f := s.qd.ferry
    let ferry := fun (u : State) (x : Ferry) => { u with qd := { u.qd with ferry := x } }
    exec .ferryKeyExpire s = .next (ferry s { f with prev := [] }) ∧
    (∀ rack : Fin 64,
      let mine := (f.gather.filter (fun g => g.1 == rack.val)).map (·.2)
      (s.qd.boot.pwr = 0 → mine ≠ [] → f.key ≠ [] → s.unitOn 11 2 = true →
        (∃ i, i < 64 ∧ ∀ t ∈ f.tx, t.rack = rack.val → t.kind = 0 → t.xid ≠ i) →
        ∃ xid, xid < 64 ∧ (∀ t ∈ f.tx, t.rack = rack.val → t.kind = 0 → t.xid ≠ xid) ∧
          let recs := takeRecords mine 0
          let t : FerryTx := { no := f.no, rack := rack.val, xid := xid, recs := recs, data := recs.flatMap Packet.bytes }
          exec (.transferClose rack) s = .next ((List.range (segCount t.data)).foldl (fun u i => sendPart t i u)
            (ferry { s with free := s.free + 1 } { f with
              gather := f.gather.filter (fun g => g.1 != rack.val) ++ (mine.drop recs.length).map (fun p => (rack.val, p))
              rx := f.rx.filter (fun r => !(r.rack == rack.val && r.xid == xid && r.kind == 1))
              tx := f.tx ++ [t], no := f.no + 1 }))) ∧
      (∀ (xid : Fin 64) (r : FerryRx) (l l' : List FerryRx), f.key ≠ [] → f.rx = l ++ [r] ++ l' → r.rack = rack.val →
        r.xid = xid.val → r.ackDue = true → (∀ y ∈ l ++ l', y.rack ≠ r.rack ∨ y.xid ≠ r.xid) →
        ∃ bits : Word, (∀ i, i < 64 → bits.getLsbD i = r.segs.any (fun x => x.1 == r.lead + i)) ∧
          let d := bytesOf 2 r.lead ++ bytesOf 1 r.kind ++ List.replicate 5 0 ++ bytesOf 8 bits.toNat
          exec (.ferryAckSend rack xid) s = .next (sendSegment rack.val (sealSegment rack.val xid.val 0 1 2 d s).1
            (ferry s { f with iv := f.iv + 1, rx := l ++ [{ r with ackDue := false }] ++ l' }))) ∧
      (∀ (xid : Fin 64) (seg : BitVec 12) (t : FerryTx) (l l' : List FerryTx), f.tx = l ++ [t] ++ l' →
        t.rack = rack.val → t.xid = xid.val → seg.toNat < segCount t.data → seg.toNat ∉ t.acked →
        Tbl.at t.resent seg.toNat < 8 → (∀ y ∈ l ++ l', y.no ≠ t.no ∧ (y.rack ≠ t.rack ∨ y.xid ≠ t.xid)) →
        ∃ again : Tbl Nat, (∀ j, Tbl.at again j = if j = seg.toNat then Tbl.at t.resent j + 1 else Tbl.at t.resent j) ∧
          exec (.segmentResendTimeout rack xid seg) s = .next (sendPart t seg.toNat
            (ferry s { f with tx := l ++ [{ t with resent := again }] ++ l' }))) ∧
      ((∃ t ∈ f.tx, t.rack = rack.val ∧ ∃ i, i < segCount t.data ∧ i ∉ t.acked) → f.fences = [] → s.qd.green.colls = [] →
        let recs := mine ++ (f.tx.filter (fun t => t.rack == rack.val && t.kind == 0)).flatMap (·.recs)
        let u := ferry { s with out := s.out ++ recs.map (fun p => Out.unitSend (p.answer St.LOST)) } { f with
          gather := f.gather.filter (fun g => g.1 != rack.val), tx := f.tx.filter (fun t => t.rack != rack.val)
          rx := f.rx.filter (fun r => r.rack != rack.val), jobs := f.jobs.filter (fun j => j.rack != rack.val) }
        exec (.peerRackLost rack) s = .next (u.event Rg.ferry { cat := Cat.FAULT, obj := Obj.NONE, status := St.LOST, arg0 := BitVec.ofNat 64 rack.val, arg1 := 1 }))) ∧
    ∀ (g : Segment), s.unitOn 11 2 = true →
      let here := fun (i : Instr) (k : Nat) (act : List Byte → State) => g.kind = k → g.drack = s.qdRack →
        (s.openSegment g = none → exec i s = .next s) ∧ ∀ d, s.openSegment g = some d → exec i s = .next (act d)
      let fresh := ∀ r ∈ f.rx, r.rack ≠ g.srack ∨ r.xid ≠ g.xid ∨ r.kind ≠ g.kind
      let got := fun (d : List Byte) (whole : Bool) => ferry s { f with rx := f.rx ++ [{
        rack := g.srack, xid := g.xid, kind := g.kind, nseg := g.nseg, segs := [(g.segi, d)], ackDue := true, whole := whole }] }
      (∀ i ∈ [Instr.ferryData port g, .ferryResp port g, .ferryAck port g, .ferryAbort port g],
        (i, g.kind) ∈ [(Instr.ferryData port g, 0), (.ferryResp port g, 1), (.ferryAck port g, 2), (.ferryAbort port g, 3)] →
        g.drack ≠ s.qdRack →
        (g.hops = 3 → exec i s = .next s) ∧ (g.hops < 3 → exec i s =
          .next (sendSegment g.drack { g with h0 := fset g.h0 48 2 (g.hops + 1) } s))) ∧
      (fresh → 1 < g.nseg → here (.ferryData port g) 0 (fun d => got d false)) ∧
      (fresh → g.nseg = 1 → g.segi = 0 → here (.ferryData port g) 0 (fun d => ferrySettle
        (issueRecords g.srack g.xid (packetsOf (d.length / 32 + 1) d) (got d true)))) ∧
      (∀ (t : FerryTx) (l l' : List FerryTx) (q p : Packet), fresh → g.nseg = 1 → g.segi = 0 → f.tx = l ++ [t] ++ l' →
        t.rack = g.srack → t.xid = g.xid → t.kind = 0 → (∀ y ∈ l ++ l', y.no ≠ t.no) →
        (∀ y ∈ l, y.rack ≠ t.rack ∨ y.xid ≠ t.xid ∨ y.kind ≠ 0) → f.fences = [] → t.recs = [q] → q.src = p.dst →
        q.que = p.que → q.tag = p.tag → q.tseq = p.tseq → q.opc = p.opc → (q.opc = Opc.LD ∨ q.opc = Opc.STA) →
        g.kind = 1 → g.drack = s.qdRack → ∀ d, s.openSegment g = some d → packetsOf (d.length / 32 + 1) d = [p] →
        let u := got d true
        exec (.ferryResp port g) s = .next { u with
          out := s.out ++ [.unitSend p]
          qd := { u.qd with ferry := { u.qd.ferry with tx := l ++ l' } } }) ∧
      (∀ (n : Nat) (k : Byte) (bits : Word), g.kind = 2 → g.drack = s.qdRack → n < 65536 →
        s.openSegment g = some (bytesOf 2 n ++ [k] ++ List.replicate 5 0 ++ bytesOf 8 bits.toNat) →
        let got := List.range n ++ ((List.range 64).filter (bits.getLsbD ·)).map (n + ·)
        let is := fun (t : FerryTx) => t.rack == g.srack && t.xid == g.xid && t.kind == k.toNat
        let tx := f.tx.map (fun t => if is t then { t with acked := (t.acked ++ got).eraseDups } else t)
        (k ≠ 1 → exec (.ferryAck port g) s = .next (ferry s { f with tx := tx })) ∧
        (∀ t, k = 1 → tx.find? is = some t → (∀ i, i < segCount t.data → i ∈ t.acked) → exec (.ferryAck port g) s =
          .next (nextResp t.rack t.xid (ferry s { f with tx := tx.filter (fun x => x.no != t.no) })))) ∧
      here (.ferryAbort port g) 3 (fun d => (s.colls.filter (fun c => decide (c.ctx = BitVec.ofNat 16 (natOf (slice d 0 2))) &&
        decide (c.coll = BitVec.ofNat 32 (natOf (slice d 4 4))))).foldl (fun u c => collAbort c.no (256 * g.srack) 1 u) s)

/-- Frames of the rack service links, time marks, references, alignment, image blocks and health frames. A
TIME_MARK whose complement fails, of a link not aligned or not selected, changes nothing; one of the
selected link loads the timebase, steps it forward or has it given back. RSL_LOCK_LOSS and SLIP change LOCK,
VIOL and POS. REFERENCE_LOSS moves the PLL to the other reference or starts holdover; REFERENCE_RETURN takes
it back; HOLDOVER_EVENT raises its event. REGRD and REGWR are answered in a REGRSP kept under SEQ, and a
repeated SEQ is answered again only. BULK_BLOCK keeps a block asked for, IMGREQ_TIMEOUT asks again up to 8
times, PARTNER_IMGREQ serves a block while EXPOSED after FT_CMD SPARE; HEALTH_SEND scores the parts and
sends frames on live links. Nothing else changes. (R411, R412, R413, R416, R417, R425, R488, R489, R508,
R515, R539) -/
def Obligations.ServiceLinksAndMarks : Prop :=
  ∀ (l : RslLink) (s : State),
    let lnk := match l with
      | .a => 0
      | .b => 1
    (∀ v c : Word, (c ≠ ~~~ v ∨ s.flag (F.lock l) = false ∨ s.fl F.RSL_STS_SEL ≠ lnk → exec (.timeMark l v c) s = .next s) ∧
      (c = ~~~ v → s.flag (F.lock l) = true → s.fl F.RSL_STS_SEL = lnk →
        let m := v.toNat - s.fl (F.dly l)
        let a := s.qd.aon
        let now := a.ns.toNat * 2 ^ 32 + a.frac.toNat
        let meets := fun (u : State) (y : Aon) => exec (.timeMark l v c) s = .next { u with qd := { u.qd with aon := y } }
        let all := fun (u : State) =>
          (a.sync = false → meets u { a with ns := BitVec.ofNat 60 m, frac := 0, sync := true, ahead := 0, rate := 0 }) ∧
          (a.sync = true → now ≤ m * 2 ^ 32 → meets u { a with ns := BitVec.ofNat 60 m, frac := 0, ahead := 0, rate := 0 }) ∧
          (a.sync = true → m * 2 ^ 32 < now → ∃ rate, meets u { a with ahead := now - m * 2 ^ 32, rate := rate } ∧
            (now - m * 2 ^ 32 ≤ 64 * 2 ^ 32 → now - m * 2 ^ 32 ≤ 160 * rate))
        (s.flag F.CLK_STS_HOLD = false → all s) ∧
        (s.flag F.CLK_STS_HOLD = true → s.flag F.CLK_STS_LOCK = true → a.ns.toNat < m + 64 → m < a.ns.toNat + 64 →
          all ((s.setFl F.CLK_STS_HOLD 0).setFl F.CLK_STS_HOLD_MS ((a.ns.toNat - a.holdFrom) / 1000000))))) ∧
    (s.flag (F.lock l) = true → exec (.rslLockLoss l) s =
      let u := (((s.count (F.viol l) 4).score 9 lnk 64).setFl (F.lock l) 0).event Rg.hm {
        cat := Cat.LINK, obj := Obj.RSL, arg0 := BitVec.ofNat 64 lnk, arg1 := 1 }
      exec (.referenceLoss l) u) ∧
    (∀ on : Bool, let u := s.setFl (F.pos l) ((s.fl (F.pos l) + 1) % 10)
      (s.flag (F.lock l) = on → exec (.slip l on) s = .next u) ∧
      (s.flag (F.lock l) = false → s.flag F.CLK_STS_LOCK = false → exec (.slip l true) s =
        .next ((u.setFl (F.lock l) 1).event Rg.hm {
          cat := Cat.LINK, obj := Obj.RSL, arg0 := BitVec.ofNat 64 lnk, arg1 := 256 }))) ∧
    (s.flag (F.pres l) = true → let u := (s.setFl (F.pres l) 0).score 0xA 0 256
      (∀ r, u.refChoice = some r → exec (.referenceLoss l) s = .next (takeRef r u)) ∧
      (u.refChoice = none → s.flag F.CLK_STS_HOLD = false → s.flag F.CLK_STS_LOCK = true → exec (.referenceLoss l) s =
        let w := ((u.setFl F.CLK_STS_HOLD 1).score 0xA 0 256).setFl F.CLK_STS_LOCK 0
        .next { w with qd := { w.qd with aon := { s.qd.aon with holdFrom := s.qd.aon.ns.toNat } } })) ∧
    (∀ r, (s.setFl (F.pres l) 1).refChoice = some r → exec (.referenceReturn l) s =
      let u := takeRef r (s.setFl (F.pres l) 1)
      .next (if s.flag F.CLK_STS_HOLD then u.setFl F.CLK_STS_LOCK 1 else u)) ∧
    exec .holdoverEvent s = .next (if s.flag F.CLK_STS_HOLD then
      s.event Rg.clock { cat := Cat.INFO, obj := Obj.CLKREF, arg1 := 1 } else s) ∧
    (∀ (seq : Byte) (off v : Word),
      (∀ x ∈ (s.rsl l).answers, x.1 ≠ seq) → s.rslServed off.toNat = true →
      let answers := fun (i : Instr) (u : State) (st : BitVec 7) (w : Word) => ∃ t, exec i s = .next t ∧
        Answered u t l 3 seq (bytesOf 8 st.toNat ++ wordBytes w)
      (off.toNat % 8 ≠ 0 → answers (.regrd l seq off) s St.DESC 0 ∧ answers (.regwr l seq off v) s St.DESC 0) ∧
      (off.toNat % 8 = 0 → inBlock off.toNat = true → inAperture off.toNat = false →
        let r := readReg (rslSrc l) off.toNat s
        answers (.regrd l seq off) r.2 St.OK r.1) ∧
      (off = BitVec.ofNat 64 R.RT_DRAIN_TMO → s.inSetup = true → 1 ≤ v.toNat % 65536 → v.toNat % 65536 ≤ 10000 →
        ∃ t, exec (.regwr l seq off v) s = .next t ∧ t.fl F.RT_DRAIN_TMO_TMO = v.toNat % 65536 ∧
          RegsKept s t [R.RT_DRAIN_TMO] ∧ Answered (s.withRegs t) t l 3 seq (bytesOf 8 0 ++ wordBytes 0))) ∧
    (∀ (seq : Byte) (off v : Word) (x : Byte × Byte × List Byte) (m m' : List (Byte × Byte × List Byte)),
      (s.rsl l).answers = m ++ [x] ++ m' → x.1 = seq → x.2.2 ≠ [] → (∀ y ∈ m, y.1 ≠ seq) →
      ∀ i ∈ [Instr.regrd l seq off, .regwr l seq off v], exec i s =
        .next (State.count { s with out := s.out ++ [.rslFrame l x.2.1 seq x.2.2] } F.RSL_STS_REPEAT)) ∧
    (∀ (imgid : Word) (off : BitVec 32) (d : List Byte),
      exec (.bulkBlock l imgid off d false) s = .next (s.count (F.crcOf l)) ∧
      ∀ (f : ImgFetch) (rest : List ImgFetch), s.qd.boot.fetch = f :: rest →
        let fetch := fun (u : State) (g : ImgFetch) => { u with qd := { u.qd with boot := { u.qd.boot with fetch := g :: rest } } }
        (Tbl.at f.asked off.toNat = 0 ∨ (f.block off.toNat).isSome → exec (.bulkBlock l imgid off d true) s = .next s) ∧
        (Tbl.at f.asked off.toNat ≠ 0 → f.block off.toNat = none → (f.imgid = none ∨ f.imgid = some imgid) →
          let g := { f with imgid := some imgid, blocks := f.blocks ++ [(off.toNat, d)] }
          exec (.bulkBlock l imgid off d true) s = .next (if g.whole then (if g.kind = 0 then imgStart 2 (fetch s g)
            else fetch s g) else imgPump (fetch s g))) ∧
        (off.toNat ∈ f.asked.map (·.1) → f.block off.toNat = none →
          (8 ≤ Tbl.at f.asked off.toNat → ∃ st, exec (.imgreqTimeout off) s = .next (bootFail st { s with free := s.free + 1 })) ∧
          (Tbl.at f.asked off.toNat < 8 → s.qd.boot.warm = false → s.fl F.RSL_STS_SEL = lnk → ∃ (t : State) (asked : Tbl Nat),
            exec (.imgreqTimeout off) s = .next t ∧
            (∀ o, Tbl.at asked o = if o = off.toNat then Tbl.at f.asked o + 1 else Tbl.at f.asked o) ∧
            t.rsl l = { s.rsl l with seq := (s.rsl l).seq + 1 } ∧ (∀ l', l' ≠ l → t.rsl l' = s.rsl l') ∧
            let u := fetch s { f with asked := asked }
            t = { u with
              out := s.out ++ [.rslFrame l 0x30 (s.rsl l).seq (bytesOf 4 f.kind ++ bytesOf 4 off.toNat ++
                bytesOf 4 (f.askLen off.toNat))]
              qd := { u.qd with rslA := t.qd.rslA, rslB := t.qd.rslB } }))) ∧
    (∀ (kind : Byte) (off len : BitVec 32), s.fenced = false →
      let tells := fun (w : List Word) (d : List Byte) =>
        exec (.partnerImgreq kind off len) s = .next { s with out := s.out ++ [.partner 5 w d] }
      let k := BitVec.ofNat 64 kind.toNat
      let o := BitVec.ofNat 64 off.toNat
      (s.pair ≠ 1 ∨ s.qd.fault.spareCmd = false → tells [BitVec.ofNat 64 St.PERM.toNat, k, o] []) ∧
      (s.pair = 1 → s.qd.fault.spareCmd = true → kind.toNat ≤ 1 → len.toNat ≤ 65536 →
        let img := if kind = 0 then s.qd.boot.image else s.qd.boot.partnerSetup
        tells [0, k, o] ((img.drop off.toNat).take len.toNat))) ∧
    ∃ t, exec .healthSend s = .next t ∧
      t = { s with
        free := t.free, out := t.out
        qd := { s.qd with health := t.qd.health, rslA := t.qd.rslA, rslB := t.qd.rslB } } ∧
      (s.flag F.FT_CTL_HEALTH_EN = false ∨ (s.flag F.RSL_ALIGN_LOCK_A = false ∧ s.flag F.RSL_ALIGN_LOCK_B = false) →
        t.out = s.out ∧ t.qd.rslA = s.qd.rslA ∧ t.qd.rslB = s.qd.rslB) ∧
      (s.flag F.FT_CTL_HEALTH_EN = true → s.flag (F.lock l) = true → (∀ l', l' ≠ l → s.flag (F.lock l') = false) →
        ∃ fs : List (List Byte), fs ≠ [] ∧
          t.out = s.out ++ fs.mapIdx (fun i f => Out.rslFrame l 0x21 ((s.rsl l).seq + BitVec.ofNat 8 i) f) ∧
          t.rsl l = { s.rsl l with seq := (s.rsl l).seq + BitVec.ofNat 8 fs.length } ∧
          ∀ i f, fs[i]? = some f → slice f 0 8 = wordBytes s.stamp ∧ slice f 8 2 = bytesOf 2 s.qdNode.toNat ∧
            slice f 15 1 = bytesOf 1 (i % 16 + fs.length % 16 * 16))

/-- Clock gates, measurements, the loops, throttles, trips and the power-fail sequence do what their rules say.
VF_LOOP_TICK reads its sensors and, with margins in band and the loop running, moves to the point it
chooses: down at once, up through DVFS_SETTLED, which DVFS_UP_TIMEOUT abandons for 1 ms with an event.
CLOCK_STRETCH marks the island's stamps COARSE. EQ_LOOP_ADAPT keeps a lane's coefficient; BUF_LOOP_TICK with
the loop frozen reads STALL only; PLACEMENT_LOOP_TICK starts a frame's move from a channel above 80 % to one
below 50 %, and FRAME_MOVE_DONE ends it. CLOCK_GATE and CLOCK_UNGATE of a present, idle unit change its bit;
FMEAS_START and FMEAS_DONE start and end a measurement. Everything else is as before. THROTTLE_ASSERT
throttles and goes to point 0; THERMAL_THROTTLE at 98 °C or more throttles; THROTTLE_STEP goes one point
down, and at point 0, still hot, halves the rates; THROTTLE_END clears all of it. THERMAL_TRIP at 110 °C
raises its event, zeroizes Customs, stops the clocks and asserts THERMTRIP_N; BROWN_OUT records the rail and
stops the clocks. PWRFAIL in LIVE starts the sequence and then ends it with zeroized Customs, self-refresh
and the event; PWRFAIL_RELEASE before that lets the QD1 serve again. With the journal off; everything else
is as before. (R419, R421, R424, R426, R428, R429, R430, R431, R432, R433, R434, R435) -/
def Obligations.ClocksThrottlesAndTrips : Prop :=
  (∀ (s : State), s.flag F.LG_CTL_EN = false → s.qd.boot.stopped = false →
     let c := s.qd.clk
     let clk := fun (u : State) (k : Clk) => { u with qd := { u.qd with clk := k } }
     let point := s.fl F.DVFS_STS_POINT
     (∀ v : VfSense, s.loopRuns 0 = true → s.forcedDiv = false → s.flag F.DVFS_CTL_FORCE = false → 2 ≤ v.marginG → v.marginG ≤ 6 →
       2 ≤ v.marginC → v.marginC ≤ 6 → s.fl F.BOOT_STS_STEP = 12 →
       let sensed := vfSense v s
       let u := { sensed with qd := { sensed.qd with aon := { s.qd.aon with coarseG := false, coarseC := false } } }
       let mv := fun (p : Nat) => (([630, 670, 730, 780, 850].getD p 850 : Int) + s.trim F.DVFS_STS_TRIM_G).toNat
       (s.flag F.DVFS_STS_THR = false → v.power ≤ s.fl F.DVFS_CTL_PWR_LIM → 500 ≤ v.busy → v.busy ≤ 900 →
         exec (.vfLoopTick v) s = .next u) ∧
       (s.flag F.DVFS_STS_THR = false → v.power ≤ s.fl F.DVFS_CTL_PWR_LIM → v.busy < 500 → s.fl F.DVFS_CTL_PMIN < point →
         point ≤ 4 → exec (.vfLoopTick v) s = .next (State.setFl (State.setFl (clk { u with
           out := s.out ++ [.avs 0 (mv (point - 1))] } { u.qd.clk with up := none })
           F.DVFS_STS_POINT (point - 1)) F.DVFS_STS_DIV ([16, 14, 12, 11, 10].getD (point - 1) 10))) ∧
       (s.flag F.DVFS_STS_THR = false → v.power ≤ s.fl F.DVFS_CTL_PWR_LIM → 900 < v.busy → point < s.fl F.DVFS_CTL_PMAX →
         s.trim F.DVFS_STS_TRIM_G ≤ 0 → point < 4 → c.up = none → c.ban ≤ s.qd.aon.ns.toNat →
         exec (.vfLoopTick v) s = .next (clk { u with out := s.out ++ [.avs 0 (mv (point + 1))] }
           { u.qd.clk with up := some (point + 1, v.busy) }))) ∧
     (∀ p x, c.up = some (p, x) →
       exec .dvfsSettled s = .next (((clk s { c with up := none }).setFl F.DVFS_STS_POINT p).setFl F.DVFS_STS_DIV
         (if s.forcedDiv && p == s.forcedPoint then s.fl F.DVFS_CTL_FDIV else [16, 14, 12, 11, 10].getD p 10)) ∧
       exec .dvfsUpTimeout s = .next ((clk s { c with up := none, ban := s.qd.aon.ns.toNat + 1000000 }).event Rg.clock
         { cat := Cat.TIMEOUT, arg0 := BitVec.ofNat 64 p, arg1 := 20000 })) ∧
     (∀ grid : Bool, exec (.clockStretch grid) s = .next { s with qd := { s.qd with aon := { s.qd.aon with
       coarseG := s.qd.aon.coarseG || grid, coarseC := s.qd.aon.coarseC || !grid } } }) ∧
     (∀ (lane : Fin 640) (coef : BitVec 16), s.loopRuns 1 = true → s.portRuns (.qd (Fin.ofNat 160 (lane.val / 4))) = true →
       s.flag (F.LN_PORT_CTL_FREEZE (lane.val / 4)) = false → ∃ t, exec (.eqLoopAdapt lane coef) s = .next t ∧
         t = clk { s with free := t.free } { c with coefs := t.qd.clk.coefs, coefLog := t.qd.clk.coefLog } ∧
         (∀ j, Tbl.at t.qd.clk.coefs j = if j = lane.val then coef.toNat else Tbl.at c.coefs j) ∧
         (∀ j, j ≠ lane.val → Tbl.at t.qd.clk.coefLog j = Tbl.at c.coefLog j) ∧
         (coef.toNat < (Tbl.at c.coefLog lane.val).1 + 4 → (Tbl.at c.coefLog lane.val).1 < coef.toNat + 4 →
           t.free = s.free ∧ t.qd.clk.coefLog = c.coefLog)) ∧
     (s.loopEn 2 = true → s.loopRuns 2 = false → ∃ stall : Tbl Nat,
       (∀ j, Tbl.at stall j = if j < 4 then s.stallOf j else Tbl.at c.stall j) ∧
       exec .bufLoopTick s = .next (clk s { c with stall := stall })) ∧
     (∀ (util : List Nat) (frame a b : Nat), s.loopRuns 3 = true → c.move = none →
       util.findIdx? (fun x => decide (80 < x)) = some a → util.findIdx? (fun x => decide (x < 50)) = some b →
       exec (.placementLoopTick util frame) s = .next (clk s { c with move := some (frame, a, b) })) ∧
     (∀ x, c.move = some x → exec .frameMoveDone s = .next (clk s { c with move := none })) ∧
     (∀ (src : RegSrc) (u : Fin 4), s.gateThere u.val = true →
       let acked := fun (v : State) => { v with out := v.out ++ [.regAnswer src St.OK 0] }
       (s.gateIdle u.val = true → exec (.clockGate src u) s = .next (acked (if bitAt (s.rg R.CLK_ENABLE) u.val
         then s.setFl ⟨R.CLK_ENABLE, u.val, 1⟩ 0 else s))) ∧
       (s.gateIdle u.val = false → bitAt (s.rg R.CLK_ENABLE) u.val = true → exec (.clockGate src u) s =
         let v := s.refused (blockRing R.CLK_ENABLE) R.CLK_ENABLE (fset (s.rg R.CLK_ENABLE) u.val 1 0)
         .next { v with out := v.out ++ [.regAnswer src St.PERM 0] }) ∧
       exec (.clockUngate src u) s = .next (acked (if bitAt (s.rg R.CLK_ENABLE) u.val then s
         else s.setFl ⟨R.CLK_ENABLE, u.val, 1⟩ 1)) ∧
       (10 ≤ fget (s.rg R.FMEAS_CTL) 8 5 → fget (s.rg R.FMEAS_CTL) 8 5 ≤ 24 → ∃ t, exec (.fmeasStart src) s = .next t ∧
         t = clk { s.withRegs t with out := s.acks src St.OK } { c with measuring := true } ∧
         RegsKept s t [R.FMEAS_STS, R.FMEAS_CTL] ∧ t.rg R.FMEAS_STS = 0 ∧
         ∀ f ∈ [F.FMEAS_CTL_TGT, F.FMEAS_CTL_BASE, F.FMEAS_CTL_INDEX], t.fl f = s.fl f)) ∧
     ∀ n : BitVec 32, c.measuring = true →
       let i := s.fl F.FMEAS_CTL_INDEX
       let run := s.clockRuns (s.fl F.FMEAS_CTL_TGT) i && s.clockRuns (s.fl F.FMEAS_CTL_BASE) i
       let u := clk s { c with measuring := false }
       exec (.fmeasDone n) s = .next (if run then (u.setFl F.FMEAS_STS_DONE 1).setFl F.FMEAS_STS_COUNT n.toNat
         else u.setFl F.FMEAS_STS_INVALID 1)) ∧
  (∀ (s : State), s.flag F.LG_CTL_EN = false → s.qd.boot.trip = false →
     let clk := fun (u : State) (f : Clk → Clk) => { u with qd := { u.qd with clk := f u.qd.clk } }
     let boot := fun (u : State) (f : Boot → Boot) => { u with qd := { u.qd with boot := f u.qd.boot } }
     let throttled := fun (u : State) => if s.flag F.DVFS_STS_THR then u else (u.setFl F.DVFS_STS_THR 1).score 0xB 0 16
     let down := fun (p : Nat) (u : State) =>
       let w := ((clk u (fun c => { c with up := none })).setFl F.DVFS_STS_POINT p).setFl F.DVFS_STS_DIV (u.divAt p)
       if s.fl F.BOOT_STS_STEP = 12 then
         { w with out := s.out ++ [.avs 0 (([630, 670, 730, 780, 850].getD p 850 : Int) + s.trim F.DVFS_STS_TRIM_G).toNat] } else w
     let point := s.fl F.DVFS_STS_POINT
     (let u := throttled (clk (s.setFl F.PIN_STS_THROTTLE 1) (fun c => { c with low := true }));
       exec .throttleAssert s = .next (if point = 0 then clk u (fun c => { c with up := none }) else down 0 u)) ∧
     (∀ temp : Byte, (temp.toNat < 98 → exec (.thermalThrottle temp) s = .next s) ∧
       (98 ≤ temp.toNat → exec (.thermalThrottle temp) s =
         .next (throttled (clk (setTj temp.toNat s) (fun c => { c with hot := true }))))) ∧
     (s.flag F.DVFS_STS_THR = true →
       (0 < point → exec .throttleStep s = .next (down (point - 1) s)) ∧
       (point = 0 → s.qd.clk.hot = true → 98 ≤ s.fl F.DVFS_STS_TJMAX →
         exec .throttleStep s = .next (clk s (fun c => { c with halved := true })))) ∧
     exec .throttleEnd s = .next (clk ((s.setFl F.DVFS_STS_THR 0).setFl F.PIN_STS_THROTTLE 0)
       (fun c => { c with hot := false, low := false, halved := false })) ∧
     (∀ temp : Byte, (temp.toNat < 110 → exec (.thermalTrip temp) s = .next s) ∧
       (110 ≤ temp.toNat → ∃ t, exec (.thermalTrip temp) s = .next t ∧ t.qd.boot.stopped = true ∧ t.qd.boot.trip = true ∧
         (∃ l, t.out = l ++ [.pin "THERMTRIP_N" false]) ∧ (∀ n : Fin 160, s.portThere (.qd n) = true →
           t.fl (F.LN_PORT_STS_STATE n.val) = 0) ∧ (∀ k, (t.ks k).key = []) ∧ t.qd.hbm = s.qd.hbm)) ∧
     (∀ rail : BitVec 3, ∃ t, exec (.brownOut rail) s = .next t ∧ t.qd.boot.stopped = true ∧
       (s.qd.boot.pwr ≠ 2 → t.fl F.PIN_STS_BOD = rail.toNat) ∧ t.qd.hbm = s.qd.hbm ∧
       ∀ n : Fin 160, s.portThere (.qd n) = true → t.fl (F.LN_PORT_STS_STATE n.val) = 0) ∧
     (s.qd.boot.stopped = false →
       let low := s.setFl F.PIN_STS_PWRFAIL 1
       let told := fun (u : State) => u.eventBoth Rg.hm { cat := Cat.INFO, arg1 := 1 }
       (s.fl F.BOOT_STS_STEP < 9 → exec .pwrfail s = .next (told low)) ∧
       (9 ≤ s.fl F.BOOT_STS_STEP →
         (s.qd.boot.pwr = 0 → exec .pwrfail s = .next (boot low (fun b => { b with pwr := 1 }))) ∧
         (s.qd.boot.pwr = 1 → ∃ u, exec .pwrfail s = .next (told u) ∧ u.qd.boot = { s.qd.boot with
             pwr := 2, hs := true, hsPwr := true } ∧ (∀ k, (u.ks k).key = []) ∧ u.qd.hbm = s.qd.hbm ∧
           ∀ k, k < stacksOf s.qd.variant → u.fl (F.HBM_STS_SREF k) = 1))) ∧
     (let high := s.setFl F.PIN_STS_PWRFAIL 0;
       exec .pwrfailRelease s = .next (if s.qd.boot.pwr = 1 then boot high (fun b => { b with pwr := 0 }) else high)))

/-- Customs reports, delivers and retires keys, scrubs, tests itself and zeroizes as its rules say. Of a started
CUST descriptor of the QD1's own queue while Customs is approved and no self-test runs: REPORT writes the
report of 18,304 bytes with the nonce; DELIVER of a sound envelope with no holder makes its slot active, or
changes the Ferry's key, and completes, and with a tag that fails completes with ERR_CHECK; COUNTERS of an
active slot writes header, port and mill blocks; RETIRE, and KEY_RETIRE by a register, make an active slot
retiring and tell its holders. RETIRE_DRAIN_END retires it and tells them again, RETIRE_COMPLETE completes
it, RETIRE_HOLD_EXPIRE empties it with the next SGEN. CUST_SCRUB zeroes the frames behind a retired slot's
windows, SCRUB_DONE ends it. Nothing else changes. SELFTEST and ZEROIZE, with an RHOLD that is not 0 and no
RWL field changed, write CUST_CTL's fields and are answered OK; the first makes the tests run, and the
second zeroizes every sensitive parameter: after it no slot is active or retiring, the key of one that was
is gone, and the device, attestation and Ferry keys are zero. SELFTEST_DONE without a failure ends the
tests; with one, and ENTROPY_TEST_FAIL always, Customs zeroizes, is no longer approved and enters the error
state with the test's number. In the error state SELFTEST and ZEROIZE are refused with ERR_ABSENT. (R438,
R445, R446, R447, R448, R451, R452, R454, R460, R461, R462, R463) -/
def Obligations.Customs : Prop :=
  (∀ (s : State), s.flag F.CUST_STS_ERROR = false →
     let cust := fun (u : State) (c : Cust) => { u with qd := { u.qd with cust := c } }
     let keyed := fun (t : Tbl KeySlot) (k : Nat) (x : KeySlot) => ∀ j, Tbl.at t j = if j = k then x else s.ks j
     let told := fun (k : Nat) (x : KeySlot) (u : State) => u.event Rg.customs {
       cat := Cat.SECURITY, obj := Obj.KEYSLOT, ctx := x.ctx, arg0 := BitVec.ofNat 64 k, arg1 := BitVec.ofNat 64 (k % 64 + x.sgen.toNat * 256) }
     let retires := fun (i : Instr) (b : Tbl SQ) (out : List Out) (k : Nat) (desc : Option (Nat × BitVec 32)) =>
       (s.ks k).st = 1 → s.qd.green.colls = [] → s.qd.srcs.waits = [] → (∀ j ∈ s.qd.cust.jobs, j.k ≠ k) →
       (∀ a, a < 64 → s.alState a = 0 ∨ s.flag (F.ALLOT_STS_W0_PROT a) = false ∨ s.fl (F.ALLOT_STS_W0_KSLOT a) ≠ k) →
       let x : KeySlot := { s.ks k with st := 2, done := false, missed := 0 }
       let hs := (Tbl.at s.qd.cust.holders k).eraseDups
       ∃ keys, keyed keys k x ∧
         let u := told k x (cust (State.withQ { s with out := out } b) { s.qd.cust with keys := keys })
         let v := { u with qd := { u.qd with
           cust := { u.qd.cust with jobs := s.qd.cust.jobs ++ [{ k := k, retire := true, desc := desc, step := 1, todo := hs }] }
           green := { s.qd.green with seeds := s.qd.green.seeds.filter (fun y => decide (y.1 ≠ x.ctx))
                                      mseeds := s.qd.green.mseeds.filter (fun y => decide (y.1 ≠ x.ctx)) } } }
         exec i s = .next (hs.foldl (fun w h => custSta k h 2 0xC690 (BitVec.ofNat 64 k) w) v)
     (∀ (q : Fin 4096) (d : Desc) (rest : List Desc) (opc : Nat), Started s q.val d rest Ty.CUST opc →
       s.qd.cust.testing = false →
       let n := q.val
       let ctx := (s.bind n).qctx
       let head := fun (b : Tbl SQ) => SqIs s b n (s.headIs n { d with stage := 3 } rest)
       let ended := fun (b : Tbl SQ) (st : BitVec 7) (v : Word) => SqIs s b n (s.headIs n { d with stage := 4, status := st, result := v } rest)
       let slot := fget (d.w 7) 0 6
       (s.flag F.CUST_STS_APPROVED = false → ∀ x : InData, ∀ i ∈ [(Instr.report q d.ridx x, 1), (.deliver q d.ridx x, 2),
         (.retire q d.ridx, 3), (.counters q d.ridx, 4)], i.2 = opc → ∃ b v, ended b St.ABSENT v ∧
           exec i.1 s = .next (State.withQ { s with free := s.free + 1 } b)) ∧
       (s.flag F.CUST_STS_APPROVED = true →
         (∀ x : InData, opc = 1 → x.status = St.OK → (report s n x.data).length = 18304 ∧
           slice (report s n x.data) 32 64 = slice x.data 0 64 ∧ ∃ b, head b ∧ exec (.report q d.ridx x) s =
             .next (descDone n d.ridx St.OK 0 (custWrite n d.ridx 0 (BitVec.ofNat 8 (fget (d.w 7) 0 8)) (d.w 5)
               (report s n x.data) (s.withQ b)))) ∧
         (∀ x : InData, let e := slice x.data 0 d.len
           let k := natOf (slice e 5 1)
           opc = 2 → x.status = St.OK → natOf (slice e 0 4) = 0x4C564E45 → natOf (slice e 18 2) = 0 → d.len = 1728 →
           wordAt e 8 = s.qd.boot.bootId → natOf (slice e 16 2) = ctx.toNat →
           (natOf (slice e 4 1) = 0 → 0 < k → k < 64 → (s.ks k).st = 0 → (∀ j ∈ s.qd.cust.jobs, j.k ≠ k) →
             (s.envKey e = none → ∃ b v, ended b St.CHECK v ∧
               exec (.deliver q d.ridx x) s = .next (State.withQ { s with free := s.free + 1 } b)) ∧
             ∀ y, s.envKey e = some y → ∃ (b : Tbl SQ) (keys : Tbl KeySlot) (hs : Tbl (List Nat)), ended b St.OK 0 ∧
               let z : KeySlot := { s.ks k with st := 1, ctx := ctx, key := y, done := false, missed := 0 }
               keyed keys k z ∧ (∀ j, Tbl.at hs j = if j = k then [] else Tbl.at s.qd.cust.holders j) ∧
               exec (.deliver q d.ridx x) s = .next (told k z (cust (s.withQ b) { s.qd.cust with keys := keys, holders := hs }))) ∧
           (natOf (slice e 4 1) = 1 → k = 0 → ctx.toNat = s.fl F.CUST_CTL_FERRY_CTX → ∀ y, s.envKey e = some y →
             ∃ b, ended b St.OK 0 ∧ let u := s.withQ b
               exec (.deliver q d.ridx x) s = .next { u with qd := { u.qd with ferry := { s.qd.ferry with
                 prev := s.qd.ferry.key, key := y, iv := 0 } } })) ∧
         (opc = 3 → (s.ks slot).ctx = ctx → ∃ b, head b ∧ retires (.retire q d.ridx) b s.out slot (some (n, d.ridx))) ∧
         (opc = 4 → (s.ks slot).st = 1 → (s.ks slot).ctx = ctx →
           let hs := (List.range 144).filter (fun i => (Tbl.at s.qd.cust.holders slot).contains i)
           let ms := (List.range 256).filter (fun m => match s.allotOf m with
             | some a => s.flag (F.ALLOT_STS_W0_PROT a) && s.fl (F.ALLOT_STS_W0_CTX a) == ctx.toNat
             | none => false)
           let size := 64 + 128 * hs.length + 64 * ms.length
           size ≤ d.len → ∃ (b : Tbl SQ) (u : State) (mills : List Byte), head b ∧ mills.length = 64 * ms.length ∧
             u = State.withQ { s with free := s.free + 3 * ms.length } b ∧ exec (.counters q d.ridx) s =
             .next (descDone n d.ridx St.OK (BitVec.ofNat 64 size) (custWrite n d.ridx slot
               (BitVec.ofNat 8 (fget (d.w 7) 6 8)) (d.w 5) (wordBytes s.stamp ++ wordBytes (BitVec.ofNat 64 hs.length) ++
                 wordBytes (BitVec.ofNat 64 ms.length) ++ List.replicate 40 0 ++ hs.flatMap (fun h =>
                   (List.range 16).flatMap (fun w => wordBytes (s.rg (R.TEL_00 h + 8 * w)))) ++ mills) u))))) ∧
     (∀ (src : RegSrc) (v : Word), let k := fget v 0 6
       retires (.keyRetire src v) s.qd.rings.qs (s.acks src St.OK) k none ∧
       ((s.ks k).st ≠ 1 → exec (.keyRetire src v) s = let u := s.refused (blockRing R.KEY_RETIRE) R.KEY_RETIRE v
         .next { u with out := u.out ++ [.regAnswer src St.PERM 0] }) ∧
       ((s.ks k).st = 3 → s.qd.cust.scrub = none → ∃ u : State, u = scrubNode .mir k (scrubNode .own k s) ∧
         u = { s with qd := { s.qd with hbm := u.qd.hbm, mhbm := u.qd.mhbm } } ∧
         exec (.custScrub src v) s = .next (State.setFl (cust { u with out := s.acks src St.OK }
           { s.qd.cust with scrub := some k }) F.CUST_STS_SCRUB 1))) ∧
     exec .scrubDone s = .next (State.setFl (cust s { s.qd.cust with scrub := none }) F.CUST_STS_SCRUB 0) ∧
     ∀ k : Fin 64,
       (∀ (j : CustJob) (l l' : List CustJob), s.qd.cust.jobs = l ++ [j] ++ l' → j.k = k.val → j.retire = true →
         (∀ y ∈ l ++ l', y.k ≠ k.val ∨ y.retire = false) →
         (j.step = 1 → ∃ u, u = wipeSlot k.val s ∧ u.ks k.val = { s.ks k.val with st := 3, key := [] } ∧
           (∀ i, i ≠ k.val → u.ks i = s.ks i) ∧ exec (.retireDrainEnd k) s = .next (j.todo.foldl (fun w h =>
             custSta k.val h 3 0xC690 (BitVec.ofNat 64 (k.val + 256)) w)
             (cust u { u.qd.cust with jobs := l ++ [{ j with step := 4 }] ++ l' }))) ∧
         (j.step = 4 → j.todo = [] → ∀ (q : Nat) (r : BitVec 32), j.desc = some (q, r) →
           ∃ (keys : Tbl KeySlot) (hs : Tbl (List Nat)),
             keyed keys k.val { s.ks k.val with done := true, missed := BitVec.ofNat 8 j.missed } ∧
             (∀ i, Tbl.at hs i = if i = k.val then [] else Tbl.at s.qd.cust.holders i) ∧
             exec (.retireComplete k) s = .next (descDone q r St.OK (BitVec.ofNat 64 (j.got + j.missed * 2 ^ 32))
               (cust s { s.qd.cust with jobs := l ++ l', keys := keys, holders := hs })))) ∧
       ((s.ks k.val).st = 3 → (∀ j ∈ s.qd.cust.jobs, j.k ≠ k.val ∨ j.retire = false) →
         let x : KeySlot := { s.ks k.val with st := 0, sgen := (s.ks k.val).sgen + 1, ctx := 0 }
         ∃ keys, keyed keys k.val x ∧ exec (.retireHoldExpire k) s = .next (told k.val x (cust s { s.qd.cust with keys := keys })))) ∧
  (∀ (s : State),
     let gone := fun (t : State) => (∀ k, (t.ks k).st ≠ 1 ∧ (t.ks k).st ≠ 2) ∧
       (∀ k, (s.ks k).st = 1 ∨ (s.ks k).st = 2 → t.ks k = { s.ks k with st := 3, key := [], done := (t.ks k).done, missed := (t.ks k).missed }) ∧
       t.qd.cust.dk = 0 ∧ t.qd.cust.ak = 0 ∧ t.qd.ferry.key = [] ∧ t.qd.ferry.prev = [] ∧ t.qd.ferry.iv = 0 ∧
       t.qd.green.seeds = [] ∧ t.qd.cust.jobs = [] ∧ t.qd.hbm = s.qd.hbm
     let errs := fun (i : Instr) (n : Nat) => ∃ t, exec i s = .next t ∧ gone t ∧ t.flag F.CUST_STS_APPROVED = false ∧
       t.flag F.CUST_STS_ERROR = true ∧ t.fl F.CUST_STS_FAIL = n ∧ t.qd.cust.testing = false
     (∀ test : BitVec 8, errs (.entropyTestFail test) test.toNat ∧
       (s.qd.cust.testing = true → (test ≠ 0 → errs (.selftestDone test) test.toNat) ∧
         (test = 0 → exec (.selftestDone test) s =
           .next { s with qd := { s.qd with cust := { s.qd.cust with testing := false } } }))) ∧
     ∀ (src : RegSrc) (v : Word), fget v 8 8 ≠ 0 →
       (s.flag F.CUST_STS_ERROR = true → ∀ i ∈ [(Instr.selftest src v, v ||| 1), (.zeroize src v, v ||| 2)], exec i.1 s =
         let u := s.refused Rg.customs R.CUST_CTL i.2
         .next { u with out := u.out ++ [.regAnswer src St.ABSENT 0] }) ∧
       (s.flag F.CUST_STS_ERROR = false → fget v 0 2 = 0 →
         (∀ u, s.writeReg R.CUST_CTL (v ||| 1) = some u → exec (.selftest src v) s = .next { u with
           out := s.acks src St.OK, qd := { u.qd with cust := { s.qd.cust with testing := true } } }) ∧
         (∀ u, s.writeReg R.CUST_CTL (v ||| 2) = some u → ∃ t, exec (.zeroize src v) s = .next t ∧ gone t ∧
           ∃ l, t.out = l ++ [.regAnswer src St.OK 0])))

/-- Loss, exposure, resync, spares, boundaries and end points go as the rules of fault management say. In
service, with no update, merge or request waiting: PARTNER_POLL with PLINK = 0 notes whether 72 end points
see the partner's plane down; PLANE_DECLARE, and DECLARE of the partner's plane, then take the partner over:
a FAULT event, EXPOSED, mirrored replay entries kept, and SV_LIVE without its plane written at every end
point; an EXPOSED pair is lost instead. FENCE_STOP fences the QD1. LIVE_NOTICE loads FT_LIVE, and a plane
that leaves has its indices rebuilt. PAIR_EXPOSE, PARTNER_LINK_UP and RESYNC_DONE make the pair EXPOSED,
copy and make it PAIRED. PAIRLOST writes SV_LIVE without a pair, SPARE notes the command. Nothing else
changes. In service: SPARE_TEST_DONE notes the tests at a QD1 outside LIVE, and at an EXPOSED survivor that
awaits a spare starts loading; SPARE_LOAD_DONE makes the pair READY; SPARE_ADMIT with every listed context
seen, and ADMIT, hand the node over and write SV_LIVE with both planes; ADMIT at a tested QD1 of a lost pair
makes it PAIRED; ABORTLOAD makes the pair EXPOSED again. BOUNDARY completes, and while READY marks its
context seen. PORT_VECTOR_EXCHANGE swaps the port-down vectors; END_POINT_DECLARE and EPLOST lose an end
point with a FAULT event, READMIT clears its bit and lets its port leave T6. Nothing else changes. (R85,
R470, R471, R472, R473, R475, R476, R478, R479, R480, R481, R490) -/
def Obligations.FaultManagement : Prop :=
  (∀ (s : State), s.serving = true →
     let calm := s.qd.node.mirrors = [] ∧ s.qd.node.waits = [] ∧ s.qd.mnode.waits = [] ∧ s.mergeEnts = [] ∧ s.qd.sw.partnerRecs = []
     let fault := fun (u : State) (f : FaultMgr) => { u with qd := { u.qd with fault := f } }
     let kept := fun (on : Bool) (p : ReplayEnt → Bool) (u : State) => { u with qd := { u.qd with node := { u.qd.node with
       replay := u.qd.node.replay.map (fun (r : ReplayEnt) => if r.mirrored && p r then { r with kept := on } else r) } } }
     let all := fun (_ : ReplayEnt) => true
     let f := s.qd.fault
     let d := s.qdPlane ^^^ 1
     let gone := s.portUp 144 = false ∧ s.portUp 145 = false
     let takes := fun (u : State) =>
       let e := faultEvent Obj.PLANE d u
       sendLive (s.liveWith [d] false) ((kept true all (fault e { f with takeover := true, copying := false })).setPair 1)
     let does := fun (i : Instr) (l : RslLink) (t : State) => exec i s =
       let u := t.setFl F.FT_CMD_STS_STATUS 0
       .next { u with out := u.out ++ [.regAnswer (rslSrc l) St.OK 0] }
     (∀ states : List (Option (BitVec 3)), s.flag F.FT_STS_PLINK = false → exec (.partnerPoll states) s =
       .next (fault s { f with polled := decide (72 ≤ (states.zipIdx.filter (fun x => decide (x.2 < 144) && s.portUp x.2 &&
         (x.1 == some 0 || x.1 == some 1))).length) })) ∧
     (calm → gone → f.polled = true →
       (s.pair = 0 → exec .planeDeclare s = .next (takes s)) ∧
       (s.pair = 1 → f.takeover = false → exec .planeDeclare s = .next ((faultEvent Obj.PAIR (s.qdPlane / 2) s).setPair 4))) ∧
     (∃ t, exec .fenceStop s = .next t ∧ t.pair = 5 ∧ t.fenced = true ∧
       t = { s with out := t.out, qd := { s.qd with regs := t.qd.regs, links := t.qd.links } } ∧
       t.out = s.out ++ (List.range 144).map (fun n => .lane (.qd (Fin.ofNat 160 n)) 0 0) ∧
       (∀ n, n < 144 → t.fl (F.LN_PORT_STS_STATE n) = 0 ∧ t.fl (F.LN_PORT_STS_STEP n) = 0) ∧
       ∀ off, off ≠ R.FT_STS → (∀ n, n < 144 → off ≠ R.LN_PORT_STS n) → t.rg off = s.rg off) ∧
     (∀ (slot : Fin 144) (mask : BitVec 18), s.qd.dir.noticed = [] →
       let live := s.rg R.FT_LIVE &&& 0x3FFFF
       let u := s.setFl F.FT_LIVE_LIVE mask.toNat
       let partner := fun (w : State) => if bitAt (BitVec.ofNat 64 mask.toNat) d then w
         else kept false (fun r => decide (r.key.src = mkNode s.qdRack slot.val)) w
       (live = BitVec.ofNat 64 mask.toNat → exec (.liveNotice slot mask) s = .next (partner u)) ∧
       ∀ c, c < 18 → c ≠ s.qdPlane → bitAt live c = true → BitVec.ofNat 64 mask.toNat = live &&& ~~~ (1#64 <<< c) →
         bitAt live (c ^^^ 1) = true → let r := homeLeave c u
         exec (.liveNotice slot mask) s = .next (partner (startCensus c r.1 r.2))) ∧
     (calm → gone → f.spare = false → (s.pair = 0 ∨ s.pair = 2 ∨ s.pair = 3) → exec .pairExpose s =
       let u := (fault s { f with copying := false }).setPair 1
       .next (if f.takeover then u else kept false all u)) ∧
     (s.flag F.FT_STS_PLINK = true →
       (s.pair = 1 → f.takeover = false → f.copying = false → exec .partnerLinkUp s =
         let u := fault s { f with copying := true }
         let w := copyResync u
         .next { w with out := w.out ++ stateMsgs .own u }) ∧
       (s.pair = 0 → exec .partnerLinkUp s = .next (kept false all s)) ∧
       (s.pair = 1 → f.copying = true → exec .resyncDone s =
         .next (((fault s { f with copying := false, resync := [] }).setFl F.FT_STS_RESYNC 0).setPair 0))) ∧
     ∀ (l : RslLink) (i : Byte),
       (calm → i.toNat = d → s.pair = 0 → does (.declare l i) l (takes (if s.flag F.FT_STS_PLINK then
         { s with out := s.out ++ [.partner 2 []] } else s))) ∧
       (i.toNat < 9 → (i.toNat ≠ s.qdPlane / 2 ∨ s.pair = 4) → does (.pairlost l i) l (sendLive
         (s.liveWith [2 * i.toNat, 2 * i.toNat + 1] false) (faultEvent Obj.PAIR i.toNat s))) ∧
       (i.toNat = d → s.pair = 1 → does (.spare l i) l (fault s { f with spareCmd := true })) ∧
       (i.toNat ≠ d → ∀ c ∈ [Instr.declare l i, .spare l i, .abortload l i], exec c s =
         let u := s.setFl F.FT_CMD_STS_STATUS St.DESC.toNat
         .next { u with out := u.out ++ [.regAnswer (rslSrc l) St.OK 0] })) ∧
  (∀ (s : State), s.serving = true →
     let calm := s.qd.node.mirrors = [] ∧ s.qd.node.waits = [] ∧ s.qd.mnode.waits = [] ∧ s.mergeEnts = [] ∧ s.qd.sw.partnerRecs = []
     let fault := fun (u : State) (f : FaultMgr) => { u with qd := { u.qd with fault := f } }
     let kept := fun (p : ReplayEnt → Bool) (u : State) => { u with qd := { u.qd with node := { u.qd.node with
       replay := u.qd.node.replay.map (fun (r : ReplayEnt) => if r.mirrored && p r then { r with kept := false } else r) } } }
     let f := s.qd.fault
     let d := s.qdPlane ^^^ 1
     let outside := bitAt (s.rg R.FT_LIVE) s.qdPlane = false
     let does := fun (i : Instr) (l : RslLink) (t : State) => exec i s =
       let u := t.setFl F.FT_CMD_STS_STATUS 0
       .next { u with out := u.out ++ [.regAnswer (rslSrc l) St.OK 0] }
     let admitted := sendLive (s.liveWith [d, s.qdPlane] true) ((handOver s).setPair 0)
     (outside → f.tested = false →
       exec (.spareTestDone true) s = .next (let u := fault s { f with tested := true }
         if f.spare then u.setPair 2 else u) ∧
       exec (.spareTestDone false) s = .next (faultEvent Obj.PLANE s.qdPlane s)) ∧
     (bitAt (s.rg R.FT_LIVE) s.qdPlane = true → s.pair = 1 → f.spareCmd = true → s.flag F.FT_STS_PLINK = true →
       exec (.spareTestDone true) s = .next (loadSpare
         ((fault (s.setPair 2) { f with copying := false, resync := [] }).setFl F.FT_STS_RESYNC 0))) ∧
     (s.pair = 2 → f.spare = false → exec .spareLoadDone s = .next ((s.setPair 3).setFl F.FT_ADMIT_SEEN_SEEN 0)) ∧
     (s.pair = 3 → (∀ i, i < 8 → s.admitCtx i = 0 ∨ bitAt (s.rg R.FT_ADMIT_SEEN) i = true) →
       exec .spareAdmit s = .next admitted) ∧
     (∀ (q : Fin 4096) (k : Desc) (rest : List Desc), Started s q.val k rest Ty.STEP 1 → s.flag F.LG_CTL_EN = false →
       let ctx := (s.bind q.val).qctx.toNat
       ∃ (b : Tbl SQ) (v : Word) (n : Nat), SqIs s b q.val (s.headIs q.val { k with stage := 4, status := St.OK, result := v } rest) ∧
         (∀ i, i < 8 → n.testBit i = (bitAt (s.rg R.FT_ADMIT_SEEN) i || (decide (s.admitCtx i ≠ 0) && decide (s.admitCtx i = ctx)))) ∧
         let u := State.withQ { s with free := s.free + 1 } b
         exec (.boundary q k.ridx) s = .next (if s.pair = 3 then u.setFl F.FT_ADMIT_SEEN_SEEN n else u)) ∧
     (∀ down : BitVec 144, s.flag F.FT_STS_PLINK = true → ∃ w : Nat → Word,
       (∀ k i, k < 3 → i < 64 → (w k).getLsbD i = (decide (64 * k + i < 144) && !(s.portUp (64 * k + i)))) ∧
       exec (.portVectorExchange down) s = .next (fault { s with out := s.out ++ [.partner 3 [w 0, w 1, w 2]] }
         { f with farDown := down })) ∧
     ∀ (l : RslLink) (i : Byte),
       (i.toNat = d → s.pair = 3 → does (.ftAdmit l i) l admitted) ∧
       (outside → s.pair ≠ 3 → f.tested = true → f.spare = false → s.flag F.FT_STS_PLINK = true → i.toNat / 2 = s.qdPlane / 2 →
         does (.ftAdmit l i) l (sendLive (s.liveWith [d, s.qdPlane] true) (s.setPair 0))) ∧
       (calm → i.toNat = d → (s.pair = 2 ∨ s.pair = 3) → f.spare = false →
         let u := (fault { s with out := s.out ++ [.partner 4 []] } { f with spareCmd := false, copying := false }).setPair 1
         does (.abortload l i) l (if f.takeover then u else kept (fun _ => true) u)) ∧
       (∀ slot : Fin 144, slot.val = i.toNat →
         let o := R.FT_EPLOST (slot.val / 64)
         let bit := 1#64 <<< (slot.val % 64)
         let p := PortSel.qd (Fin.ofNat 160 slot.val)
         (s.epLost slot.val = false → s.inService p = false → (s.pst p = 1 → s.pstep p ≠ 7) →
           let lost := memberLost slot.val (kept (fun r => decide (r.key.src = mkNode s.qdRack slot.val))
             (faultEvent Obj.EP slot.val (s.setRg o (s.rg o ||| bit))))
           (s.portUp slot.val = false → (s.pair ≠ 0 ∨ f.farDown.getLsbD slot.val = true) →
             exec (.endPointDeclare slot) s = .next lost) ∧
           does (.eplost l i) l lost) ∧
         (s.epLost slot.val = true → does (.readmit l i) l (let u := s.setRg o (s.rg o &&& ~~~ bit)
           if s.pst p = 6 then (u.setPst p 1).setPstep p 6 else u))))

/-- Hang timeouts, software triggers, arming, freezing, and the replay of the Ledger. A wait shorter than
HANG_TMO is passed over; one that reached it is recorded open, and its event is a hang trigger when HANG_EN
is 1, it is no error trigger and the trace is ARMED. TRIG in ARMED records stamp and source and its TRIGGER
event, and is counted otherwise; ARM clears state, counters and regions; POST_TIMEOUT freezes. REPLAY under
its conditions takes the records of its segments and sets RUNNING, and is refused otherwise; REPLAY_RECORD
performs the next DESC or MSG record, or ends a replay that has none left; LEDGER_ABORT aborts. Register
commands are answered. Nothing else changes. (R495, R496, R498, R499, R504, R506) -/
def Obligations.TriggersAndReplay : Prop :=
  ∀ (s : State),
    let acked := fun (src : RegSrc) (u : State) => { u with out := u.out ++ [.regAnswer src St.OK 0] }
    let ledger := fun (u : State) (l : Ledger) => { u with qd := { u.qd with trace := { u.qd.trace with ledger := l } } }
    let lg := s.qd.trace.ledger
    (∀ w : WaitInfo,
      (w.dur.toNat < s.fl F.TR_CTL_HANG_TMO * 10000 → exec (.hangTimeout w) s = .next s) ∧
      (s.fl F.TR_CTL_HANG_TMO * 10000 ≤ w.dur.toNat →
        let r : EvRec := {
          e0 := w.start
          e1 := BitVec.ofNat 64 (w.kind.toNat % 16 + 16 + min w.dur.toNat (2 ^ 40 - 1) * 2 ^ 24)
          e2 := BitVec.ofNat 64 (w.wclass.toNat % 256 + w.windex.toNat % 256 * 2 ^ 8 + w.wsub.toNat % 65536 * 2 ^ 16 + w.ctx.toNat * 2 ^ 32)
          e3 := BitVec.ofNat 64 (w.node.toNat + w.q.toNat % 4096 * 2 ^ 14 + w.obj.toNat % 2 ^ 32 * 2 ^ 32) }
        let e : Ev := { cat := Cat.TIMEOUT, obj := Obj.WAIT, ctx := w.ctx, arg0 := BitVec.ofNat 64 w.obj.toNat, arg1 := BitVec.ofNat 64 w.dur.toNat }
        let u := s.toRegion r
        (s.flag F.TR_CTL_HANG_EN = false → exec (.hangTimeout w) s = .next (u.event w.ring.val e)) ∧
        (s.flag F.TR_CTL_HANG_EN = true → bitAt (s.rg R.TR_CTL) (44 + Cat.TIMEOUT) = false → s.fl F.TR_STS_STATE = 0 →
          exec (.hangTimeout w) s = .next (((u.openTrigger 2).record w.ring.val e true).record Rg.trace
            { cat := Cat.TRIGGER, arg1 := 2 } true)))) ∧
    (∀ src : RegSrc,
      (s.fl F.TR_STS_STATE = 0 → ∃ t, exec (.trig src) s = .next (acked src t) ∧ t.fl F.TR_STS_STATE ≠ 0 ∧
        t.fl F.TR_STS_SRC = 0 ∧ t.rg R.TR_TSTAMP = s.stamp ∧
        t = (s.openTrigger 0).record Rg.trace { cat := Cat.TRIGGER, arg1 := 0 } true) ∧
      (s.fl F.TR_STS_STATE ≠ 0 → exec (.trig src) s = .next (acked src (s.countSat F.TR_STS_TRIG2))) ∧
      (∃ t, exec (.arm src) s = .next t ∧ RegsKept s t [R.TR_STS, R.TR_PRE_WR] ∧ t.fl F.TR_STS_STATE = 0 ∧
        t.fl F.TR_STS_TRIG2 = 0 ∧ t.fl F.TR_STS_POST_DROP = 0 ∧ t.rg R.TR_PRE_WR = 0 ∧
        t = acked src { s with qd := { s.qd with regs := t.qd.regs, trace := { s.qd.trace with pre := [], post := [] } } }) ∧
      (∀ v : Word, let a := fget v 2 32
        (s.replaying = false → replayOk s a lg.upTo = true → ∃ t, exec (.replay src v) s = .next t ∧
          (let rs := replayRecords s a lg.upTo
            let of := fun (ts : List Nat) => rs.filter (fun r => ts.contains (recType r))
            t = acked src (ledger (s.withRegs t) { lg with
              todo := of [Lg.DESC, Lg.MSG], expect := of [Lg.INDIG, Lg.WATCH], places := of [Lg.PLACE] })) ∧
          RegsKept s t [R.LG_RSTS, R.LG_RFIRST] ∧ t.rg R.LG_RSTS = 5 ∧ t.rg R.LG_RFIRST = 0) ∧
        (s.replaying = true ∨ replayOk s a lg.upTo = false → exec (.replay src v) s =
          let u := s.refused Rg.trace R.LG_CMD v
          .next { u with out := u.out ++ [.regAnswer src St.PERM 0] }) ∧
        (s.replaying = false → exec (.ledgerAbort src v) s = .next (acked src s)) ∧
        (s.replaying = true → ∃ t, exec (.ledgerAbort src v) s = .next (acked src t) ∧ t.fl F.LG_RSTS_STATE = 3 ∧
          RegsKept s t [R.LG_RSTS] ∧ t.qd.trace.ledger = { lg with todo := [], expect := [], places := [] } ∧
          (∀ k, (t.sq k).descs = (s.sq k).descs.filter (fun d => !d.replay)) ∧
          t = { s.withRegs t with qd := { (s.withRegs t).qd with
            rings := { s.qd.rings with qs := t.qd.rings.qs }, green := { s.qd.green with colls := t.qd.green.colls }
            trace := { s.qd.trace with ledger := t.qd.trace.ledger } } }))) ∧
    exec .postTimeout s = .next (if s.fl F.TR_STS_STATE = 1 then s.setFl F.TR_STS_STATE 2 else s) ∧
    (s.replaying = false → exec .replayRecord s = .next s) ∧
    (s.replaying = true →
      (lg.todo = [] → (∀ x ∈ s.qd.rings.qs, ∀ d ∈ x.2.descs, d.replay = false) → ∃ t, exec .replayRecord s = .next t ∧
        t.fl F.LG_RSTS_STATE = 2 ∧ RegsKept s t [R.LG_RSTS] ∧
        t.qd.trace.ledger = { lg with expect := [], places := [] } ∧ ∀ k, t.sq k = s.sq k) ∧
      ∀ (r : Nat × List Byte) (rest : List (Nat × List Byte)), lg.todo = r :: rest →
        let u := ledger s { lg with todo := rest }
        let b := r.2.drop 16
        (natOf (slice r.2 8 1) = Lg.DESC →
          let k := natOf (slice b 0 2) % 4096
          let ridx := BitVec.ofNat 32 (natOf (slice b 4 4))
          exec .replayRecord s = .next (descBegin k ridx (addDesc k { ridx := ridx
                                                                      words := wordsOf (8 * (natOf (slice b 2 1) % 4 + 1)) (b.drop 16)
                                                                      replay := true } u))) ∧
        (natOf (slice r.2 8 1) = Lg.MSG → exec .replayRecord s = .next (enqueueMsg (natOf (slice b 0 2) % 256) (natOf (slice b 2 1))
          { fabric := true, src := natOf (slice b 4 2), que := natOf (slice b 6 2), data := slice b 16 (natOf (slice b 8 2)) } u)))

/-- Each boot step that has ended and whose condition holds leads to the next, and a failure stops the boot.
While the boot can go on, BOOT_STEP_DONE takes the step after STEP: 1 with a reference, 2 with the root PLL
locked to it, 3, 4 with present links aligned and a mark met, 5 with Customs approved, or in its error
state, 6 with both images come, 7 with the boot image verified, measured and a new identity, 8 with the
set-up image verified, its header loaded and no register record, 9, 10 with every stack trained, 11 with no
table record and the set-up image sent to the partner, and 12 with services placed, set-up ended and the
event. A step from 6 to 8 that fails discards the images and records FAIL and the status. Nothing else
changes. (R507, R509, R511, R512, R513, R514, R515, R522, R546) -/
def Obligations.BootGoesStepByStep : Prop :=
  ∀ (r : BootResult) (s : State), s.booting = true →
    let step := s.fl F.BOOT_STS_STEP
    let boot := fun (u : State) (f : Boot → Boot) => { u with qd := { u.qd with boot := f u.qd.boot } }
    let b := { s.qd.boot with resetLow := false }
    let u := { s with qd := { s.qd with boot := b } }
    let goes := fun (t : State) => exec (.bootStepDone r) s = .next t
    let upTo := fun (n : Nat) (t : State) => t.setFl F.BOOT_STS_STEP n
    (step = 0 → s.refChoice ≠ none → goes (upTo 1 u)) ∧
    (∀ l, step = 1 → s.refChoice = some l → goes (upTo 2 (takeRef l (u.setFl F.CLK_STS_LOCK 1)))) ∧
    (step = 2 → goes (upTo 3 u)) ∧
    (step = 3 → (s.flag F.CLK_STS_PRES_A = true → s.flag F.RSL_ALIGN_LOCK_A = true) →
      (s.flag F.CLK_STS_PRES_B = true → s.flag F.RSL_ALIGN_LOCK_B = true) → s.qd.aon.sync = true → goes (upTo 4 u)) ∧
    (step = 4 → (r.ok = true → goes (upTo 5 (u.setFl F.CUST_STS_APPROVED 1))) ∧
      (r.ok = false → goes (((customsError ((r.words.headD 1).toNat % 256) u).setFl F.BOOT_STS_FAIL 1).setFl
        F.BOOT_STS_STATUS r.status.toNat))) ∧
    (s.qd.boot.going = true → r.ok = false → step = 5 ∨ step = 6 ∨ (step = 7 ∧ s.qd.boot.setup = []) →
      ∃ w : State, w = State.setFl (State.setFl (State.setFl (boot u (fun b => { b with
          fetch := [], going := false, applied := 0, image := [], setup := [] })) F.BOOT_STS_FAIL 1)
          F.BOOT_STS_STATUS r.status.toNat) F.BOOT_STS_SETUP 0 ∧
        goes (w.eventBoth Rg.hm { cat := Cat.FAULT, status := r.status })) ∧
    (s.qd.boot.going = true → r.ok = true →
      (∀ f c, step = 5 → s.fetched 0 = some f → s.fetched 2 = some c →
        goes (upTo 6 (boot u (fun b => { b with image := f.bytes, cert := c.bytes, fetch := [] })))) ∧
      (step = 6 → (bootImageOk s.qd.variant b.image = false → ∃ st, goes (bootFail st { u with free := s.free + 1 })) ∧
        (bootImageOk s.qd.variant b.image = true → ∃ (dk : BitVec 512) (id : Word) (w : State),
          w = { boot u (fun b => { b with mfw := bytesOf 64 (Config.sha3 b.image).toNat, svn := natOf (slice b.image 20 4), bootId := id })
            with free := s.free + 2 } ∧
          let c := { s.qd.cust with devid := u.derive (ascii "QD1 DEVID"), dk := dk, ak := w.derive (ascii "QD1 AK" ++ w.qd.boot.mfw) }
          let x := { w with qd := { w.qd with cust := c } }
          (Config.mldsaPublic c.devid = Config.certKey b.cert → goes (imgStart 1 (upTo 7 x))) ∧
          (Config.mldsaPublic c.devid ≠ Config.certKey b.cert → ∃ n, goes (imgStart 1 (upTo 7
            (customsError n { x with free := s.free + 3 })))))) ∧
      (∀ f, step = 7 → b.setup = [] → s.fetched 1 = some f → let i := f.bytes
        (setupImageOk b.mfw i = false → ∃ st, goes (bootFail st { u with free := s.free + 1 })) ∧
        (setupImageOk b.mfw i = true → natOf (slice i 12 4) = 0 →
          ∃ t, goes t ∧ t.fl F.BOOT_STS_STEP = 8 ∧ t.inSetup = true ∧ t.fl F.DEV_NODE_NODE = natOf (slice i 20 2) ∧
          t.fl F.DEV_NODE_PLANE = natOf (slice i 22 1) ∧ t.fl F.RSL_DLY_DLY_A = natOf (slice i 24 2) ∧
          RegsKept s t [R.BOOT_STS, R.DEV_NODE, R.RSL_DLY] ∧ t = boot (u.withRegs t) (fun b => { b with
            setup := i, msetup := bytesOf 64 (Config.sha3 i).toNat, fetch := [], applied := 0 })))) ∧
    (step = 8 → goes (upTo 9 u)) ∧
    (step = 9 → r.ok = true → b.lost = 0 → ∃ t, goes t ∧ t.fl F.BOOT_STS_STEP = 10 ∧
      t = boot (u.withRegs t) (fun b => { b with hsPwr := false, hs := false }) ∧
      (∀ k, k < stacksOf s.qd.variant → t.flag (F.HBM_STS_TRAINED k) = true ∧ t.flag (F.HBM_STS_FAILED k) = false ∧
        t.flag (F.HBM_STS_SREF k) = false) ∧
      ∀ off, off ≠ R.BOOT_STS → (∀ k, k < stacksOf s.qd.variant → off ≠ R.HBM_STS k) → t.rg off = s.rg off) ∧
    (step = 10 → natOf (slice b.setup 16 4) = 0 → goes (upTo 11 (boot { u with out := s.out ++ [.partner 7 [] b.setup] }
      (fun b => { b with applied := 0, partnerSetup := if r.data = [] then b.partnerSetup else r.data })))) ∧
    (step = 11 → s.qd.boot.warm = false → ∃ w t : State, goes t ∧ w.fl F.BOOT_STS_STEP = 12 ∧ w.inSetup = false ∧
      w.qd.boot.going = false ∧ w.rg R.BOOT_TIME = s.stamp ∧ w.fl F.BOOT_STS_BOOTS = (s.fl F.BOOT_STS_BOOTS + 1) % 2 ^ F.BOOT_STS_BOOTS.wd ∧
      t = w.eventBoth Rg.hm { cat := Cat.INFO, arg0 := 12 })

/-- Power-on, RESET_N, the commands of the rack service links, and test access. POWER_ON gives every register
but BOOT_STS and PIN_STS its reset value and empties every unit; RESET_N_ASSERT and CMD FR do so but for
what FR keeps. A CMD with a fresh SEQ that suits what the device does is answered OK and performed: WR keeps
the Granary and boots from step 3, GR frees every allotment and empties scratch, PR resets its port, BOOT
starts to fetch, SETUP and RUN enter and end set-up state, GPIN and GPOUT park the grid, HSIN and HSOUT hold
HBM in self-refresh, DSIN and WAKE enter and leave deep sleep. One that does not suit is answered ERR_DESC.
JTAG instructions select their register; those that drive pins act as BYPASS while RESET_N is high. (R291,
R412, R463, R513, R516, R517, R518, R519, R520, R521, R551) -/
def Obligations.ResetsAndCommandsOfTheDevice : Prop :=
  (∀ (s : State) (tray : BitVec 6), ∃ t, exec (.powerOn tray) s = .next t ∧
    (∀ off, off ≠ R.BOOT_STS → off ≠ R.PIN_STS → t.rg off = regReset s.qd.variant off) ∧ t.fl F.BOOT_STS_STEP = 0 ∧
    t.fl F.BOOT_STS_CAUSE = 0 ∧ t.fl F.PIN_STS_TRAY_ID = tray.toNat ∧
    t = { s with out := t.out, qd := { variant := s.qd.variant, regs := t.qd.regs } }) ∧
  (∀ s : State,
    (∀ (name : String) (i : Instr), (i, name) ∈ [(Instr.extest, "EXTEST"), (.extestPulse, "EXTEST_PULSE"),
      (.extestTrain, "EXTEST_TRAIN"), (.clamp, "CLAMP"), (.highz, "HIGHZ")] →
      (s.qd.boot.resetLow = false → exec i s = .next { s with out := s.out ++ [.jtag "BYPASS" 1 0] }) ∧
      (s.qd.boot.resetLow = true → ∃ v, exec i s = .next { s with free := s.free + 1, out := s.out ++ [.jtag name 64 v] })) ∧
    exec .bypass s = .next { s with out := s.out ++ [.jtag "BYPASS" 1 0] } ∧
    (∃ v, exec .idcode s = .next { s with out := s.out ++ [.jtag "IDCODE" 32 v] } ∧ v % 2 = 1 ∧ v / 2 ^ 12 % 2 ^ 16 = 0x0D01 ∧ v < 2 ^ 32) ∧
    ∃ v, exec .samplePreload s = .next { s with free := s.free + 1, out := s.out ++ [.jtag "SAMPLE/PRELOAD" 64 v] }) ∧
  ∀ (s : State), s.qd.boot.trip = false →
    let boot := fun (u : State) (f : Boot → Boot) => { u with qd := { u.qd with boot := f u.qd.boot } }
    let cleared := fun (t : State) (low : Bool) => t.fl F.BOOT_STS_STEP = 0 ∧ t.fl F.BOOT_STS_CAUSE = 1 ∧
      t = { s with out := t.out, qd := { variant := s.qd.variant, regs := t.qd.regs, boot := { resetLow := low } } } ∧
      ∀ off, off ≠ R.BOOT_STS → (∀ x, regRow? off = some x → x.kept 1 = 0) → t.rg off = regReset s.qd.variant off
    (∃ t, exec .resetNAssert s = .next t ∧ cleared t true) ∧
    ∀ (l : RslLink) (seq arg : Byte) (index : BitVec 16), (∀ x ∈ (s.rsl l).answers, x.1 ≠ seq) →
      let performs := fun (i : Instr) (op : Nat) (act : State → State → Prop) => s.cmdSuits op = true → ∃ u t,
        Answered s u l 0x11 seq [0, BitVec.ofNat 8 op] ∧ exec i s = .next t ∧ act u t
      let all := [(Instr.fr l seq arg index, Cmd.FR), (.wr l seq arg index, Cmd.WR), (.gr l seq arg index, Cmd.GR),
        (.pr l seq arg index, Cmd.PR), (.boot l seq arg index, Cmd.BOOT), (.setup l seq arg index, Cmd.SETUP),
        (.run l seq arg index, Cmd.RUN), (.gpin l seq arg index, Cmd.GPIN), (.gpout l seq arg index, Cmd.GPOUT),
        (.hsin l seq arg index, Cmd.HSIN), (.hsout l seq arg index, Cmd.HSOUT), (.dsin l seq arg index, Cmd.DSIN),
        (.wake l seq arg index, Cmd.WAKE)]
      (∀ x ∈ all, s.cmdSuits x.2 = false → ∃ t, exec x.1 s = .next t ∧
        Answered s t l 0x11 seq [BitVec.ofNat 8 St.DESC.toNat, BitVec.ofNat 8 x.2]) ∧
      performs (.fr l seq arg index) Cmd.FR (fun _ t => cleared t false) ∧
      (s.flag F.LG_CTL_EN = false → performs (.wr l seq arg index) Cmd.WR (fun _ t => t.qd.hbm = s.qd.hbm ∧
        t.fl F.BOOT_STS_STEP = 2 ∧ t.fl F.BOOT_STS_CAUSE = 2 ∧ t.qd.cust = {} ∧ t.qd.grid = {} ∧ t.qd.rings = {} ∧
        t.qd.aon = s.qd.aon ∧ t.qd.trace.ledger = s.qd.trace.ledger)) ∧
      performs (.gr l seq arg index) Cmd.GR (fun _ t => t.qd.grid = { allots := t.qd.grid.allots, creates := s.qd.grid.creates } ∧
        (∀ k, (t.ks k).key = []) ∧ t.qd.boot.gp = false ∧ t.qd.hbm = s.qd.hbm ∧ (∀ a, a < 64 → t.alState a = 0 ∨ t.alState a = 2)) ∧
      (∀ n : Fin 160, index.toNat = n.val → s.portThere (.qd n) = true →
        performs (.pr l seq arg index) Cmd.PR (fun u t => t = resetPort n u)) ∧
      (s.waitsBoot = true → arg.toNat < 2 → s.flag F.CUST_STS_ERROR = false →
        performs (.boot l seq arg index) Cmd.BOOT (fun u t => ∃ w, w = ((u.setFl F.BOOT_STS_FAIL 0).setFl F.BOOT_STS_STATUS 0).setFl
            F.BOOT_STS_SRC arg.toNat ∧ t = imgStart 0 (boot (w.setFl F.BOOT_STS_STEP 5) (fun b => { b with
          going := true, warm := decide (arg = 1), fetch := [], applied := 0, image := [], setup := [] })))) ∧
      (s.inSetup = false → (∀ x ∈ s.qd.rings.bind, 4096 ≤ x.1 ∨ x.2.qstate = 0) →
        (∀ a, a < 64 → s.alState a = 0 ∨ s.flag (F.ALLOT_STS_W0_RES a) = true) →
        performs (.setup l seq arg index) Cmd.SETUP (fun u t => t = u.setFl F.BOOT_STS_SETUP 1)) ∧
      (s.inSetup = true → performs (.run l seq arg index) Cmd.RUN (fun u t => t = u.setFl F.BOOT_STS_SETUP 0)) ∧
      (s.present 0 = true → s.qd.boot.gp = false → s.gateIdle 0 = true →
        performs (.gpin l seq arg index) Cmd.GPIN (fun u t => t = boot u (fun b => { b with gp := true }))) ∧
      (s.qd.boot.gp = true → performs (.gpout l seq arg index) Cmd.GPOUT (fun u t => t = boot u (fun b => { b with gp := false }))) ∧
      (s.qd.boot.hs = false → (∀ w, w < 48 → (s.wte .own w).state = 0) → s.unitOn 0 0 = false → s.unitOn 11 2 = false →
        s.colls = [] → performs (.hsin l seq arg index) Cmd.HSIN (fun u t => t = boot (u.withRegs t) (fun b => { b with hs := true }) ∧
          ∀ k, k < stacksOf s.qd.variant → t.flag (F.HBM_STS_SREF k) = true)) ∧
      (s.qd.boot.hs = true → s.qd.boot.lost = 0 → performs (.hsout l seq arg index) Cmd.HSOUT (fun u t =>
        t = boot (u.withRegs t) (fun b => { b with hs := false }) ∧
          ∀ k, k < stacksOf s.qd.variant → t.flag (F.HBM_STS_SREF k) = false)) ∧
      performs (.dsin l seq arg index) Cmd.DSIN (fun _ t => t.qd.boot.ds = true ∧ t.qd.hbm = s.qd.hbm ∧ t.qd.cust = {} ∧
        t.fl F.BOOT_STS_STEP = 0 ∧ t.qd.grid = {} ∧ t.qd.aon = s.qd.aon ∧
        ∀ k, k < stacksOf s.qd.variant → t.flag (F.HBM_STS_SREF k) = true) ∧
      (s.qd.boot.ds = true → performs (.wake l seq arg index) Cmd.WAKE (fun u t =>
        t = ((boot u (fun b => { b with ds := false })).setFl F.BOOT_STS_CAUSE 3).setFl F.BOOT_STS_STEP 2))

/-- A step runs the command at the front of the queue with the queue's rest; with no command waiting it is one
tick of the always-on clock. For every command and state, the step of the state with the command at the
front of its queue is what the command does to the state with the queue's rest. With an empty queue (the
model's choice, log entry 2) it answers a next state in which the timebase has advanced by 6.2745 ns, to the
nearest unit of its 32-bit fraction, where it does not run ahead (R425), and everything else is as before.
(R70, R425) -/
def Obligations.StepRunsTheFrontCommand : Prop :=
  (∀ (c : Instr) (rest : List Instr) (s : State), step { s with pending := c :: rest } = exec c { s with pending := rest }) ∧
  ∀ s : State, s.pending = [] → ∃ t, step s = .next t ∧ t = { s with qd := { s.qd with aon := t.qd.aon } } ∧
    t.qd.aon = { s.qd.aon with ns := t.qd.aon.ns, frac := t.qd.aon.frac, ahead := t.qd.aon.ahead } ∧
    (s.qd.aon.ahead = 0 → t.qd.aon.ahead = 0 ∧
      (t.qd.aon.ns.toNat * 2 ^ 32 + t.qd.aon.frac.toNat) % 2 ^ 92 =
        (s.qd.aon.ns.toNat * 2 ^ 32 + s.qd.aon.frac.toNat + (62745 * 2 ^ 32 + 5000) / 10000) % 2 ^ 92)

/-- Right after reset the registers hold the reset values of their tables, every table is empty and the state is
well formed. State.reset is well formed. The fields of the QD1 registers and of the Svapo registers that
their tables give a reset value hold it (the timeouts of R74, LOOKAHEAD, WIN_WD_TMO, the confirm time,
POST_N and TRIG_MASK, the VF point, SV_NODE, the limiter's fields and NACK_INT). No window is valid, no
queue is bound, every key slot is free, every line of the agent is in I, the mills have not started, no
event has been recorded, BOOT_STS.STEP is 0 and no command waits. (R74, R87, R150, R378, R386, R470, R492,
R504, R507, R525) -/
def Obligations.ResetLeavesTheResetValues : Prop :=
  State.reset.Wf ∧ State.reset.pending = [] ∧ State.reset.out = [] ∧
  (∀ e ∈ ([(⟨R.DEV_ID, 0, 16⟩, 0x0D01), (⟨R.DEV_ID, 24, 4⟩, 9), (⟨R.QD_TXN_TMO, 0, 16⟩, 0x40),
      (⟨R.QD_TXN_TMO, 16, 3⟩, 3), (⟨R.QD_TXN_TMO, 19, 3⟩, 2), (⟨R.QD_TXN_TMO, 32, 16⟩, 0x200), (⟨R.CTU_CTL, 0, 5⟩, 4),
      (⟨R.WIN_WD_TMO, 0, 14⟩, 100), (⟨R.CLK_ENABLE, 0, 1⟩, 1), (⟨R.DVFS_STS, 0, 3⟩, 2), (⟨R.GR_CTL, 0, 5⟩, 8),
      (⟨R.FT_CTL, 0, 10⟩, 100), (⟨R.TR_CTL, 0, 8⟩, 64), (⟨R.TR_CTL, 44, 16⟩, 0x44), (⟨R.TR_REGION, 0, 12⟩, 256),
      (⟨R.ACC_CTL, 0, 17⟩, 0), (⟨R.DEV_NODE, 0, 24⟩, 0), (F.BOOT_STS_STEP, 0)] : List (Fld × Nat)),
    State.reset.fl e.1 = e.2) ∧
  (∀ e ∈ ([(0x0010, 0, 16, 0x40), (0x0010, 16, 3, 3), (0x0010, 19, 3, 2), (0x0010, 32, 16, 0x200), (0x0018, 0, 14, 0x3FFF),
      (0x0020, 0, 18, 0), (0x1300, 0, 1, 1), (0x1300, 1, 1, 0), (0x1300, 2, 8, 2), (0x1300, 10, 4, 4), (0x1300, 14, 8, 4),
      (0x1300, 22, 10, 20), (0x1400, 0, 8, 20), (0x1400, 8, 1, 0)] : List (Nat × Nat × Nat × Nat)),
    State.reset.srf e.1 e.2.1 e.2.2.1 = e.2.2.2) ∧
  (∀ b w, (State.reset.wte b w).state = 0) ∧ (∀ q, (State.reset.bind q).qstate = 0) ∧
  (∀ k, (Tbl.at State.reset.sv.keys k).st = 0 ∧ (Tbl.at State.reset.qd.cust.keys k).st = 0) ∧
  (∀ l, (Tbl.at State.reset.sv.lines l).st = .i) ∧ (∀ m, (State.reset.mill m).run = .idle) ∧
  ∀ r, Tbl.at State.reset.qd.trace.rings r = {}

/-- Every step from a well-formed state leaves a well-formed state. Whatever command is at the front of the
queue, a state whose Granary, mirror copy and register files are in canonical form (keys strictly rising,
nothing listed that equals what an unlisted key holds) has only next states that are in canonical form too,
so that equal memories and equal register files are equal data; and every command answers a next state. (R2,
R482, R523) -/
def Obligations.EveryStepKeepsTheCanonicalForm : Prop :=
  ∀ s : State, s.Wf → ∃ t, step s = .next t ∧ t.Wf

/-- A packet is read back from its slots, packets from the bytes of their transfer, and a flit from its prefix
and slots. For every well-formed packet whose payload is as long as its header says (none in a load or
tile-read request), the slots that its header announces are those of its bytes, the packet read from them is
the packet, whatever follows them, and a list of such packets is read back from their bytes one after
another. Every flit built from a prefix and 15 slots passes its CHECK and gives back the prefix and the
slots. (R50, R51, R53, R54, R408) -/
def Obligations.PacketsSurviveTheirBytes : Prop :=
  let good := fun (p : Packet) => p.wf = true ∧
    p.data.length = if p.rsp = false ∧ (p.opc = Opc.LD ∨ p.opc = Opc.TRD) then 0 else p.len
  (∀ (p : Packet) (rest : List Byte), good p →
    p.bytes.length = 16 * hdrSlots p.w0 p.w3 ∧ p.slots = hdrSlots p.w0 p.w3 ∧ packetOf (p.bytes ++ rest) = p) ∧
  (∀ ps : List Packet, (∀ p ∈ ps, good p) → ∀ n, ps.length ≤ n → packetsOf n (ps.flatMap Packet.bytes) = ps) ∧
  ∀ (w : Word) (slots : List Byte), slots.length = 240 →
    (flitOf w slots).length = 256 ∧ flitCheckOk (flitOf w slots) = true ∧ flitPrefix (flitOf w slots) = w ∧
    flitSlots (flitOf w slots) = slots

/-- A FEC block decodes to its flit. For every flit, the block of the two interleaved codewords of R391 has 272
bytes, its two words have no syndrome, and it decodes to the flit with no byte corrected. (R391) -/
def Obligations.BlocksSurviveTheLane : Prop :=
  ∀ f : List Byte, f.length = 256 →
    (blockOf f).length = 272 ∧ (∀ a x, x ∈ rsSyndromes (blockSyms (blockOf f) a) → x = 0) ∧
    blockDecode (blockOf f) = some (f, [])
end

