-- ==== Sys2Proof/Laws/Tables.lean ====
section
/-! SUPPORT. Laws of the sparse tables: a read after a write, and the canonical form that every table
operation keeps. -/

namespace Sys2Proof.Machine

theorem Tbl.rising_mono {α : Type} {b c : Nat} {t : Tbl α} (hbc : b ≤ c) (h : Tbl.rising c t = true) :
    Tbl.rising b t = true := by
  cases t with
  | nil => rfl
  | cons p t =>
    simp only [Tbl.rising, Bool.and_eq_true, decide_eq_true_eq] at h ⊢
    exact ⟨by omega, h.2⟩

theorem Tbl.rising_del {α : Type} (k : Nat) : ∀ (b : Nat) (t : Tbl α), Tbl.rising b t = true →
    Tbl.rising b (Tbl.del t k) = true := by
  intro b t
  induction t generalizing b with
  | nil => intro _; rfl
  | cons p t ih =>
    intro h
    simp only [Tbl.rising, Bool.and_eq_true, decide_eq_true_eq] at h
    have ht := ih (p.1 + 1) h.2
    unfold Tbl.del at ht ⊢
    rw [List.filter_cons]
    split
    · simp only [Tbl.rising, Bool.and_eq_true, decide_eq_true_eq]; exact ⟨h.1, ht⟩
    · exact Tbl.rising_mono (by omega) ht

/-- Keys of a rising table are at least its bound. -/
theorem Tbl.rising_le {α : Type} : ∀ (b : Nat) (t : Tbl α), Tbl.rising b t = true →
    ∀ p ∈ t, b ≤ p.1 := by
  intro b t
  induction t generalizing b with
  | nil => intro _ p hp; cases hp
  | cons q t ih =>
    intro h p hp
    simp only [Tbl.rising, Bool.and_eq_true, decide_eq_true_eq] at h
    cases hp with
    | head => exact h.1
    | tail _ hp => have := ih _ h.2 p hp; omega

theorem Tbl.rising_ins {α : Type} (k : Nat) (v : α) : ∀ (b : Nat) (t : Tbl α), Tbl.rising b t = true →
    (∀ p ∈ t, p.1 ≠ k) → b ≤ k → Tbl.rising b (Tbl.ins k v t) = true := by
  intro b t
  induction t generalizing b with
  | nil => intro _ _ hk; simp [Tbl.ins, Tbl.rising, hk]
  | cons p t ih =>
    intro h hn hk
    simp only [Tbl.rising, Bool.and_eq_true, decide_eq_true_eq] at h
    have hp : p.1 ≠ k := hn p (List.mem_cons_self ..)
    simp only [Tbl.ins]
    split
    · rename_i hlt
      simp only [Tbl.rising, Bool.and_eq_true, decide_eq_true_eq]
      exact ⟨hk, by omega, h.2⟩
    · simp only [Tbl.rising, Bool.and_eq_true, decide_eq_true_eq]
      exact ⟨h.1, ih _ h.2 (fun q hq => hn q (List.mem_cons_of_mem _ hq)) (by omega)⟩

theorem Tbl.mem_ins {α : Type} (k : Nat) (v : α) (t : Tbl α) (q : Nat × α) :
    q ∈ Tbl.ins k v t ↔ q = (k, v) ∨ q ∈ t := by
  induction t with
  | nil => simp [Tbl.ins]
  | cons p t ih =>
    simp only [Tbl.ins]
    split
    · simp [List.mem_cons]
    · simp only [List.mem_cons, ih]; exact or_left_comm

theorem Tbl.mem_del {α : Type} (k : Nat) (t : Tbl α) (q : Nat × α) :
    q ∈ Tbl.del t k ↔ q ∈ t ∧ q.1 ≠ k := by
  simp [Tbl.del, List.mem_filter]

/-- The canonical form as two facts. -/
theorem Tbl.wf_iff {α : Type} [DecidableEq α] (d : Nat → α) (t : Tbl α) :
    Tbl.wf d t = true ↔ Tbl.rising 0 t = true ∧ ∀ p ∈ t, p.2 ≠ d p.1 := by
  simp [Tbl.wf, Bool.and_eq_true, List.all_eq_true]

/-- The empty table is canonical. -/
@[simp] theorem Tbl.wf_nil {α : Type} [DecidableEq α] (d : Nat → α) : Tbl.wf d ([] : Tbl α) = true := rfl

/-- A write keeps the canonical form. -/
theorem Tbl.wf_set {α : Type} [DecidableEq α] (d : Nat → α) (t : Tbl α) (k : Nat) (v : α)
    (h : Tbl.wf d t = true) : Tbl.wf d (Tbl.set d t k v) = true := by
  rw [Tbl.wf_iff] at h ⊢
  have hd : Tbl.rising 0 (Tbl.del t k) = true := Tbl.rising_del k 0 t h.1
  unfold Tbl.set
  split
  · exact ⟨hd, fun p hp => h.2 p ((Tbl.mem_del k t p).1 hp).1⟩
  · rename_i hv
    refine ⟨Tbl.rising_ins k v 0 _ hd (fun p hp => ((Tbl.mem_del k t p).1 hp).2) (Nat.zero_le _), ?_⟩
    intro p hp
    rcases (Tbl.mem_ins k v _ p).1 hp with rfl | hp
    · exact hv
    · exact h.2 p ((Tbl.mem_del k t p).1 hp).1

theorem Tbl.wf_put {α : Type} [DecidableEq α] [Inhabited α] (t : Tbl α) (k : Nat) (v : α)
    (h : Tbl.wf (fun _ => default) t = true) : Tbl.wf (fun _ => default) (Tbl.put t k v) = true :=
  Tbl.wf_set _ t k v h

theorem Tbl.wf_mod {α : Type} [DecidableEq α] [Inhabited α] (t : Tbl α) (k : Nat) (f : α → α)
    (h : Tbl.wf (fun _ => default) t = true) : Tbl.wf (fun _ => default) (Tbl.mod t k f) = true :=
  Tbl.wf_put t k _ h

theorem Tbl.find_ins {α : Type} (k : Nat) (v : α) (j : Nat) (t : Tbl α) (hk : ∀ p ∈ t, p.1 ≠ k) :
    (Tbl.ins k v t).find? (fun p => p.1 == j) =
      if j = k then some (k, v) else t.find? (fun p => p.1 == j) := by
  induction t with
  | nil =>
    by_cases h : j = k
    · simp [Tbl.ins, h]
    · have : (k == j) = false := by simpa using fun e => h e.symm
      simp [Tbl.ins, h, this]
  | cons p t ih =>
    have ih := ih (fun q hq => hk q (List.mem_cons_of_mem _ hq))
    have hp := hk p (List.mem_cons_self ..)
    simp only [Tbl.ins]
    split
    · by_cases h : j = k
      · simp [h]
      · have : (k == j) = false := by simpa using fun e => h e.symm
        rw [List.find?_cons, this]; simp [h]
    · by_cases h : j = k
      · subst h
        have : (p.1 == j) = false := by simpa using hp
        rw [List.find?_cons, this]; simp at ih ⊢; exact ih
      · simp only [List.find?_cons, if_neg h] at ih ⊢
        split <;> simp_all

theorem Tbl.find_del {α : Type} (k j : Nat) (t : Tbl α) :
    (Tbl.del t k).find? (fun p => p.1 == j) = if j = k then none else t.find? (fun p => p.1 == j) := by
  by_cases h : j = k
  · subst h
    simp only [if_true, List.find?_eq_none]
    intro p hp
    have := ((Tbl.mem_del j t p).1 hp).2
    simpa using this
  · rw [if_neg h]
    unfold Tbl.del
    induction t with
    | nil => rfl
    | cons p t ih =>
      rw [List.filter_cons]
      by_cases hp : p.1 = k
      · have h1 : (p.1 != k) = false := by simp [hp]
        have h2 : (p.1 == j) = false := by simp [hp]; exact fun e => h e.symm
        simp only [h1, List.find?_cons, h2]; simpa using ih
      · have h1 : (p.1 != k) = true := by simp [hp]
        simp only [h1, if_true, List.find?_cons, ih]

/-- A read after a write. -/
theorem Tbl.get_set {α : Type} [DecidableEq α] (d : Nat → α) (t : Tbl α) (k j : Nat) (v : α) :
    Tbl.get d (Tbl.set d t k v) j = if j = k then v else Tbl.get d t j := by
  by_cases hv : v = d k
  · rw [Tbl.set, if_pos hv]; unfold Tbl.get; rw [Tbl.find_del]
    by_cases h : j = k
    · simp [h, hv]
    · simp [h]
  · rw [Tbl.set, if_neg hv]; unfold Tbl.get
    rw [Tbl.find_ins k v j _ (fun p hp => ((Tbl.mem_del k t p).1 hp).2), Tbl.find_del]
    by_cases h : j = k
    · simp [h]
    · simp [h]

@[simp] theorem Tbl.get_nil {α : Type} (d : Nat → α) (k : Nat) : Tbl.get d [] k = d k := rfl

theorem Tbl.at_put {α : Type} [DecidableEq α] [Inhabited α] (t : Tbl α) (k j : Nat) (v : α) :
    Tbl.at (Tbl.put t k v) j = if j = k then v else Tbl.at t j :=
  Tbl.get_set _ t k j v

@[simp] theorem Tbl.at_put_self {α : Type} [DecidableEq α] [Inhabited α] (t : Tbl α) (k : Nat) (v : α) :
    Tbl.at (Tbl.put t k v) k = v := by
  rw [Tbl.at_put]; simp

theorem Tbl.at_put_ne {α : Type} [DecidableEq α] [Inhabited α] (t : Tbl α) (k j : Nat) (v : α) (h : j ≠ k) :
    Tbl.at (Tbl.put t k v) j = Tbl.at t j := by
  rw [Tbl.at_put, if_neg h]

theorem Tbl.at_mod {α : Type} [DecidableEq α] [Inhabited α] (t : Tbl α) (k j : Nat) (f : α → α) :
    Tbl.at (Tbl.mod t k f) j = if j = k then f (Tbl.at t k) else Tbl.at t j :=
  Tbl.at_put t k j _

@[simp] theorem Tbl.at_mod_self {α : Type} [DecidableEq α] [Inhabited α] (t : Tbl α) (k : Nat) (f : α → α) :
    Tbl.at (Tbl.mod t k f) k = f (Tbl.at t k) := by
  rw [Tbl.at_mod]; simp

theorem Tbl.at_mod_ne {α : Type} [DecidableEq α] [Inhabited α] (t : Tbl α) (k j : Nat) (f : α → α)
    (h : j ≠ k) : Tbl.at (Tbl.mod t k f) j = Tbl.at t j := by
  rw [Tbl.at_mod, if_neg h]

end Sys2Proof.Machine
end

