-- ==== Sys2Proof/Laws/Memory.lean ====
section
/-! SUPPORT. Laws of the Granary: a write gives the bytes written and leaves every other byte, and every
memory operation keeps the canonical form. -/

namespace Sys2Proof.Machine

/-- One byte of a Granary after a write. -/
theorem Hbm.byte_write (h : Hbm) (a : Nat) (bs : List Byte) (j : Nat) :
    (h.write a bs).byte j = if a ≤ j ∧ j < a + bs.length then bs.getD (j - a) 0 else h.byte j := by
  induction bs generalizing h a with
  | nil => rw [Hbm.write, if_neg (by simp only [List.length_nil]; omega)]
  | cons b bs ih =>
    rw [Hbm.write, ih]
    have hb : Hbm.byte { h with mem := Tbl.put h.mem a b } j = if j = a then b else h.byte j := by
      simp only [Hbm.byte, Tbl.at_put]
    by_cases h1 : a + 1 ≤ j ∧ j < a + 1 + bs.length
    · have h2 : a ≤ j ∧ j < a + (b :: bs).length := by simp only [List.length_cons]; omega
      rw [if_pos h1, if_pos h2]
      have : j - a = (j - (a + 1)) + 1 := by omega
      rw [this, List.getD_cons_succ]
    · rw [if_neg h1, hb]
      by_cases h3 : j = a
      · subst h3; simp
      · have h2 : ¬(a ≤ j ∧ j < a + (b :: bs).length) := by simp only [List.length_cons]; omega
        rw [if_neg h3, if_neg h2]

/-- A byte outside a write is unchanged. -/
theorem Hbm.byte_write_outside (h : Hbm) (a : Nat) (bs : List Byte) (j : Nat) (hj : j < a ∨ a + bs.length ≤ j) :
    (h.write a bs).byte j = h.byte j := by
  rw [Hbm.byte_write, if_neg (by omega)]

@[simp] theorem Hbm.byte_heal (h : Hbm) (a n j : Nat) : (h.heal a n).byte j = h.byte j := rfl

@[simp] theorem Hbm.wf_heal (h : Hbm) (a n : Nat) : (h.heal a n).wf = h.wf := rfl

/-- A write keeps the canonical form. -/
theorem Hbm.wf_write (h : Hbm) (a : Nat) (bs : List Byte) (hw : h.wf = true) : (h.write a bs).wf = true := by
  induction bs generalizing h a with
  | nil => exact hw
  | cons b bs ih => exact ih _ _ (Tbl.wf_put h.mem a b hw)

/-- What the responder's memory holds after `poke`. -/
theorem State.hbm_poke (s : State) (b : Bank) (a : Nat) (bs : List Byte) :
    (s.poke b a bs).hbm b = ((s.hbm b).write a bs).heal a bs.length := by
  cases b <;> rfl

/-- `poke` keeps the canonical form of both memories. -/
theorem State.wf_poke (s : State) (b : Bank) (a : Nat) (bs : List Byte)
    (h : s.qd.hbm.wf = true) (hm : s.qd.mhbm.wf = true) :
    (s.poke b a bs).qd.hbm.wf = true ∧ (s.poke b a bs).qd.mhbm.wf = true := by
  cases b
  · exact ⟨by show (((s.qd.hbm).write a bs).heal a bs.length).wf = true; simp [Hbm.wf_write _ _ _ h], hm⟩
  · exact ⟨h, by show (((s.qd.mhbm).write a bs).heal a bs.length).wf = true; simp [Hbm.wf_write _ _ _ hm]⟩
  · exact ⟨by show (((s.qd.hbm).write a bs).heal a bs.length).wf = true; simp [Hbm.wf_write _ _ _ h], hm⟩

/-- A byte of the responder's memory outside the bytes that `poke` stores. -/
theorem State.poke_frame (s : State) (b : Bank) (a : Nat) (bs : List Byte) (j : Nat)
    (hj : j < a ∨ a + bs.length ≤ j) : ((s.poke b a bs).hbm b).byte j = (s.hbm b).byte j := by
  rw [State.hbm_poke, Hbm.byte_heal, Hbm.byte_write_outside _ _ _ _ hj]

end Sys2Proof.Machine
end

