-- ==== Sys2Proof/Laws/State.lean ====
section
/-! SUPPORT. One lemma for each field and each update of the state. -/

namespace Sys2Proof.Machine

@[simp] theorem State.mapSw_sv (s : State) (f : Sw → Sw) : (s.mapSw f).sv = s.sv := rfl
@[simp] theorem State.mapSw_out (s : State) (f : Sw → Sw) : (s.mapSw f).out = s.out := rfl
@[simp] theorem State.mapSw_free (s : State) (f : Sw → Sw) : (s.mapSw f).free = s.free := rfl
@[simp] theorem State.mapSw_pending (s : State) (f : Sw → Sw) : (s.mapSw f).pending = s.pending := rfl
@[simp] theorem State.mapSw_variant (s : State) (f : Sw → Sw) : (s.mapSw f).qd.variant = s.qd.variant := rfl
@[simp] theorem State.mapSw_regs (s : State) (f : Sw → Sw) : (s.mapSw f).qd.regs = s.qd.regs := rfl
@[simp] theorem State.mapSw_stage (s : State) (f : Sw → Sw) : (s.mapSw f).qd.stage = s.qd.stage := rfl
@[simp] theorem State.mapSw_node (s : State) (f : Sw → Sw) : (s.mapSw f).qd.node = s.qd.node := rfl
@[simp] theorem State.mapSw_mnode (s : State) (f : Sw → Sw) : (s.mapSw f).qd.mnode = s.qd.mnode := rfl
@[simp] theorem State.mapSw_srcs (s : State) (f : Sw → Sw) : (s.mapSw f).qd.srcs = s.qd.srcs := rfl
@[simp] theorem State.mapSw_sw (s : State) (f : Sw → Sw) : (s.mapSw f).qd.sw = f s.qd.sw := rfl
@[simp] theorem State.mapSw_links (s : State) (f : Sw → Sw) : (s.mapSw f).qd.links = s.qd.links := rfl
@[simp] theorem State.mapSw_dir (s : State) (f : Sw → Sw) : (s.mapSw f).qd.dir = s.qd.dir := rfl
@[simp] theorem State.mapSw_rings (s : State) (f : Sw → Sw) : (s.mapSw f).qd.rings = s.qd.rings := rfl
@[simp] theorem State.mapSw_green (s : State) (f : Sw → Sw) : (s.mapSw f).qd.green = s.qd.green := rfl
@[simp] theorem State.mapSw_svc (s : State) (f : Sw → Sw) : (s.mapSw f).qd.svc = s.qd.svc := rfl
@[simp] theorem State.mapSw_grid (s : State) (f : Sw → Sw) : (s.mapSw f).qd.grid = s.qd.grid := rfl
@[simp] theorem State.mapSw_hbm (s : State) (f : Sw → Sw) : (s.mapSw f).qd.hbm = s.qd.hbm := rfl
@[simp] theorem State.mapSw_mhbm (s : State) (f : Sw → Sw) : (s.mapSw f).qd.mhbm = s.qd.mhbm := rfl
@[simp] theorem State.mapSw_cust (s : State) (f : Sw → Sw) : (s.mapSw f).qd.cust = s.qd.cust := rfl
@[simp] theorem State.mapSw_ferry (s : State) (f : Sw → Sw) : (s.mapSw f).qd.ferry = s.qd.ferry := rfl
@[simp] theorem State.mapSw_fault (s : State) (f : Sw → Sw) : (s.mapSw f).qd.fault = s.qd.fault := rfl
@[simp] theorem State.mapSw_trace (s : State) (f : Sw → Sw) : (s.mapSw f).qd.trace = s.qd.trace := rfl
@[simp] theorem State.mapSw_aon (s : State) (f : Sw → Sw) : (s.mapSw f).qd.aon = s.qd.aon := rfl
@[simp] theorem State.mapSw_boot (s : State) (f : Sw → Sw) : (s.mapSw f).qd.boot = s.qd.boot := rfl
@[simp] theorem State.mapSw_rslA (s : State) (f : Sw → Sw) : (s.mapSw f).qd.rslA = s.qd.rslA := rfl
@[simp] theorem State.mapSw_rslB (s : State) (f : Sw → Sw) : (s.mapSw f).qd.rslB = s.qd.rslB := rfl
@[simp] theorem State.mapSw_clk (s : State) (f : Sw → Sw) : (s.mapSw f).qd.clk = s.qd.clk := rfl
@[simp] theorem State.mapSw_health (s : State) (f : Sw → Sw) : (s.mapSw f).qd.health = s.qd.health := rfl
@[simp] theorem State.mapDir_sv (s : State) (f : Dir → Dir) : (s.mapDir f).sv = s.sv := rfl
@[simp] theorem State.mapDir_out (s : State) (f : Dir → Dir) : (s.mapDir f).out = s.out := rfl
@[simp] theorem State.mapDir_free (s : State) (f : Dir → Dir) : (s.mapDir f).free = s.free := rfl
@[simp] theorem State.mapDir_pending (s : State) (f : Dir → Dir) : (s.mapDir f).pending = s.pending := rfl
@[simp] theorem State.mapDir_variant (s : State) (f : Dir → Dir) : (s.mapDir f).qd.variant = s.qd.variant := rfl
@[simp] theorem State.mapDir_regs (s : State) (f : Dir → Dir) : (s.mapDir f).qd.regs = s.qd.regs := rfl
@[simp] theorem State.mapDir_stage (s : State) (f : Dir → Dir) : (s.mapDir f).qd.stage = s.qd.stage := rfl
@[simp] theorem State.mapDir_node (s : State) (f : Dir → Dir) : (s.mapDir f).qd.node = s.qd.node := rfl
@[simp] theorem State.mapDir_mnode (s : State) (f : Dir → Dir) : (s.mapDir f).qd.mnode = s.qd.mnode := rfl
@[simp] theorem State.mapDir_srcs (s : State) (f : Dir → Dir) : (s.mapDir f).qd.srcs = s.qd.srcs := rfl
@[simp] theorem State.mapDir_sw (s : State) (f : Dir → Dir) : (s.mapDir f).qd.sw = s.qd.sw := rfl
@[simp] theorem State.mapDir_links (s : State) (f : Dir → Dir) : (s.mapDir f).qd.links = s.qd.links := rfl
@[simp] theorem State.mapDir_dir (s : State) (f : Dir → Dir) : (s.mapDir f).qd.dir = f s.qd.dir := rfl
@[simp] theorem State.mapDir_rings (s : State) (f : Dir → Dir) : (s.mapDir f).qd.rings = s.qd.rings := rfl
@[simp] theorem State.mapDir_green (s : State) (f : Dir → Dir) : (s.mapDir f).qd.green = s.qd.green := rfl
@[simp] theorem State.mapDir_svc (s : State) (f : Dir → Dir) : (s.mapDir f).qd.svc = s.qd.svc := rfl
@[simp] theorem State.mapDir_grid (s : State) (f : Dir → Dir) : (s.mapDir f).qd.grid = s.qd.grid := rfl
@[simp] theorem State.mapDir_hbm (s : State) (f : Dir → Dir) : (s.mapDir f).qd.hbm = s.qd.hbm := rfl
@[simp] theorem State.mapDir_mhbm (s : State) (f : Dir → Dir) : (s.mapDir f).qd.mhbm = s.qd.mhbm := rfl
@[simp] theorem State.mapDir_cust (s : State) (f : Dir → Dir) : (s.mapDir f).qd.cust = s.qd.cust := rfl
@[simp] theorem State.mapDir_ferry (s : State) (f : Dir → Dir) : (s.mapDir f).qd.ferry = s.qd.ferry := rfl
@[simp] theorem State.mapDir_fault (s : State) (f : Dir → Dir) : (s.mapDir f).qd.fault = s.qd.fault := rfl
@[simp] theorem State.mapDir_trace (s : State) (f : Dir → Dir) : (s.mapDir f).qd.trace = s.qd.trace := rfl
@[simp] theorem State.mapDir_aon (s : State) (f : Dir → Dir) : (s.mapDir f).qd.aon = s.qd.aon := rfl
@[simp] theorem State.mapDir_boot (s : State) (f : Dir → Dir) : (s.mapDir f).qd.boot = s.qd.boot := rfl
@[simp] theorem State.mapDir_rslA (s : State) (f : Dir → Dir) : (s.mapDir f).qd.rslA = s.qd.rslA := rfl
@[simp] theorem State.mapDir_rslB (s : State) (f : Dir → Dir) : (s.mapDir f).qd.rslB = s.qd.rslB := rfl
@[simp] theorem State.mapDir_clk (s : State) (f : Dir → Dir) : (s.mapDir f).qd.clk = s.qd.clk := rfl
@[simp] theorem State.mapDir_health (s : State) (f : Dir → Dir) : (s.mapDir f).qd.health = s.qd.health := rfl
@[simp] theorem State.mapRings_sv (s : State) (f : Rings → Rings) : (s.mapRings f).sv = s.sv := rfl
@[simp] theorem State.mapRings_out (s : State) (f : Rings → Rings) : (s.mapRings f).out = s.out := rfl
@[simp] theorem State.mapRings_free (s : State) (f : Rings → Rings) : (s.mapRings f).free = s.free := rfl
@[simp] theorem State.mapRings_pending (s : State) (f : Rings → Rings) : (s.mapRings f).pending = s.pending := rfl
@[simp] theorem State.mapRings_variant (s : State) (f : Rings → Rings) : (s.mapRings f).qd.variant = s.qd.variant := rfl
@[simp] theorem State.mapRings_regs (s : State) (f : Rings → Rings) : (s.mapRings f).qd.regs = s.qd.regs := rfl
@[simp] theorem State.mapRings_stage (s : State) (f : Rings → Rings) : (s.mapRings f).qd.stage = s.qd.stage := rfl
@[simp] theorem State.mapRings_node (s : State) (f : Rings → Rings) : (s.mapRings f).qd.node = s.qd.node := rfl
@[simp] theorem State.mapRings_mnode (s : State) (f : Rings → Rings) : (s.mapRings f).qd.mnode = s.qd.mnode := rfl
@[simp] theorem State.mapRings_srcs (s : State) (f : Rings → Rings) : (s.mapRings f).qd.srcs = s.qd.srcs := rfl
@[simp] theorem State.mapRings_sw (s : State) (f : Rings → Rings) : (s.mapRings f).qd.sw = s.qd.sw := rfl
@[simp] theorem State.mapRings_links (s : State) (f : Rings → Rings) : (s.mapRings f).qd.links = s.qd.links := rfl
@[simp] theorem State.mapRings_dir (s : State) (f : Rings → Rings) : (s.mapRings f).qd.dir = s.qd.dir := rfl
@[simp] theorem State.mapRings_rings (s : State) (f : Rings → Rings) : (s.mapRings f).qd.rings = f s.qd.rings := rfl
@[simp] theorem State.mapRings_green (s : State) (f : Rings → Rings) : (s.mapRings f).qd.green = s.qd.green := rfl
@[simp] theorem State.mapRings_svc (s : State) (f : Rings → Rings) : (s.mapRings f).qd.svc = s.qd.svc := rfl
@[simp] theorem State.mapRings_grid (s : State) (f : Rings → Rings) : (s.mapRings f).qd.grid = s.qd.grid := rfl
@[simp] theorem State.mapRings_hbm (s : State) (f : Rings → Rings) : (s.mapRings f).qd.hbm = s.qd.hbm := rfl
@[simp] theorem State.mapRings_mhbm (s : State) (f : Rings → Rings) : (s.mapRings f).qd.mhbm = s.qd.mhbm := rfl
@[simp] theorem State.mapRings_cust (s : State) (f : Rings → Rings) : (s.mapRings f).qd.cust = s.qd.cust := rfl
@[simp] theorem State.mapRings_ferry (s : State) (f : Rings → Rings) : (s.mapRings f).qd.ferry = s.qd.ferry := rfl
@[simp] theorem State.mapRings_fault (s : State) (f : Rings → Rings) : (s.mapRings f).qd.fault = s.qd.fault := rfl
@[simp] theorem State.mapRings_trace (s : State) (f : Rings → Rings) : (s.mapRings f).qd.trace = s.qd.trace := rfl
@[simp] theorem State.mapRings_aon (s : State) (f : Rings → Rings) : (s.mapRings f).qd.aon = s.qd.aon := rfl
@[simp] theorem State.mapRings_boot (s : State) (f : Rings → Rings) : (s.mapRings f).qd.boot = s.qd.boot := rfl
@[simp] theorem State.mapRings_rslA (s : State) (f : Rings → Rings) : (s.mapRings f).qd.rslA = s.qd.rslA := rfl
@[simp] theorem State.mapRings_rslB (s : State) (f : Rings → Rings) : (s.mapRings f).qd.rslB = s.qd.rslB := rfl
@[simp] theorem State.mapRings_clk (s : State) (f : Rings → Rings) : (s.mapRings f).qd.clk = s.qd.clk := rfl
@[simp] theorem State.mapRings_health (s : State) (f : Rings → Rings) : (s.mapRings f).qd.health = s.qd.health := rfl
@[simp] theorem State.mapGrid_sv (s : State) (f : Grid → Grid) : (s.mapGrid f).sv = s.sv := rfl
@[simp] theorem State.mapGrid_out (s : State) (f : Grid → Grid) : (s.mapGrid f).out = s.out := rfl
@[simp] theorem State.mapGrid_free (s : State) (f : Grid → Grid) : (s.mapGrid f).free = s.free := rfl
@[simp] theorem State.mapGrid_pending (s : State) (f : Grid → Grid) : (s.mapGrid f).pending = s.pending := rfl
@[simp] theorem State.mapGrid_variant (s : State) (f : Grid → Grid) : (s.mapGrid f).qd.variant = s.qd.variant := rfl
@[simp] theorem State.mapGrid_regs (s : State) (f : Grid → Grid) : (s.mapGrid f).qd.regs = s.qd.regs := rfl
@[simp] theorem State.mapGrid_stage (s : State) (f : Grid → Grid) : (s.mapGrid f).qd.stage = s.qd.stage := rfl
@[simp] theorem State.mapGrid_node (s : State) (f : Grid → Grid) : (s.mapGrid f).qd.node = s.qd.node := rfl
@[simp] theorem State.mapGrid_mnode (s : State) (f : Grid → Grid) : (s.mapGrid f).qd.mnode = s.qd.mnode := rfl
@[simp] theorem State.mapGrid_srcs (s : State) (f : Grid → Grid) : (s.mapGrid f).qd.srcs = s.qd.srcs := rfl
@[simp] theorem State.mapGrid_sw (s : State) (f : Grid → Grid) : (s.mapGrid f).qd.sw = s.qd.sw := rfl
@[simp] theorem State.mapGrid_links (s : State) (f : Grid → Grid) : (s.mapGrid f).qd.links = s.qd.links := rfl
@[simp] theorem State.mapGrid_dir (s : State) (f : Grid → Grid) : (s.mapGrid f).qd.dir = s.qd.dir := rfl
@[simp] theorem State.mapGrid_rings (s : State) (f : Grid → Grid) : (s.mapGrid f).qd.rings = s.qd.rings := rfl
@[simp] theorem State.mapGrid_green (s : State) (f : Grid → Grid) : (s.mapGrid f).qd.green = s.qd.green := rfl
@[simp] theorem State.mapGrid_svc (s : State) (f : Grid → Grid) : (s.mapGrid f).qd.svc = s.qd.svc := rfl
@[simp] theorem State.mapGrid_grid (s : State) (f : Grid → Grid) : (s.mapGrid f).qd.grid = f s.qd.grid := rfl
@[simp] theorem State.mapGrid_hbm (s : State) (f : Grid → Grid) : (s.mapGrid f).qd.hbm = s.qd.hbm := rfl
@[simp] theorem State.mapGrid_mhbm (s : State) (f : Grid → Grid) : (s.mapGrid f).qd.mhbm = s.qd.mhbm := rfl
@[simp] theorem State.mapGrid_cust (s : State) (f : Grid → Grid) : (s.mapGrid f).qd.cust = s.qd.cust := rfl
@[simp] theorem State.mapGrid_ferry (s : State) (f : Grid → Grid) : (s.mapGrid f).qd.ferry = s.qd.ferry := rfl
@[simp] theorem State.mapGrid_fault (s : State) (f : Grid → Grid) : (s.mapGrid f).qd.fault = s.qd.fault := rfl
@[simp] theorem State.mapGrid_trace (s : State) (f : Grid → Grid) : (s.mapGrid f).qd.trace = s.qd.trace := rfl
@[simp] theorem State.mapGrid_aon (s : State) (f : Grid → Grid) : (s.mapGrid f).qd.aon = s.qd.aon := rfl
@[simp] theorem State.mapGrid_boot (s : State) (f : Grid → Grid) : (s.mapGrid f).qd.boot = s.qd.boot := rfl
@[simp] theorem State.mapGrid_rslA (s : State) (f : Grid → Grid) : (s.mapGrid f).qd.rslA = s.qd.rslA := rfl
@[simp] theorem State.mapGrid_rslB (s : State) (f : Grid → Grid) : (s.mapGrid f).qd.rslB = s.qd.rslB := rfl
@[simp] theorem State.mapGrid_clk (s : State) (f : Grid → Grid) : (s.mapGrid f).qd.clk = s.qd.clk := rfl
@[simp] theorem State.mapGrid_health (s : State) (f : Grid → Grid) : (s.mapGrid f).qd.health = s.qd.health := rfl
@[simp] theorem State.mapFault_sv (s : State) (f : FaultMgr → FaultMgr) : (s.mapFault f).sv = s.sv := rfl
@[simp] theorem State.mapFault_out (s : State) (f : FaultMgr → FaultMgr) : (s.mapFault f).out = s.out := rfl
@[simp] theorem State.mapFault_free (s : State) (f : FaultMgr → FaultMgr) : (s.mapFault f).free = s.free := rfl
@[simp] theorem State.mapFault_pending (s : State) (f : FaultMgr → FaultMgr) : (s.mapFault f).pending = s.pending := rfl
@[simp] theorem State.mapFault_variant (s : State) (f : FaultMgr → FaultMgr) : (s.mapFault f).qd.variant = s.qd.variant := rfl
@[simp] theorem State.mapFault_regs (s : State) (f : FaultMgr → FaultMgr) : (s.mapFault f).qd.regs = s.qd.regs := rfl
@[simp] theorem State.mapFault_stage (s : State) (f : FaultMgr → FaultMgr) : (s.mapFault f).qd.stage = s.qd.stage := rfl
@[simp] theorem State.mapFault_node (s : State) (f : FaultMgr → FaultMgr) : (s.mapFault f).qd.node = s.qd.node := rfl
@[simp] theorem State.mapFault_mnode (s : State) (f : FaultMgr → FaultMgr) : (s.mapFault f).qd.mnode = s.qd.mnode := rfl
@[simp] theorem State.mapFault_srcs (s : State) (f : FaultMgr → FaultMgr) : (s.mapFault f).qd.srcs = s.qd.srcs := rfl
@[simp] theorem State.mapFault_sw (s : State) (f : FaultMgr → FaultMgr) : (s.mapFault f).qd.sw = s.qd.sw := rfl
@[simp] theorem State.mapFault_links (s : State) (f : FaultMgr → FaultMgr) : (s.mapFault f).qd.links = s.qd.links := rfl
@[simp] theorem State.mapFault_dir (s : State) (f : FaultMgr → FaultMgr) : (s.mapFault f).qd.dir = s.qd.dir := rfl
@[simp] theorem State.mapFault_rings (s : State) (f : FaultMgr → FaultMgr) : (s.mapFault f).qd.rings = s.qd.rings := rfl
@[simp] theorem State.mapFault_green (s : State) (f : FaultMgr → FaultMgr) : (s.mapFault f).qd.green = s.qd.green := rfl
@[simp] theorem State.mapFault_svc (s : State) (f : FaultMgr → FaultMgr) : (s.mapFault f).qd.svc = s.qd.svc := rfl
@[simp] theorem State.mapFault_grid (s : State) (f : FaultMgr → FaultMgr) : (s.mapFault f).qd.grid = s.qd.grid := rfl
@[simp] theorem State.mapFault_hbm (s : State) (f : FaultMgr → FaultMgr) : (s.mapFault f).qd.hbm = s.qd.hbm := rfl
@[simp] theorem State.mapFault_mhbm (s : State) (f : FaultMgr → FaultMgr) : (s.mapFault f).qd.mhbm = s.qd.mhbm := rfl
@[simp] theorem State.mapFault_cust (s : State) (f : FaultMgr → FaultMgr) : (s.mapFault f).qd.cust = s.qd.cust := rfl
@[simp] theorem State.mapFault_ferry (s : State) (f : FaultMgr → FaultMgr) : (s.mapFault f).qd.ferry = s.qd.ferry := rfl
@[simp] theorem State.mapFault_fault (s : State) (f : FaultMgr → FaultMgr) : (s.mapFault f).qd.fault = f s.qd.fault := rfl
@[simp] theorem State.mapFault_trace (s : State) (f : FaultMgr → FaultMgr) : (s.mapFault f).qd.trace = s.qd.trace := rfl
@[simp] theorem State.mapFault_aon (s : State) (f : FaultMgr → FaultMgr) : (s.mapFault f).qd.aon = s.qd.aon := rfl
@[simp] theorem State.mapFault_boot (s : State) (f : FaultMgr → FaultMgr) : (s.mapFault f).qd.boot = s.qd.boot := rfl
@[simp] theorem State.mapFault_rslA (s : State) (f : FaultMgr → FaultMgr) : (s.mapFault f).qd.rslA = s.qd.rslA := rfl
@[simp] theorem State.mapFault_rslB (s : State) (f : FaultMgr → FaultMgr) : (s.mapFault f).qd.rslB = s.qd.rslB := rfl
@[simp] theorem State.mapFault_clk (s : State) (f : FaultMgr → FaultMgr) : (s.mapFault f).qd.clk = s.qd.clk := rfl
@[simp] theorem State.mapFault_health (s : State) (f : FaultMgr → FaultMgr) : (s.mapFault f).qd.health = s.qd.health := rfl
@[simp] theorem State.mapClk_sv (s : State) (f : Clk → Clk) : (s.mapClk f).sv = s.sv := rfl
@[simp] theorem State.mapClk_out (s : State) (f : Clk → Clk) : (s.mapClk f).out = s.out := rfl
@[simp] theorem State.mapClk_free (s : State) (f : Clk → Clk) : (s.mapClk f).free = s.free := rfl
@[simp] theorem State.mapClk_pending (s : State) (f : Clk → Clk) : (s.mapClk f).pending = s.pending := rfl
@[simp] theorem State.mapClk_variant (s : State) (f : Clk → Clk) : (s.mapClk f).qd.variant = s.qd.variant := rfl
@[simp] theorem State.mapClk_regs (s : State) (f : Clk → Clk) : (s.mapClk f).qd.regs = s.qd.regs := rfl
@[simp] theorem State.mapClk_stage (s : State) (f : Clk → Clk) : (s.mapClk f).qd.stage = s.qd.stage := rfl
@[simp] theorem State.mapClk_node (s : State) (f : Clk → Clk) : (s.mapClk f).qd.node = s.qd.node := rfl
@[simp] theorem State.mapClk_mnode (s : State) (f : Clk → Clk) : (s.mapClk f).qd.mnode = s.qd.mnode := rfl
@[simp] theorem State.mapClk_srcs (s : State) (f : Clk → Clk) : (s.mapClk f).qd.srcs = s.qd.srcs := rfl
@[simp] theorem State.mapClk_sw (s : State) (f : Clk → Clk) : (s.mapClk f).qd.sw = s.qd.sw := rfl
@[simp] theorem State.mapClk_links (s : State) (f : Clk → Clk) : (s.mapClk f).qd.links = s.qd.links := rfl
@[simp] theorem State.mapClk_dir (s : State) (f : Clk → Clk) : (s.mapClk f).qd.dir = s.qd.dir := rfl
@[simp] theorem State.mapClk_rings (s : State) (f : Clk → Clk) : (s.mapClk f).qd.rings = s.qd.rings := rfl
@[simp] theorem State.mapClk_green (s : State) (f : Clk → Clk) : (s.mapClk f).qd.green = s.qd.green := rfl
@[simp] theorem State.mapClk_svc (s : State) (f : Clk → Clk) : (s.mapClk f).qd.svc = s.qd.svc := rfl
@[simp] theorem State.mapClk_grid (s : State) (f : Clk → Clk) : (s.mapClk f).qd.grid = s.qd.grid := rfl
@[simp] theorem State.mapClk_hbm (s : State) (f : Clk → Clk) : (s.mapClk f).qd.hbm = s.qd.hbm := rfl
@[simp] theorem State.mapClk_mhbm (s : State) (f : Clk → Clk) : (s.mapClk f).qd.mhbm = s.qd.mhbm := rfl
@[simp] theorem State.mapClk_cust (s : State) (f : Clk → Clk) : (s.mapClk f).qd.cust = s.qd.cust := rfl
@[simp] theorem State.mapClk_ferry (s : State) (f : Clk → Clk) : (s.mapClk f).qd.ferry = s.qd.ferry := rfl
@[simp] theorem State.mapClk_fault (s : State) (f : Clk → Clk) : (s.mapClk f).qd.fault = s.qd.fault := rfl
@[simp] theorem State.mapClk_trace (s : State) (f : Clk → Clk) : (s.mapClk f).qd.trace = s.qd.trace := rfl
@[simp] theorem State.mapClk_aon (s : State) (f : Clk → Clk) : (s.mapClk f).qd.aon = s.qd.aon := rfl
@[simp] theorem State.mapClk_boot (s : State) (f : Clk → Clk) : (s.mapClk f).qd.boot = s.qd.boot := rfl
@[simp] theorem State.mapClk_rslA (s : State) (f : Clk → Clk) : (s.mapClk f).qd.rslA = s.qd.rslA := rfl
@[simp] theorem State.mapClk_rslB (s : State) (f : Clk → Clk) : (s.mapClk f).qd.rslB = s.qd.rslB := rfl
@[simp] theorem State.mapClk_clk (s : State) (f : Clk → Clk) : (s.mapClk f).qd.clk = f s.qd.clk := rfl
@[simp] theorem State.mapClk_health (s : State) (f : Clk → Clk) : (s.mapClk f).qd.health = s.qd.health := rfl
@[simp] theorem State.mapBoot_sv (s : State) (f : Boot → Boot) : (s.mapBoot f).sv = s.sv := rfl
@[simp] theorem State.mapBoot_out (s : State) (f : Boot → Boot) : (s.mapBoot f).out = s.out := rfl
@[simp] theorem State.mapBoot_free (s : State) (f : Boot → Boot) : (s.mapBoot f).free = s.free := rfl
@[simp] theorem State.mapBoot_pending (s : State) (f : Boot → Boot) : (s.mapBoot f).pending = s.pending := rfl
@[simp] theorem State.mapBoot_variant (s : State) (f : Boot → Boot) : (s.mapBoot f).qd.variant = s.qd.variant := rfl
@[simp] theorem State.mapBoot_regs (s : State) (f : Boot → Boot) : (s.mapBoot f).qd.regs = s.qd.regs := rfl
@[simp] theorem State.mapBoot_stage (s : State) (f : Boot → Boot) : (s.mapBoot f).qd.stage = s.qd.stage := rfl
@[simp] theorem State.mapBoot_node (s : State) (f : Boot → Boot) : (s.mapBoot f).qd.node = s.qd.node := rfl
@[simp] theorem State.mapBoot_mnode (s : State) (f : Boot → Boot) : (s.mapBoot f).qd.mnode = s.qd.mnode := rfl
@[simp] theorem State.mapBoot_srcs (s : State) (f : Boot → Boot) : (s.mapBoot f).qd.srcs = s.qd.srcs := rfl
@[simp] theorem State.mapBoot_sw (s : State) (f : Boot → Boot) : (s.mapBoot f).qd.sw = s.qd.sw := rfl
@[simp] theorem State.mapBoot_links (s : State) (f : Boot → Boot) : (s.mapBoot f).qd.links = s.qd.links := rfl
@[simp] theorem State.mapBoot_dir (s : State) (f : Boot → Boot) : (s.mapBoot f).qd.dir = s.qd.dir := rfl
@[simp] theorem State.mapBoot_rings (s : State) (f : Boot → Boot) : (s.mapBoot f).qd.rings = s.qd.rings := rfl
@[simp] theorem State.mapBoot_green (s : State) (f : Boot → Boot) : (s.mapBoot f).qd.green = s.qd.green := rfl
@[simp] theorem State.mapBoot_svc (s : State) (f : Boot → Boot) : (s.mapBoot f).qd.svc = s.qd.svc := rfl
@[simp] theorem State.mapBoot_grid (s : State) (f : Boot → Boot) : (s.mapBoot f).qd.grid = s.qd.grid := rfl
@[simp] theorem State.mapBoot_hbm (s : State) (f : Boot → Boot) : (s.mapBoot f).qd.hbm = s.qd.hbm := rfl
@[simp] theorem State.mapBoot_mhbm (s : State) (f : Boot → Boot) : (s.mapBoot f).qd.mhbm = s.qd.mhbm := rfl
@[simp] theorem State.mapBoot_cust (s : State) (f : Boot → Boot) : (s.mapBoot f).qd.cust = s.qd.cust := rfl
@[simp] theorem State.mapBoot_ferry (s : State) (f : Boot → Boot) : (s.mapBoot f).qd.ferry = s.qd.ferry := rfl
@[simp] theorem State.mapBoot_fault (s : State) (f : Boot → Boot) : (s.mapBoot f).qd.fault = s.qd.fault := rfl
@[simp] theorem State.mapBoot_trace (s : State) (f : Boot → Boot) : (s.mapBoot f).qd.trace = s.qd.trace := rfl
@[simp] theorem State.mapBoot_aon (s : State) (f : Boot → Boot) : (s.mapBoot f).qd.aon = s.qd.aon := rfl
@[simp] theorem State.mapBoot_boot (s : State) (f : Boot → Boot) : (s.mapBoot f).qd.boot = f s.qd.boot := rfl
@[simp] theorem State.mapBoot_rslA (s : State) (f : Boot → Boot) : (s.mapBoot f).qd.rslA = s.qd.rslA := rfl
@[simp] theorem State.mapBoot_rslB (s : State) (f : Boot → Boot) : (s.mapBoot f).qd.rslB = s.qd.rslB := rfl
@[simp] theorem State.mapBoot_clk (s : State) (f : Boot → Boot) : (s.mapBoot f).qd.clk = s.qd.clk := rfl
@[simp] theorem State.mapBoot_health (s : State) (f : Boot → Boot) : (s.mapBoot f).qd.health = s.qd.health := rfl
@[simp] theorem State.mapCust_sv (s : State) (f : Cust → Cust) : (s.mapCust f).sv = s.sv := rfl
@[simp] theorem State.mapCust_out (s : State) (f : Cust → Cust) : (s.mapCust f).out = s.out := rfl
@[simp] theorem State.mapCust_free (s : State) (f : Cust → Cust) : (s.mapCust f).free = s.free := rfl
@[simp] theorem State.mapCust_pending (s : State) (f : Cust → Cust) : (s.mapCust f).pending = s.pending := rfl
@[simp] theorem State.mapCust_variant (s : State) (f : Cust → Cust) : (s.mapCust f).qd.variant = s.qd.variant := rfl
@[simp] theorem State.mapCust_regs (s : State) (f : Cust → Cust) : (s.mapCust f).qd.regs = s.qd.regs := rfl
@[simp] theorem State.mapCust_stage (s : State) (f : Cust → Cust) : (s.mapCust f).qd.stage = s.qd.stage := rfl
@[simp] theorem State.mapCust_node (s : State) (f : Cust → Cust) : (s.mapCust f).qd.node = s.qd.node := rfl
@[simp] theorem State.mapCust_mnode (s : State) (f : Cust → Cust) : (s.mapCust f).qd.mnode = s.qd.mnode := rfl
@[simp] theorem State.mapCust_srcs (s : State) (f : Cust → Cust) : (s.mapCust f).qd.srcs = s.qd.srcs := rfl
@[simp] theorem State.mapCust_sw (s : State) (f : Cust → Cust) : (s.mapCust f).qd.sw = s.qd.sw := rfl
@[simp] theorem State.mapCust_links (s : State) (f : Cust → Cust) : (s.mapCust f).qd.links = s.qd.links := rfl
@[simp] theorem State.mapCust_dir (s : State) (f : Cust → Cust) : (s.mapCust f).qd.dir = s.qd.dir := rfl
@[simp] theorem State.mapCust_rings (s : State) (f : Cust → Cust) : (s.mapCust f).qd.rings = s.qd.rings := rfl
@[simp] theorem State.mapCust_green (s : State) (f : Cust → Cust) : (s.mapCust f).qd.green = s.qd.green := rfl
@[simp] theorem State.mapCust_svc (s : State) (f : Cust → Cust) : (s.mapCust f).qd.svc = s.qd.svc := rfl
@[simp] theorem State.mapCust_grid (s : State) (f : Cust → Cust) : (s.mapCust f).qd.grid = s.qd.grid := rfl
@[simp] theorem State.mapCust_hbm (s : State) (f : Cust → Cust) : (s.mapCust f).qd.hbm = s.qd.hbm := rfl
@[simp] theorem State.mapCust_mhbm (s : State) (f : Cust → Cust) : (s.mapCust f).qd.mhbm = s.qd.mhbm := rfl
@[simp] theorem State.mapCust_cust (s : State) (f : Cust → Cust) : (s.mapCust f).qd.cust = f s.qd.cust := rfl
@[simp] theorem State.mapCust_ferry (s : State) (f : Cust → Cust) : (s.mapCust f).qd.ferry = s.qd.ferry := rfl
@[simp] theorem State.mapCust_fault (s : State) (f : Cust → Cust) : (s.mapCust f).qd.fault = s.qd.fault := rfl
@[simp] theorem State.mapCust_trace (s : State) (f : Cust → Cust) : (s.mapCust f).qd.trace = s.qd.trace := rfl
@[simp] theorem State.mapCust_aon (s : State) (f : Cust → Cust) : (s.mapCust f).qd.aon = s.qd.aon := rfl
@[simp] theorem State.mapCust_boot (s : State) (f : Cust → Cust) : (s.mapCust f).qd.boot = s.qd.boot := rfl
@[simp] theorem State.mapCust_rslA (s : State) (f : Cust → Cust) : (s.mapCust f).qd.rslA = s.qd.rslA := rfl
@[simp] theorem State.mapCust_rslB (s : State) (f : Cust → Cust) : (s.mapCust f).qd.rslB = s.qd.rslB := rfl
@[simp] theorem State.mapCust_clk (s : State) (f : Cust → Cust) : (s.mapCust f).qd.clk = s.qd.clk := rfl
@[simp] theorem State.mapCust_health (s : State) (f : Cust → Cust) : (s.mapCust f).qd.health = s.qd.health := rfl
@[simp] theorem State.mapFerry_sv (s : State) (f : Ferry → Ferry) : (s.mapFerry f).sv = s.sv := rfl
@[simp] theorem State.mapFerry_out (s : State) (f : Ferry → Ferry) : (s.mapFerry f).out = s.out := rfl
@[simp] theorem State.mapFerry_free (s : State) (f : Ferry → Ferry) : (s.mapFerry f).free = s.free := rfl
@[simp] theorem State.mapFerry_pending (s : State) (f : Ferry → Ferry) : (s.mapFerry f).pending = s.pending := rfl
@[simp] theorem State.mapFerry_variant (s : State) (f : Ferry → Ferry) : (s.mapFerry f).qd.variant = s.qd.variant := rfl
@[simp] theorem State.mapFerry_regs (s : State) (f : Ferry → Ferry) : (s.mapFerry f).qd.regs = s.qd.regs := rfl
@[simp] theorem State.mapFerry_stage (s : State) (f : Ferry → Ferry) : (s.mapFerry f).qd.stage = s.qd.stage := rfl
@[simp] theorem State.mapFerry_node (s : State) (f : Ferry → Ferry) : (s.mapFerry f).qd.node = s.qd.node := rfl
@[simp] theorem State.mapFerry_mnode (s : State) (f : Ferry → Ferry) : (s.mapFerry f).qd.mnode = s.qd.mnode := rfl
@[simp] theorem State.mapFerry_srcs (s : State) (f : Ferry → Ferry) : (s.mapFerry f).qd.srcs = s.qd.srcs := rfl
@[simp] theorem State.mapFerry_sw (s : State) (f : Ferry → Ferry) : (s.mapFerry f).qd.sw = s.qd.sw := rfl
@[simp] theorem State.mapFerry_links (s : State) (f : Ferry → Ferry) : (s.mapFerry f).qd.links = s.qd.links := rfl
@[simp] theorem State.mapFerry_dir (s : State) (f : Ferry → Ferry) : (s.mapFerry f).qd.dir = s.qd.dir := rfl
@[simp] theorem State.mapFerry_rings (s : State) (f : Ferry → Ferry) : (s.mapFerry f).qd.rings = s.qd.rings := rfl
@[simp] theorem State.mapFerry_green (s : State) (f : Ferry → Ferry) : (s.mapFerry f).qd.green = s.qd.green := rfl
@[simp] theorem State.mapFerry_svc (s : State) (f : Ferry → Ferry) : (s.mapFerry f).qd.svc = s.qd.svc := rfl
@[simp] theorem State.mapFerry_grid (s : State) (f : Ferry → Ferry) : (s.mapFerry f).qd.grid = s.qd.grid := rfl
@[simp] theorem State.mapFerry_hbm (s : State) (f : Ferry → Ferry) : (s.mapFerry f).qd.hbm = s.qd.hbm := rfl
@[simp] theorem State.mapFerry_mhbm (s : State) (f : Ferry → Ferry) : (s.mapFerry f).qd.mhbm = s.qd.mhbm := rfl
@[simp] theorem State.mapFerry_cust (s : State) (f : Ferry → Ferry) : (s.mapFerry f).qd.cust = s.qd.cust := rfl
@[simp] theorem State.mapFerry_ferry (s : State) (f : Ferry → Ferry) : (s.mapFerry f).qd.ferry = f s.qd.ferry := rfl
@[simp] theorem State.mapFerry_fault (s : State) (f : Ferry → Ferry) : (s.mapFerry f).qd.fault = s.qd.fault := rfl
@[simp] theorem State.mapFerry_trace (s : State) (f : Ferry → Ferry) : (s.mapFerry f).qd.trace = s.qd.trace := rfl
@[simp] theorem State.mapFerry_aon (s : State) (f : Ferry → Ferry) : (s.mapFerry f).qd.aon = s.qd.aon := rfl
@[simp] theorem State.mapFerry_boot (s : State) (f : Ferry → Ferry) : (s.mapFerry f).qd.boot = s.qd.boot := rfl
@[simp] theorem State.mapFerry_rslA (s : State) (f : Ferry → Ferry) : (s.mapFerry f).qd.rslA = s.qd.rslA := rfl
@[simp] theorem State.mapFerry_rslB (s : State) (f : Ferry → Ferry) : (s.mapFerry f).qd.rslB = s.qd.rslB := rfl
@[simp] theorem State.mapFerry_clk (s : State) (f : Ferry → Ferry) : (s.mapFerry f).qd.clk = s.qd.clk := rfl
@[simp] theorem State.mapFerry_health (s : State) (f : Ferry → Ferry) : (s.mapFerry f).qd.health = s.qd.health := rfl
@[simp] theorem State.mapGreen_sv (s : State) (f : Green → Green) : (s.mapGreen f).sv = s.sv := rfl
@[simp] theorem State.mapGreen_out (s : State) (f : Green → Green) : (s.mapGreen f).out = s.out := rfl
@[simp] theorem State.mapGreen_free (s : State) (f : Green → Green) : (s.mapGreen f).free = s.free := rfl
@[simp] theorem State.mapGreen_pending (s : State) (f : Green → Green) : (s.mapGreen f).pending = s.pending := rfl
@[simp] theorem State.mapGreen_variant (s : State) (f : Green → Green) : (s.mapGreen f).qd.variant = s.qd.variant := rfl
@[simp] theorem State.mapGreen_regs (s : State) (f : Green → Green) : (s.mapGreen f).qd.regs = s.qd.regs := rfl
@[simp] theorem State.mapGreen_stage (s : State) (f : Green → Green) : (s.mapGreen f).qd.stage = s.qd.stage := rfl
@[simp] theorem State.mapGreen_node (s : State) (f : Green → Green) : (s.mapGreen f).qd.node = s.qd.node := rfl
@[simp] theorem State.mapGreen_mnode (s : State) (f : Green → Green) : (s.mapGreen f).qd.mnode = s.qd.mnode := rfl
@[simp] theorem State.mapGreen_srcs (s : State) (f : Green → Green) : (s.mapGreen f).qd.srcs = s.qd.srcs := rfl
@[simp] theorem State.mapGreen_sw (s : State) (f : Green → Green) : (s.mapGreen f).qd.sw = s.qd.sw := rfl
@[simp] theorem State.mapGreen_links (s : State) (f : Green → Green) : (s.mapGreen f).qd.links = s.qd.links := rfl
@[simp] theorem State.mapGreen_dir (s : State) (f : Green → Green) : (s.mapGreen f).qd.dir = s.qd.dir := rfl
@[simp] theorem State.mapGreen_rings (s : State) (f : Green → Green) : (s.mapGreen f).qd.rings = s.qd.rings := rfl
@[simp] theorem State.mapGreen_green (s : State) (f : Green → Green) : (s.mapGreen f).qd.green = f s.qd.green := rfl
@[simp] theorem State.mapGreen_svc (s : State) (f : Green → Green) : (s.mapGreen f).qd.svc = s.qd.svc := rfl
@[simp] theorem State.mapGreen_grid (s : State) (f : Green → Green) : (s.mapGreen f).qd.grid = s.qd.grid := rfl
@[simp] theorem State.mapGreen_hbm (s : State) (f : Green → Green) : (s.mapGreen f).qd.hbm = s.qd.hbm := rfl
@[simp] theorem State.mapGreen_mhbm (s : State) (f : Green → Green) : (s.mapGreen f).qd.mhbm = s.qd.mhbm := rfl
@[simp] theorem State.mapGreen_cust (s : State) (f : Green → Green) : (s.mapGreen f).qd.cust = s.qd.cust := rfl
@[simp] theorem State.mapGreen_ferry (s : State) (f : Green → Green) : (s.mapGreen f).qd.ferry = s.qd.ferry := rfl
@[simp] theorem State.mapGreen_fault (s : State) (f : Green → Green) : (s.mapGreen f).qd.fault = s.qd.fault := rfl
@[simp] theorem State.mapGreen_trace (s : State) (f : Green → Green) : (s.mapGreen f).qd.trace = s.qd.trace := rfl
@[simp] theorem State.mapGreen_aon (s : State) (f : Green → Green) : (s.mapGreen f).qd.aon = s.qd.aon := rfl
@[simp] theorem State.mapGreen_boot (s : State) (f : Green → Green) : (s.mapGreen f).qd.boot = s.qd.boot := rfl
@[simp] theorem State.mapGreen_rslA (s : State) (f : Green → Green) : (s.mapGreen f).qd.rslA = s.qd.rslA := rfl
@[simp] theorem State.mapGreen_rslB (s : State) (f : Green → Green) : (s.mapGreen f).qd.rslB = s.qd.rslB := rfl
@[simp] theorem State.mapGreen_clk (s : State) (f : Green → Green) : (s.mapGreen f).qd.clk = s.qd.clk := rfl
@[simp] theorem State.mapGreen_health (s : State) (f : Green → Green) : (s.mapGreen f).qd.health = s.qd.health := rfl
@[simp] theorem State.mapMill_sv (s : State) (m : Nat) (f : Mill → Mill) : (s.mapMill m f).sv = s.sv := rfl
@[simp] theorem State.mapMill_out (s : State) (m : Nat) (f : Mill → Mill) : (s.mapMill m f).out = s.out := rfl
@[simp] theorem State.mapMill_free (s : State) (m : Nat) (f : Mill → Mill) : (s.mapMill m f).free = s.free := rfl
@[simp] theorem State.mapMill_pending (s : State) (m : Nat) (f : Mill → Mill) : (s.mapMill m f).pending = s.pending := rfl
@[simp] theorem State.mapMill_variant (s : State) (m : Nat) (f : Mill → Mill) : (s.mapMill m f).qd.variant = s.qd.variant := rfl
@[simp] theorem State.mapMill_regs (s : State) (m : Nat) (f : Mill → Mill) : (s.mapMill m f).qd.regs = s.qd.regs := rfl
@[simp] theorem State.mapMill_stage (s : State) (m : Nat) (f : Mill → Mill) : (s.mapMill m f).qd.stage = s.qd.stage := rfl
@[simp] theorem State.mapMill_node (s : State) (m : Nat) (f : Mill → Mill) : (s.mapMill m f).qd.node = s.qd.node := rfl
@[simp] theorem State.mapMill_mnode (s : State) (m : Nat) (f : Mill → Mill) : (s.mapMill m f).qd.mnode = s.qd.mnode := rfl
@[simp] theorem State.mapMill_srcs (s : State) (m : Nat) (f : Mill → Mill) : (s.mapMill m f).qd.srcs = s.qd.srcs := rfl
@[simp] theorem State.mapMill_sw (s : State) (m : Nat) (f : Mill → Mill) : (s.mapMill m f).qd.sw = s.qd.sw := rfl
@[simp] theorem State.mapMill_links (s : State) (m : Nat) (f : Mill → Mill) : (s.mapMill m f).qd.links = s.qd.links := rfl
@[simp] theorem State.mapMill_dir (s : State) (m : Nat) (f : Mill → Mill) : (s.mapMill m f).qd.dir = s.qd.dir := rfl
@[simp] theorem State.mapMill_rings (s : State) (m : Nat) (f : Mill → Mill) : (s.mapMill m f).qd.rings = s.qd.rings := rfl
@[simp] theorem State.mapMill_green (s : State) (m : Nat) (f : Mill → Mill) : (s.mapMill m f).qd.green = s.qd.green := rfl
@[simp] theorem State.mapMill_svc (s : State) (m : Nat) (f : Mill → Mill) : (s.mapMill m f).qd.svc = s.qd.svc := rfl
@[simp] theorem State.mapMill_hbm (s : State) (m : Nat) (f : Mill → Mill) : (s.mapMill m f).qd.hbm = s.qd.hbm := rfl
@[simp] theorem State.mapMill_mhbm (s : State) (m : Nat) (f : Mill → Mill) : (s.mapMill m f).qd.mhbm = s.qd.mhbm := rfl
@[simp] theorem State.mapMill_cust (s : State) (m : Nat) (f : Mill → Mill) : (s.mapMill m f).qd.cust = s.qd.cust := rfl
@[simp] theorem State.mapMill_ferry (s : State) (m : Nat) (f : Mill → Mill) : (s.mapMill m f).qd.ferry = s.qd.ferry := rfl
@[simp] theorem State.mapMill_fault (s : State) (m : Nat) (f : Mill → Mill) : (s.mapMill m f).qd.fault = s.qd.fault := rfl
@[simp] theorem State.mapMill_trace (s : State) (m : Nat) (f : Mill → Mill) : (s.mapMill m f).qd.trace = s.qd.trace := rfl
@[simp] theorem State.mapMill_aon (s : State) (m : Nat) (f : Mill → Mill) : (s.mapMill m f).qd.aon = s.qd.aon := rfl
@[simp] theorem State.mapMill_boot (s : State) (m : Nat) (f : Mill → Mill) : (s.mapMill m f).qd.boot = s.qd.boot := rfl
@[simp] theorem State.mapMill_rslA (s : State) (m : Nat) (f : Mill → Mill) : (s.mapMill m f).qd.rslA = s.qd.rslA := rfl
@[simp] theorem State.mapMill_rslB (s : State) (m : Nat) (f : Mill → Mill) : (s.mapMill m f).qd.rslB = s.qd.rslB := rfl
@[simp] theorem State.mapMill_clk (s : State) (m : Nat) (f : Mill → Mill) : (s.mapMill m f).qd.clk = s.qd.clk := rfl
@[simp] theorem State.mapMill_health (s : State) (m : Nat) (f : Mill → Mill) : (s.mapMill m f).qd.health = s.qd.health := rfl
@[simp] theorem State.mapMill_mills (s : State) (m : Nat) (f : Mill → Mill) : (s.mapMill m f).qd.grid.mills = Tbl.mod s.qd.grid.mills m f := rfl
@[simp] theorem State.setRg_sv (s : State) (off : Nat) (w : Word) : (s.setRg off w).sv = s.sv := rfl
@[simp] theorem State.setRg_out (s : State) (off : Nat) (w : Word) : (s.setRg off w).out = s.out := rfl
@[simp] theorem State.setRg_free (s : State) (off : Nat) (w : Word) : (s.setRg off w).free = s.free := rfl
@[simp] theorem State.setRg_pending (s : State) (off : Nat) (w : Word) : (s.setRg off w).pending = s.pending := rfl
@[simp] theorem State.setRg_variant (s : State) (off : Nat) (w : Word) : (s.setRg off w).qd.variant = s.qd.variant := rfl
@[simp] theorem State.setRg_regs (s : State) (off : Nat) (w : Word) : (s.setRg off w).qd.regs = Tbl.set (regReset s.qd.variant) s.qd.regs off w := rfl
@[simp] theorem State.setRg_stage (s : State) (off : Nat) (w : Word) : (s.setRg off w).qd.stage = s.qd.stage := rfl
@[simp] theorem State.setRg_node (s : State) (off : Nat) (w : Word) : (s.setRg off w).qd.node = s.qd.node := rfl
@[simp] theorem State.setRg_mnode (s : State) (off : Nat) (w : Word) : (s.setRg off w).qd.mnode = s.qd.mnode := rfl
@[simp] theorem State.setRg_srcs (s : State) (off : Nat) (w : Word) : (s.setRg off w).qd.srcs = s.qd.srcs := rfl
@[simp] theorem State.setRg_sw (s : State) (off : Nat) (w : Word) : (s.setRg off w).qd.sw = s.qd.sw := rfl
@[simp] theorem State.setRg_links (s : State) (off : Nat) (w : Word) : (s.setRg off w).qd.links = s.qd.links := rfl
@[simp] theorem State.setRg_dir (s : State) (off : Nat) (w : Word) : (s.setRg off w).qd.dir = s.qd.dir := rfl
@[simp] theorem State.setRg_rings (s : State) (off : Nat) (w : Word) : (s.setRg off w).qd.rings = s.qd.rings := rfl
@[simp] theorem State.setRg_green (s : State) (off : Nat) (w : Word) : (s.setRg off w).qd.green = s.qd.green := rfl
@[simp] theorem State.setRg_svc (s : State) (off : Nat) (w : Word) : (s.setRg off w).qd.svc = s.qd.svc := rfl
@[simp] theorem State.setRg_grid (s : State) (off : Nat) (w : Word) : (s.setRg off w).qd.grid = s.qd.grid := rfl
@[simp] theorem State.setRg_hbm (s : State) (off : Nat) (w : Word) : (s.setRg off w).qd.hbm = s.qd.hbm := rfl
@[simp] theorem State.setRg_mhbm (s : State) (off : Nat) (w : Word) : (s.setRg off w).qd.mhbm = s.qd.mhbm := rfl
@[simp] theorem State.setRg_cust (s : State) (off : Nat) (w : Word) : (s.setRg off w).qd.cust = s.qd.cust := rfl
@[simp] theorem State.setRg_ferry (s : State) (off : Nat) (w : Word) : (s.setRg off w).qd.ferry = s.qd.ferry := rfl
@[simp] theorem State.setRg_fault (s : State) (off : Nat) (w : Word) : (s.setRg off w).qd.fault = s.qd.fault := rfl
@[simp] theorem State.setRg_trace (s : State) (off : Nat) (w : Word) : (s.setRg off w).qd.trace = s.qd.trace := rfl
@[simp] theorem State.setRg_aon (s : State) (off : Nat) (w : Word) : (s.setRg off w).qd.aon = s.qd.aon := rfl
@[simp] theorem State.setRg_boot (s : State) (off : Nat) (w : Word) : (s.setRg off w).qd.boot = s.qd.boot := rfl
@[simp] theorem State.setRg_rslA (s : State) (off : Nat) (w : Word) : (s.setRg off w).qd.rslA = s.qd.rslA := rfl
@[simp] theorem State.setRg_rslB (s : State) (off : Nat) (w : Word) : (s.setRg off w).qd.rslB = s.qd.rslB := rfl
@[simp] theorem State.setRg_clk (s : State) (off : Nat) (w : Word) : (s.setRg off w).qd.clk = s.qd.clk := rfl
@[simp] theorem State.setRg_health (s : State) (off : Nat) (w : Word) : (s.setRg off w).qd.health = s.qd.health := rfl
@[simp] theorem State.setFl_sv (s : State) (f : Fld) (v : Nat) : (s.setFl f v).sv = s.sv := rfl
@[simp] theorem State.setFl_out (s : State) (f : Fld) (v : Nat) : (s.setFl f v).out = s.out := rfl
@[simp] theorem State.setFl_free (s : State) (f : Fld) (v : Nat) : (s.setFl f v).free = s.free := rfl
@[simp] theorem State.setFl_pending (s : State) (f : Fld) (v : Nat) : (s.setFl f v).pending = s.pending := rfl
@[simp] theorem State.setFl_variant (s : State) (f : Fld) (v : Nat) : (s.setFl f v).qd.variant = s.qd.variant := rfl
@[simp] theorem State.setFl_stage (s : State) (f : Fld) (v : Nat) : (s.setFl f v).qd.stage = s.qd.stage := rfl
@[simp] theorem State.setFl_node (s : State) (f : Fld) (v : Nat) : (s.setFl f v).qd.node = s.qd.node := rfl
@[simp] theorem State.setFl_mnode (s : State) (f : Fld) (v : Nat) : (s.setFl f v).qd.mnode = s.qd.mnode := rfl
@[simp] theorem State.setFl_srcs (s : State) (f : Fld) (v : Nat) : (s.setFl f v).qd.srcs = s.qd.srcs := rfl
@[simp] theorem State.setFl_sw (s : State) (f : Fld) (v : Nat) : (s.setFl f v).qd.sw = s.qd.sw := rfl
@[simp] theorem State.setFl_links (s : State) (f : Fld) (v : Nat) : (s.setFl f v).qd.links = s.qd.links := rfl
@[simp] theorem State.setFl_dir (s : State) (f : Fld) (v : Nat) : (s.setFl f v).qd.dir = s.qd.dir := rfl
@[simp] theorem State.setFl_rings (s : State) (f : Fld) (v : Nat) : (s.setFl f v).qd.rings = s.qd.rings := rfl
@[simp] theorem State.setFl_green (s : State) (f : Fld) (v : Nat) : (s.setFl f v).qd.green = s.qd.green := rfl
@[simp] theorem State.setFl_svc (s : State) (f : Fld) (v : Nat) : (s.setFl f v).qd.svc = s.qd.svc := rfl
@[simp] theorem State.setFl_grid (s : State) (f : Fld) (v : Nat) : (s.setFl f v).qd.grid = s.qd.grid := rfl
@[simp] theorem State.setFl_hbm (s : State) (f : Fld) (v : Nat) : (s.setFl f v).qd.hbm = s.qd.hbm := rfl
@[simp] theorem State.setFl_mhbm (s : State) (f : Fld) (v : Nat) : (s.setFl f v).qd.mhbm = s.qd.mhbm := rfl
@[simp] theorem State.setFl_cust (s : State) (f : Fld) (v : Nat) : (s.setFl f v).qd.cust = s.qd.cust := rfl
@[simp] theorem State.setFl_ferry (s : State) (f : Fld) (v : Nat) : (s.setFl f v).qd.ferry = s.qd.ferry := rfl
@[simp] theorem State.setFl_fault (s : State) (f : Fld) (v : Nat) : (s.setFl f v).qd.fault = s.qd.fault := rfl
@[simp] theorem State.setFl_trace (s : State) (f : Fld) (v : Nat) : (s.setFl f v).qd.trace = s.qd.trace := rfl
@[simp] theorem State.setFl_aon (s : State) (f : Fld) (v : Nat) : (s.setFl f v).qd.aon = s.qd.aon := rfl
@[simp] theorem State.setFl_boot (s : State) (f : Fld) (v : Nat) : (s.setFl f v).qd.boot = s.qd.boot := rfl
@[simp] theorem State.setFl_rslA (s : State) (f : Fld) (v : Nat) : (s.setFl f v).qd.rslA = s.qd.rslA := rfl
@[simp] theorem State.setFl_rslB (s : State) (f : Fld) (v : Nat) : (s.setFl f v).qd.rslB = s.qd.rslB := rfl
@[simp] theorem State.setFl_clk (s : State) (f : Fld) (v : Nat) : (s.setFl f v).qd.clk = s.qd.clk := rfl
@[simp] theorem State.setFl_health (s : State) (f : Fld) (v : Nat) : (s.setFl f v).qd.health = s.qd.health := rfl
@[simp] theorem emit_sv (s : State) (o : Out) : (emit s o).sv = s.sv := rfl
@[simp] theorem emits_sv (s : State) (o : List Out) : (emits s o).sv = s.sv := rfl
@[simp] theorem emit_free (s : State) (o : Out) : (emit s o).free = s.free := rfl
@[simp] theorem emits_free (s : State) (o : List Out) : (emits s o).free = s.free := rfl
@[simp] theorem emit_pending (s : State) (o : Out) : (emit s o).pending = s.pending := rfl
@[simp] theorem emits_pending (s : State) (o : List Out) : (emits s o).pending = s.pending := rfl
@[simp] theorem emit_qd (s : State) (o : Out) : (emit s o).qd = s.qd := rfl
@[simp] theorem emits_qd (s : State) (o : List Out) : (emits s o).qd = s.qd := rfl
@[simp] theorem emit_out (s : State) (o : Out) : (emit s o).out = s.out ++ [o] := rfl
@[simp] theorem emits_out (s : State) (o : List Out) : (emits s o).out = s.out ++ o := rfl
@[simp] theorem draw_sv (w : Nat) (s : State) : (draw w s).2.sv = s.sv := rfl
@[simp] theorem draw_out (w : Nat) (s : State) : (draw w s).2.out = s.out := rfl
@[simp] theorem draw_pending (w : Nat) (s : State) : (draw w s).2.pending = s.pending := rfl
@[simp] theorem draw_qd (w : Nat) (s : State) : (draw w s).2.qd = s.qd := rfl
@[simp] theorem draw_free (w : Nat) (s : State) : (draw w s).2.free = s.free + 1 := rfl
@[simp] theorem draw_value (w : Nat) (s : State) : (draw w s).1 = Config.freeBits w s.free := rfl
@[simp] theorem State.mapQd_sv (s : State) (f : Qd → Qd) : (s.mapQd f).sv = s.sv := rfl
@[simp] theorem State.mapQd_out (s : State) (f : Qd → Qd) : (s.mapQd f).out = s.out := rfl
@[simp] theorem State.mapQd_free (s : State) (f : Qd → Qd) : (s.mapQd f).free = s.free := rfl
@[simp] theorem State.mapQd_pending (s : State) (f : Qd → Qd) : (s.mapQd f).pending = s.pending := rfl
@[simp] theorem State.mapQd_qd (s : State) (f : Qd → Qd) : (s.mapQd f).qd = f s.qd := rfl
@[simp] theorem State.mapSv_qd (s : State) (f : Sv → Sv) : (s.mapSv f).qd = s.qd := rfl
@[simp] theorem State.setSr_qd (s : State) (off : Nat) (w : Word) : (s.setSr off w).qd = s.qd := rfl
@[simp] theorem State.mapSv_out (s : State) (f : Sv → Sv) : (s.mapSv f).out = s.out := rfl
@[simp] theorem State.setSr_out (s : State) (off : Nat) (w : Word) : (s.setSr off w).out = s.out := rfl
@[simp] theorem State.mapSv_free (s : State) (f : Sv → Sv) : (s.mapSv f).free = s.free := rfl
@[simp] theorem State.setSr_free (s : State) (off : Nat) (w : Word) : (s.setSr off w).free = s.free := rfl
@[simp] theorem State.mapSv_pending (s : State) (f : Sv → Sv) : (s.mapSv f).pending = s.pending := rfl
@[simp] theorem State.setSr_pending (s : State) (off : Nat) (w : Word) : (s.setSr off w).pending = s.pending := rfl
@[simp] theorem State.mapSv_sv (s : State) (f : Sv → Sv) : (s.mapSv f).sv = f s.sv := rfl
@[simp] theorem State.mapNode_out (s : State) (b : Bank) (f : Node → Node) : (s.mapNode b f).out = s.out := by cases b <;> rfl
@[simp] theorem State.mapNode_free (s : State) (b : Bank) (f : Node → Node) : (s.mapNode b f).free = s.free := by cases b <;> rfl
@[simp] theorem State.mapNode_pending (s : State) (b : Bank) (f : Node → Node) : (s.mapNode b f).pending = s.pending := by cases b <;> rfl
@[simp] theorem State.mapSrcs_out (s : State) (b : Side) (f : Srcs → Srcs) : (s.mapSrcs b f).out = s.out := by cases b <;> rfl
@[simp] theorem State.mapSrcs_free (s : State) (b : Side) (f : Srcs → Srcs) : (s.mapSrcs b f).free = s.free := by cases b <;> rfl
@[simp] theorem State.mapSrcs_pending (s : State) (b : Side) (f : Srcs → Srcs) : (s.mapSrcs b f).pending = s.pending := by cases b <;> rfl
@[simp] theorem State.mapLink_out (s : State) (b : PortSel) (f : Link → Link) : (s.mapLink b f).out = s.out := by cases b <;> rfl
@[simp] theorem State.mapLink_free (s : State) (b : PortSel) (f : Link → Link) : (s.mapLink b f).free = s.free := by cases b <;> rfl
@[simp] theorem State.mapLink_pending (s : State) (b : PortSel) (f : Link → Link) : (s.mapLink b f).pending = s.pending := by cases b <;> rfl
@[simp] theorem State.mapHbm_out (s : State) (b : Bank) (f : Hbm → Hbm) : (s.mapHbm b f).out = s.out := by cases b <;> rfl
@[simp] theorem State.mapHbm_free (s : State) (b : Bank) (f : Hbm → Hbm) : (s.mapHbm b f).free = s.free := by cases b <;> rfl
@[simp] theorem State.mapHbm_pending (s : State) (b : Bank) (f : Hbm → Hbm) : (s.mapHbm b f).pending = s.pending := by cases b <;> rfl
@[simp] theorem State.mapMill_self (s : State) (m : Nat) (f : Mill → Mill) : (s.mapMill m f).mill m = f (s.mill m) := Tbl.at_mod_self _ _ _
theorem State.mapMill_ne (s : State) (m j : Nat) (f : Mill → Mill) (h : j ≠ m) : (s.mapMill m f).mill j = s.mill j :=
  Tbl.at_mod_ne _ _ _ _ h
@[simp] theorem State.rg_setRg_self (s : State) (off : Nat) (w : Word) : (s.setRg off w).rg off = w := by simp [State.rg, Tbl.get_set]
theorem State.rg_setRg (s : State) (off o : Nat) (w : Word) :
    (s.setRg off w).rg o = if o = off then w else s.rg o := by simp [State.rg, Tbl.get_set]
theorem State.sr_setSr (s : State) (off o : Nat) (w : Word) :
    (s.setSr off w).sr o = if o = off then w else s.sr o := Tbl.get_set _ _ _ _ _

end Sys2Proof.Machine
end

