-- ==== Sys2Proof/Laws/Mills.lean ====
section
/-! SUPPORT. What running an instruction on a mill can do, said once for each shared operation. -/

namespace Sys2Proof.Machine

/-- The instruction at PC of a mill that is ready is the one that runs. -/
theorem runInstr_ready {s : State} {m a : Nat} {w : BitVec 32} (h : MillReady s m a w)
    (body : Nat → State → MRes) : runInstr m w body s = finishInstr a m s (body a s) := by
  obtain ⟨h1, h2, h3, h4, h5, h6, _, h8, h9⟩ := h
  have hn : ¬(4 ≤ s.alState a) := by omega
  simp [runInstr, h1, h3, h4, h5, h6, h8, h9, hn]

/-- A mill with no debug request pending passes an instruction boundary unchanged. -/
theorem millBoundary_calm {s : State} {m : Nat} (h : (s.mill m).haltReq = false)
    (h2 : (s.mill m).stepping = false) : millBoundary m s = s := by
  simp [millBoundary, h, h2]

/-- What an instruction that completes leaves, where its effect on the mill keeps the debug flags. -/
theorem finish_done {s : State} {m a : Nat} {w : BitVec 32} (h : MillReady s m a w) (t : State)
    (hh : (t.mill m).haltReq = (s.mill m).haltReq) (hs : (t.mill m).stepping = (s.mill m).stepping) :
    finishInstr a m s (.done t) = t.mapMill m (fun x => { x with
      pc := (s.mill m).pc + 4, retired := x.retired + 1, wait := .none, pass := false }) := by
  simp only [finishInstr, millNext, State.nextPc]
  rw [millBoundary_calm] <;> simp [hh, hs, h.calm]

/-- Changing one mill leaves everything else. -/
theorem onlyMill_mapMill (s : State) (m : Nat) (g : Mill → Mill) : OnlyMill s (s.mapMill m g) m :=
  ⟨rfl, fun j hj => by simp [State.mapMill_ne _ _ _ _ hj]⟩

theorem OnlyMill.trans {s t u : State} {m : Nat} (h : OnlyMill s t m) (h2 : OnlyMill t u m) : OnlyMill s u m := by
  refine ⟨?_, fun j hj => (h2.2 j hj).trans (h.2 j hj)⟩
  have e := h2.1
  rw [h.1] at e
  rw [e]

/-- An instruction whose body completes by changing the mill by `g` changes nothing else. -/
theorem runInstr_done {s : State} {m a : Nat} {w : BitVec 32} {body : Nat → State → MRes} {g : Mill → Mill}
    (h : MillReady s m a w) (hb : body a s = .done (s.mapMill m g))
    (hh : (g (s.mill m)).haltReq = (s.mill m).haltReq) (hs : (g (s.mill m)).stepping = (s.mill m).stepping)
    (hr : (g (s.mill m)).retired = (s.mill m).retired) :
    (runInstr m w body s).mill m = (s.mill m).after g ∧ OnlyMill s (runInstr m w body s) m := by
  rw [runInstr_ready h, hb, finish_done h _ (by simp [hh]) (by simp [hs])]
  refine ⟨?_, (onlyMill_mapMill _ _ _).trans (onlyMill_mapMill _ _ _)⟩
  simp [Mill.after, hr]

/-! ### Words and lanes -/

/-- The number that appended bits spell. -/
theorem toNat_append_add {n m : Nat} (x : BitVec n) (y : BitVec m) : (x ++ y).toNat = x.toNat * 2 ^ m + y.toNat := by
  rw [BitVec.toNat_append, ← Nat.shiftLeft_add_eq_or_of_lt y.isLt, Nat.shiftLeft_eq]

/-- The words of R296 spelt bit by bit are those that the meanings compare with. -/
theorem wordA_enc (maj fn : Nat) (f : FmtA)  (h2 : fn < 2048) : wordA maj fn f = encA maj f fn := by
  apply BitVec.eq_of_toNat_eq
  obtain ⟨da, sa, sb⟩ := f
  have := da.isLt; have := sa.isLt; have := sb.isLt
  simp only [wordA, encA, toNat_append_add, BitVec.toNat_ofNat]
  omega

theorem wordI_enc (maj : Nat) (f : FmtI)  : wordI maj f = encI maj f := by
  apply BitVec.eq_of_toNat_eq
  obtain ⟨da, sa, imm⟩ := f
  have := da.isLt; have := sa.isLt; have := imm.isLt
  simp only [wordI, encI, toNat_append_add, BitVec.toNat_ofNat]
  omega

theorem wordB_enc (maj : Nat) (f : FmtB)  : wordB maj f = encB maj f := by
  apply BitVec.eq_of_toNat_eq
  obtain ⟨sa, sb, off⟩ := f
  have := sa.isLt; have := sb.isLt; have := off.isLt
  simp only [wordB, encB, toNat_append_add, BitVec.toNat_ofNat]
  omega

theorem wordJ_enc (maj : Nat) (off : BitVec 26)  : wordJ maj off = encJ maj off := by
  apply BitVec.eq_of_toNat_eq
  have := off.isLt
  simp only [wordJ, encJ, toNat_append_add, BitVec.toNat_ofNat]
  omega

theorem wordV_enc (maj fn : Nat) (f : FmtV) : wordV maj fn f = encV maj f fn := by
  apply BitVec.eq_of_toNat_eq
  obtain ⟨vd, va, vb, pm⟩ := f
  have := vd.isLt; have := va.isLt; have := vb.isLt; have := pm.isLt
  simp only [wordV, encV, toNat_append_add, BitVec.toNat_ofNat]
  omega

theorem wordT_enc (maj : Nat) (f : FmtT)  : wordT maj f = encT maj f := by
  apply BitVec.eq_of_toNat_eq
  obtain ⟨acc, sa, sb, pay⟩ := f
  have := acc.isLt; have := sa.isLt; have := sb.isLt; have := pay.isLt
  simp only [wordT, encT, toNat_append_add, BitVec.toNat_ofNat]
  omega

/-- A lane of the number that lanes spell. -/
theorem ofLanes_fold (f : Nat → BitVec 32) (n : Nat) (i : Nat) (hi : i < n) (k : Nat) :
   ((List.range' k n).foldr (fun i m => m * 2 ^ 32 + (f i).toNat) 0) / 2 ^ (32 * i) % 2 ^ 32 = (f (k + i)).toNat := by
  induction n generalizing i k with
  | zero => omega
  | succ n ih =>
    rw [List.range'_succ, List.foldr_cons]
    have hf := (f k).isLt
    cases i with
    | zero => simp only [Nat.mul_zero, Nat.pow_zero, Nat.div_one, Nat.add_zero]; omega
    | succ i =>
      have h := ih i (by omega) (k+1)
      generalize hF : (List.range' (k + 1) n).foldr (fun i m => m * 2 ^ 32 + (f i).toNat) 0 = F at h
      have e : 2 ^ (32 * (i + 1)) = 2 ^ 32 * 2 ^ (32 * i) := by rw [← Nat.pow_add]; congr 1; omega
      have d : (F * 2 ^ 32 + (f k).toNat) / 2 ^ 32 = F := by omega
      have g : (F * 2 ^ 32 + (f k).toNat) / 2 ^ (32 * (i + 1)) = F / 2 ^ (32 * i) := by
        rw [e, ← Nat.div_div_eq_div_mul, d]
      refine Eq.trans (congrArg (· % 2 ^ 32) g) (Eq.trans h ?_)
      rw [Nat.add_assoc, Nat.add_comm 1 i]

/-- 32 bits of a wide number. -/
theorem ofNat_slice (w F k : Nat) (h : k + 32 ≤ w) :
    ((BitVec.ofNat w F).extractLsb' k 32).toNat = F / 2 ^ k % 2 ^ 32 := by
  obtain ⟨d, rfl⟩ : ∃ d, w = k + d := ⟨w - k, by omega⟩
  rw [BitVec.extractLsb'_toNat, BitVec.toNat_ofNat, Nat.shiftRight_eq_div_pow, Nat.pow_add, Nat.mod_mul_right_div_self,
    Nat.mod_mod_of_dvd]
  exact Nat.pow_dvd_pow 2 (by omega)

/-- A lane of a vector made of lanes. -/
theorem lane_ofLanes (f : Nat → BitVec 32) (i : Nat) (hi : i < 32) : lane (ofLanes f) i = f i := by
  apply BitVec.eq_of_toNat_eq
  have h := ofLanes_fold f 32 i hi 0
  have e := ofNat_slice 1024 ((List.range 32).foldr (fun i n => n * 2 ^ 32 + (f i).toNat) 0) (32 * i) (by omega)
  refine Eq.trans e ?_
  rw [List.range_eq_range']
  refine Eq.trans h ?_
  rw [Nat.zero_add]
/-! ### The shapes of a claim -/

/-- A command that is an instruction whose body completes by changing the mill. -/
theorem runs_of_body {i : Instr} {s : State} {m a : Nat} {w : BitVec 32} {body : Nat → State → MRes} {g : Mill → Mill}
    (hi : exec i s = .next (runInstr m w body s)) (h : MillReady s m a w) (hb : body a s = .done (s.mapMill m g))
    (hh : (g (s.mill m)).haltReq = (s.mill m).haltReq) (hs : (g (s.mill m)).stepping = (s.mill m).stepping)
    (hr : (g (s.mill m)).retired = (s.mill m).retired) : RunsOnMill i s m g :=
  have k := runInstr_done h hb hh hs hr
  ⟨_, hi, k.1, k.2⟩

/-- Writing an s register keeps what a completion needs. -/
@[simp] theorem Mill.setSr_haltReq (x : Mill) (i : Nat) (v : Word) : (x.setSr i v).haltReq = x.haltReq := by
  unfold Mill.setSr; split <;> rfl
@[simp] theorem Mill.setSr_stepping (x : Mill) (i : Nat) (v : Word) : (x.setSr i v).stepping = x.stepping := by
  unfold Mill.setSr; split <;> rfl
@[simp] theorem Mill.setSr_retired (x : Mill) (i : Nat) (v : Word) : (x.setSr i v).retired = x.retired := by
  unfold Mill.setSr; split <;> rfl
@[simp] theorem Mill.setPr_haltReq (x : Mill) (i : Nat) (v : BitVec 32) : (x.setPr i v).haltReq = x.haltReq := by
  unfold Mill.setPr; split <;> rfl
@[simp] theorem Mill.setPr_stepping (x : Mill) (i : Nat) (v : BitVec 32) : (x.setPr i v).stepping = x.stepping := by
  unfold Mill.setPr; split <;> rfl
@[simp] theorem Mill.setPr_retired (x : Mill) (i : Nat) (v : BitVec 32) : (x.setPr i v).retired = x.retired := by
  unfold Mill.setPr; split <;> rfl

/-- An exception of a mill with a handler, outside the handler. -/
theorem raises_of_body {i : Instr} {s : State} {m a code : Nat} {w : BitVec 32} {body : Nat → State → MRes}
    {eaddr : Word} {estat : BitVec 7} (hi : exec i s = .next (runInstr m w body s)) (h : MillReady s m a w)
    (hb : body a s = .exc code eaddr estat) (hc : code ≠ Exc.ABORT) (hn : (s.mill m).handler ≠ 0)
    (hh : (s.mill m).inh = false) : RaisesOnMill i s m code eaddr estat := by
  have c1 : ∀ x : State, (x.mill m).haltReq = false → (x.mill m).stepping = false → millBoundary m x = x :=
    fun x h1 h2 => millBoundary_calm h1 h2
  refine ⟨_, by rw [hi, runInstr_ready h, hb], ?_, ?_⟩
  · simp only [finishInstr, millExc, hh]
    rw [if_pos (And.intro hn (by simp [hc])), c1 _ (by simp [h.calm]) (by simp [h.calm])]
    exact (onlyMill_mapMill _ _ _).trans (onlyMill_mapMill _ _ _)
  · simp only [finishInstr, millExc, hh]
    rw [if_pos (And.intro hn (by simp [hc])), c1 _ (by simp [h.calm]) (by simp [h.calm])]
    simp [hh]

/-- Bytes written into a table from a key on. -/
theorem at_putBytes (t : Tbl Byte) (k : Nat) (d : List Byte) (j : Nat) :
    Tbl.at (putBytes t k d) j = if k ≤ j ∧ j < k + d.length then d.getD (j - k) 0 else Tbl.at t j := by
  induction d generalizing t k with
  | nil => rw [putBytes, if_neg (by simp only [List.length_nil]; omega)]
  | cons b d ih =>
    rw [putBytes, ih]
    by_cases h : k + 1 ≤ j ∧ j < k + 1 + d.length
    · rw [if_pos h, if_pos (by simp only [List.length_cons]; omega)]
      have e : j - k = (j - (k + 1)) + 1 := by omega
      rw [e, List.getD_cons_succ]
    · rw [if_neg h, Tbl.at_put]
      by_cases hj : j = k
      · subst hj; simp
      · rw [if_neg hj, if_neg (by simp only [List.length_cons]; omega)]

/-- A command that is an instruction whose body stores in the own scratch and changes the mill. -/
theorem stores_of_body {i : Instr} {s : State} {m a off : Nat} {w : BitVec 32} {body : Nat → State → MRes}
    {d : List Byte} {g : Mill → Mill} (hi : exec i s = .next (runInstr m w body s)) (h : MillReady s m a w)
    (hb : body a s = .done ((s.setScratch m off d).mapMill m g))
    (hh : (g (s.mill m)).haltReq = (s.mill m).haltReq) (hs : (g (s.mill m)).stepping = (s.mill m).stepping)
    (hr : (g (s.mill m)).retired = (s.mill m).retired) : StoresOnMill i s m off d g := by
  have hm : ∀ j, (s.setScratch m off d).mill j = s.mill j := fun _ => rfl
  refine ⟨_, by rw [hi, runInstr_ready h, hb, finish_done h _ (by simp [hm, hh]) (by simp [hm, hs])], ?_, ⟨rfl, ?_⟩, ?_, ?_⟩
  · simp [Mill.after, hm, hr]
  · intro j hj; simp [State.mapMill_ne _ _ _ _ hj, hm]
  · intro k hk
    show Tbl.at (putBytes s.qd.grid.scratch (m * 2 ^ 21 + off) d) _ = _
    rw [at_putBytes, if_pos (by omega)]; congr 1; omega
  · intro k hk
    show Tbl.at (putBytes s.qd.grid.scratch (m * 2 ^ 21 + off) d) _ = _
    rw [at_putBytes, if_neg (by omega)]

/-- An address inside the own scratch leads there. -/
theorem reach_own {s : State} {a m addr n : Nat} (h : addr + n ≤ 2 ^ 21) : s.reach a m addr n = some (.scratch m addr) := by
  simp only [State.reach]; rw [if_pos (by omega)]

end Sys2Proof.Machine
end

