-- ==== Sys2Proof/Laws/Regions.lean ====
section
/-! SUPPORT. Regions that the services keep: in a window without translation, over memory without an unreadable
word, reads answer and patches become writes. -/

namespace Sys2Proof.Machine

/-- A list of reads of which each answers is answered as a whole. -/
theorem allOk_of {α : Type} {l : List (Except (BitVec 7) α)} (h : ∀ x ∈ l, ∃ y, x = .ok y) : ∃ ys, allOk l = .ok ys := by
  suffices H : ∀ (l : List (Except (BitVec 7) α)) (acc : List α), (∀ x ∈ l, ∃ y, x = .ok y) → ∃ ys,
      l.foldl (fun acc x => match acc, x with
        | .error e, _ => .error e
        | _, .error e => .error e
        | .ok l, .ok x => .ok (l ++ [x])) (Except.ok acc : Except (BitVec 7) (List α)) = .ok ys from H l [] h
  intro l
  induction l with
  | nil => exact fun acc _ => ⟨acc, rfl⟩
  | cons x l ih =>
    intro acc h
    obtain ⟨y, rfl⟩ := h x (List.mem_cons_self ..)
    exact ih (acc ++ [y]) (fun z hz => h z (List.mem_cons_of_mem _ hz))

/-- The runs of a region in a window without translation. -/
theorem Region.runs_ok {r : Region} {s : State} (h : (r.ent s).pgsz = 3) (o n : Nat) (w : Bool) :
    ∃ l, r.runs s o n w = .ok l := by
  unfold Region.runs; simp only [h, if_true]; exact ⟨_, rfl⟩

/-- A region's bytes can be read. -/
theorem Region.read_ok {r : Region} {s : State} (h : (r.ent s).pgsz = 3) (hg : ∀ a n, (s.hbm r.bank).good a n = true) (o n : Nat) :
    ∃ d, r.read s o n = .ok d := by
  obtain ⟨l, hl⟩ := Region.runs_ok h (o / 64 * 64) (roundUp (o + n) 64 - o / 64 * 64) false
  unfold Region.read
  simp only [hl]
  rw [if_neg (by simp [hg])]
  exact ⟨_, rfl⟩

/-- A write to the Granary leaves the window tables. -/
theorem poke_wte (s : State) (b c : Bank) (i a : Nat) (d : List Byte) : (s.poke b a d).wte c i = s.wte c i := by
  cases b <;> cases c <;> rfl

theorem Hbm.write_bad (h : Hbm) (a : Nat) (d : List Byte) : (h.write a d).bad = h.bad := by
  induction d generalizing h a with
  | nil => rfl
  | cons b d ih => exact ih ..

/-- Memory without an unreadable word keeps none when it is written. -/
theorem poke_bad {s : State} {b : Bank} (h : (s.hbm b).bad = []) (a : Nat) (d : List Byte) : ((s.poke b a d).hbm b).bad = [] := by
  cases b <;> simp only [State.hbm] at h <;>
    simp [State.poke, State.hbm, State.mapHbm, State.mapQd, Hbm.heal, Hbm.write_bad, h]

theorem pokes_bad {s : State} {b : Bank} (h : (s.hbm b).bad = []) (ws : List (Nat × List Byte)) : ((s.pokes b ws).hbm b).bad = [] := by
  unfold State.pokes
  induction ws generalizing s with
  | nil => exact h
  | cons w ws ih => exact ih (poke_bad h ..)

theorem pokes_wte (s : State) (b c : Bank) (i : Nat) (ws : List (Nat × List Byte)) : (s.pokes b ws).wte c i = s.wte c i := by
  unfold State.pokes
  induction ws generalizing s with
  | nil => rfl
  | cons w ws ih => exact (ih ..).trans (poke_wte ..)

theorem Hbm.good_of_bad {h : Hbm} (e : h.bad = []) (a n : Nat) : h.good a n = true := by simp [Hbm.good, e]

/-- Every list of patches of a region becomes writes. -/
theorem Region.patches_ok {r : Region} {s : State} (h : (r.ent s).pgsz = 3) (hg : (s.hbm r.bank).bad = [])
    (ps : List (Nat × List Byte)) : ∃ ws, r.patches s ps = .ok ws := by
  unfold Region.patches
  generalize hf : (fun (acc : Except (BitVec 7) (State × List (Nat × List Byte))) (p : Nat × List Byte) => _) = f
  have step : ∀ (t : State) (ws : List (Nat × List Byte)) (p : Nat × List Byte), (r.ent t).pgsz = 3 → (t.hbm r.bank).bad = [] →
      ∃ new, f (.ok (t, ws)) p = .ok (t.pokes r.bank new, ws ++ new) := by
    intro t ws p h hg
    obtain ⟨rs, e1⟩ := Region.runs_ok h (p.1 / 64 * 64) (roundUp (p.1 + p.2.length) 64 - p.1 / 64 * 64) true
    obtain ⟨old, e2⟩ := Region.read_ok h (Hbm.good_of_bad hg) (p.1 / 64 * 64) (roundUp (p.1 + p.2.length) 64 - p.1 / 64 * 64)
    subst hf
    simp only [e1, e2]
    exact ⟨_, rfl⟩
  suffices H : ∀ (ps : List (Nat × List Byte)) (t : State) (ws : List (Nat × List Byte)), (r.ent t).pgsz = 3 →
      (t.hbm r.bank).bad = [] → ∃ x, ps.foldl f (.ok (t, ws)) = .ok x by
    obtain ⟨x, e⟩ := H ps s [] h hg
    rw [e]; exact ⟨x.2, rfl⟩
  intro ps
  induction ps with
  | nil => exact fun t ws _ _ => ⟨(t, ws), rfl⟩
  | cons p ps ih =>
    intro t ws h hg
    obtain ⟨new, e⟩ := step t ws p h hg
    rw [List.foldl_cons, e]
    exact ih _ _ (by rw [Region.ent, pokes_wte]; exact h) (pokes_bad hg new)

end Sys2Proof.Machine
end

