-- ==== Sys2Proof/Tests/Slice0.lean ====
section
/-! SUPPORT. Tests of the model: ill-formed commands that are refused, effects that the spec states with numbers,
and for the hypotheses of each statement a state that meets them. -/

namespace Sys2Proof.Tests

set_option Elab.async false

open Sys2Proof Sys2Proof.Machine

/-- The state after a command. -/
def after (i : Instr) (s : State) : State :=
  match exec i s with
  | .next t => t
  | _ => s

/-! ### Ill-formed commands: each check of WellFormed.lean refuses one -/

theorem test_wf_packet : (Instr.ld .unit { (default : Packet) with data := List.replicate 257 0 }).wf = false ∧
    (Instr.ld .unit { (default : Packet) with geom := some default }).wf = false ∧
    (Instr.ld .unit { (default : Packet) with mask := some (0, 0) }).wf = false ∧ (Instr.ld .unit default).wf = true := by decide +kernel
theorem test_wf_twr : (Instr.twr .unit []).wf = false := by decide +kernel
theorem test_wf_block : (Instr.flitReceive (.qd 0) ⟨List.replicate 271 0⟩).wf = false ∧
    (Instr.flitReceive (.qd 0) ⟨List.replicate 272 0⟩).wf = true := by decide +kernel
theorem test_wf_segment : (Instr.ferryData 0 ⟨1#64 <<< 35, 0, 0, 0, [], List.replicate 16 0⟩).wf = false ∧
    (Instr.ferryResp 0 ⟨0, 0, 0, 0, [], []⟩).wf = false ∧ (Instr.ferryAck 0 ⟨0, 0, 0, 0, [], List.replicate 16 0⟩).wf = true := by decide +kernel
theorem test_wf_green : (Instr.greenChunk 0 0 0 { members := [⟨1, 0, [], [], 0⟩, ⟨1, 0, [], [], 0⟩] }).wf = false ∧
    (Instr.greenChunk 0 0 0 { members := [⟨1, 0, [], [], 0⟩, ⟨2, 0, [], [], 0⟩] }).wf = true := by decide +kernel
theorem test_wf_memReply : (Instr.directoryMemoryReply ⟨0, 0, 0, [1]⟩).wf = false ∧ (Instr.directoryMemoryReply ⟨0, 0, 0, []⟩).wf = true := by
  decide +kernel
theorem test_wf_combine : (Instr.combineRecord ⟨0, 0, 0, 0, 0, [⟨⟨3, 9, 4, 1⟩, 0⟩, ⟨⟨3, 9, 4, 1⟩, 1⟩], default⟩).wf = false := by decide +kernel
theorem test_wf_rqo : (Instr.rqoRequest 0 { opc := 0x10, qid := 0, id := 0, addr := 0, len := 0, aux := 0, cls := 0, clsv := false, ord := 0,
                                            data := List.replicate 65537 0 }).wf = false := by
  show decide ((List.replicate 65537 (0 : Byte)).length ≤ 65536) = false
  rw [List.length_replicate]; rfl
theorem test_wf_pte : (Instr.pageTableReadDone .qd 0 (.ok [1])).wf = false ∧ (Instr.pageTableReadDone .qd 0 .bad).wf = true := by decide +kernel
theorem test_wf_mirror : (Instr.mirrorWrite (.data 0 0 [])).wf = false ∧ (Instr.mirrorWrite (.home (.home (.data 0 0 [1])))).wf = false ∧
    (Instr.mirrorWrite (.home (.data 0 0 [1]))).wf = true := by decide +kernel
theorem test_wf_rsi : (Instr.rsiResponse 0 0 (List.replicate 257 0)).wf = false := by decide +kernel
theorem test_wf_lane : (Instr.ts (.sv 0) 4 0 0).wf = false ∧ (Instr.mark (.sv 0) 4).wf = false ∧ (Instr.mark (.sv 0) 3).wf = true := by
  decide +kernel
theorem test_wf_bulk : (Instr.bulkBlock .a 0 0 (List.replicate 65537 0) true).wf = false := by
  show decide ((List.replicate 65537 (0 : Byte)).length ≤ 65536) = false
  rw [List.length_replicate]; rfl
theorem test_wf_placement : (Instr.placementLoopTick (List.replicate 10 0) 0).wf = false := by decide +kernel
theorem test_wf_poll : (Instr.partnerPoll []).wf = false ∧ (Instr.partnerPoll (List.replicate 144 none)).wf = true := by decide +kernel

/-! ### Encodings and results that the spec writes out with numbers -/

/-- R15: window 4 of node 0x0525 at offset 0x12000; window 63 of node 0x05A3. -/
theorem test_fabric_address : mkFa 0x0525 4 0x12000 = 0x1494400000012000 ∧ mkFa 0x05A3 63 0 = 0x168FF00000000000 ∧
    faNode 0x1494400000012000 = 0x0525 ∧ faWin 0x1494400000012000 = 4 := by decide +kernel
/-- R37: the pair index of node 0x0525, queue 3 and node 0x0542. -/
theorem test_pair_index : pairIdx 0x0525 0x0542 3 = 98 := by decide +kernel
/-- R58: the header words of an 8-byte FADD of 1. -/
theorem test_header_words :
    let p := ({ dst := 0x0542, ctx := 0x01C4, opc := Opc.FADD, src := 0x0525, cls := 0, gen := 5, que := 3, woff := 4 * 2 ^ 44 + 0x12000,
                tag := 0x17, len := 8, aux := 1, tseq := 0x4A } : Hdr).packet none none [1, 0, 0, 0, 0, 0, 0, 0]
    p.w0 = 0x0052500840710542 ∧ p.w1 = 0x00305FF7BF8EFABD ∧ p.w2 = 0x005C400000012000 ∧ fget p.w3 32 32 = 0x00029408 := by decide +kernel
/-- R79: the check value of CRC-32C. -/
theorem test_crc32c : crc32c [0x31, 0x32, 0x33, 0x34, 0x35, 0x36, 0x37, 0x38, 0x39] = 0xE3069283 := by decide +kernel
/-- R143: index 93, slice 1 and set 1,184 of the line at 0x1494600000001A00. -/
theorem test_home : homeIdx 0x1494600000001A00 = 93 ∧ dirSlice 0x002928C000000034 = 1 ∧ dirSet 0x002928C000000034 = 1184 ∧
    lineAddr 0x002928C000000034 = 0x1494600000001A00 := by decide +kernel
/-- R136, R138: the coherent window of the spec's example, and the members of its hamlet. -/
theorem test_coherent_window :
    let w : Word := 0x0000001C40388625
    let s : State := { qd := { regs := [(R.DEV_NODE, 0x05A3), (R.HAM_CFG_W0 2, 0x2726252423222120), (R.HAM_CFG_W1 2, 0x2F2E2D2C2B2A2928),
                                        (R.HAM_CFG_W2 2, 0x30), (R.COH_WIN 17, w)] } }
    Cw.slot w = 0x25 ∧ Cw.win w = 6 ∧ Cw.ham w = 2 ∧ Cw.valid w = true ∧ Cw.gen w = 3 ∧ Cw.ctx w = 0x01C4 ∧ Cw.prot w = false ∧
    s.cohWin 0x1494600000001A00 = some (17, w) ∧ s.memberOf w 0x0525 = some 5 := by decide +kernel
/-- R28: the fields of WT_DATA2 and WT_DATA1 of the spec's example, and W2's complement. -/
theorem test_window_entry :
    let e := mkEntry 0x100000 0x0000003000000000 0x000000E74C2F01C4 0
    e.limit = 192 * 2 ^ 30 ∧ e.ctx = 0x01C4 ∧ e.gen = 0x2F ∧ e.kslot = 12 ∧ e.state = 1 ∧ e.rd = true ∧ e.wr = true ∧ e.atm = true ∧
    e.prot = true ∧ e.mir = true ∧ e.pgsz = 1 ∧ e.n2 = 0xFFFFFF18B3D0FE3B ∧ e.complOk = true := by decide +kernel
/-- R526: UNIT_PRESENT of the QD1-9. -/
theorem test_unit_present : regReset .qd19 R.UNIT_PRESENT = 0x00003FFF00FF0FFF := by decide +kernel
/-- R296: the words of the spec's mill program. -/
theorem test_mill_words :
    wordI 0x01 ⟨4, 0, 0x1000⟩ = 0x04801000 ∧ wordT 0x28 ⟨0, 4, 5, 0x0F05⟩ = 0xA0214F05 ∧ wordT 0x29 ⟨0, 6, 1, 0x2000⟩ = 0xA4306000 ∧
    wordV 0x25 1 ⟨7, 1, 0, 0⟩ = 0x94E10001 := by decide +kernel

/-- The exact sum of BF16 codes. -/
def bf16Sum (cs : List Nat) : Acc := cs.foldl (fun a c => a.addNum (Fp.bf16.dec c)) {}
/-- R204, R216: 2^24 + 1 - 2^24 is 1, in every order. -/
theorem test_exact_sum : bf16Sum [0x4B80, 0x3F80, 0xCB80] = { v := 1#320 <<< 149, nz := false } ∧
    bf16Sum [0x4B80, 0xCB80, 0x3F80] = bf16Sum [0x4B80, 0x3F80, 0xCB80] ∧
    Fp.bf16.enc .rne false (bf16Sum [0x4B80, 0x3F80, 0xCB80]).num = 0x3F80 := by decide +kernel
/-- R216, R218: 1 + 2^-8 + 2^-24, to nearest, and by a random number at the border of its threshold. -/
theorem test_exact_round :
    let n := (bf16Sum [0x3F80, 0x3B80, 0x3380]).num
    Fp.bf16.enc .rne false n = 0x3F81 ∧ Fp.bf16.enc (.sr 0x7FFF8000) false n = 0x3F81 ∧ Fp.bf16.enc (.sr 0x7FFF7FFF) false n = 0x3F80 := by
  decide +kernel
/-- R220: 5.0, -2.5 and 0.25 as MXFP4. -/
theorem test_mx_block : mxBlock Fp.e2m1 (fun _ => .rne) ([.fin false 5 0, .fin true 5 (-1), .fin false 1 (-2)].map Acc.ofNum) =
    (0x7F, [0b0110, 0b1100, 0]) := by decide +kernel
/-- R222: the base of the spec's coded group, its length, and both with a subnormal in it. -/
theorem test_gwin :
    let g := ([0x3F80, 0x4B80, 0xBF80].map (fun c => Acc.ofNum (Fp.bf16.dec c))) ++ List.replicate 13 ({ nz := false } : Acc)
    let h := g.set 3 (Acc.ofNum (Fp.f32.dec 1))
    gwinBase g = (149, false) ∧ (gwinGroup g).length = 194 ∧ (gwinGroup g).take 2 = [0x95, 0] ∧ gwinBase h = (0, true) ∧
    (gwinGroup h).length = 642 := by decide +kernel
/-- R335, R337: sizes of the spec's pool, and the plane of a block. -/
theorem test_kv_sizes :
    let p : Pool := { ctx := 0x1C4, w5 := 0, w6 := 13018202112, w7 := wd (70 + 10 * 2 ^ 8 + 2 ^ 16 + 160 * 2 ^ 24 + 3 * 2 ^ 34 + 8 * 2 ^ 38) }
    p.pb = 819200 ∧ p.ms = 131072 ∧ p.sb = 1114112 ∧ p.nslot = 15890 ∧ blockPlane 5 4095 = 14 := by decide +kernel
/-- R349: sizes of the spec's state region on plane 3. -/
theorem test_opt_sizes :
    let o : OptRegion := ⟨4285714286, 3, ⟨.own, 0, 0, 0, 0, 0⟩⟩
    o.nch = 261580 ∧ o.nb = 14533 ∧ o.h = 524288 ∧ o.size = 2870411264 ∧ o.elems 14532 = 3950 := by decide +kernel
/-- R363: the berth of the spec's inbound FADD. -/
theorem test_berth : (State.reset).inBerth (({ dst := 0x0542, ctx := 0x01C4, opc := Opc.FADD, src := 0x0525, cls := 0, que := 3 } : Hdr).packet) = 6 := by
  decide +kernel

/-! ### Mills: a state in which mill 255 is ready to run a word -/

/-- Allotment 3 runs on all 256 mills with context 0x1234 and one unit of common share. -/
def tRegs : Tbl Word :=
  [(R.ALLOT_STS_W0 3, 0x1801234FF00), (R.ALLOT_STS_W1 3, 0x800)]

/-- Mill 255 is `x`, and `w` is the first word of the text section. -/
def tState (w : BitVec 32) (x : Mill) : State :=
  State.setScratch { qd := { regs := tRegs, grid := { mills := [(255, x)], allots := [(3, { textLen := 128 })] } } }
    255 0 (bytesOf 4 w.toNat)

/-- A running mill with its registers. -/
def tMill (s : Tbl Word) : Mill := { run := .running, handler := 32, s := s }

theorem tState_mill (w : BitVec 32) (x : Mill) : (tState w x).mill 255 = x := rfl

/-- The same with nothing in the grid. -/
def tBare : State := { qd := { regs := tRegs } }
theorem tBare_allot : tBare.allotOf 255 = some 3 ∧ tBare.alState 3 < 4 := by decide +kernel

theorem tState_word (w : BitVec 32) (x : Mill) : natOf ((tState w x).scratch 255 0 4) = w.toNat := by
  have e : (tState w x).scratch 255 0 4 = bytesOf 4 w.toNat := by
    have g : (tState w x).qd.grid.scratch = putBytes [] (255 * 2 ^ 21) (bytesOf 4 w.toNat) := rfl
    simp only [State.scratch, g, at_putBytes, bytesOf, List.length_cons, List.length_nil]
    rfl
  rw [e]
  simp only [bytesOf, natOf, BitVec.toNat_ofNat]
  omega

theorem tState_ready (w : BitVec 32) (x : Mill) (h : x.run = .running ∧ x.pc = 0 ∧ x.dhalt = false ∧
    x.wait.inFlight = false ∧ x.breaks = false ∧ x.haltReq = false ∧ x.stepping = false) :
    MillReady (tState w x) 255 3 w := by
  refine ⟨tBare_allot.1, tBare_allot.2, h.1, h.2.2.1, h.2.2.2.1, h.2.2.2.2.1, h.2.2.2.2.2, ?_, ?_⟩
  · rw [tState_mill, h.2.1]; rfl
  · rw [tState_mill, h.2.1]; exact tState_word w x

/-- Mill 255 is ready to run a word in a state whose mill runs at PC 0. -/
theorem tReady (w : BitVec 32) (s : Tbl Word) : MillReady (tState w (tMill s)) 255 3 w :=
  tState_ready w _ ⟨rfl, rfl, rfl, rfl, (by decide : ({} : Mill).breaks = false), rfl, rfl⟩

/-- Mill 255 with the given s registers is ready to run a word. -/
abbrev Can (w : BitVec 32) (s : Tbl Word) : Prop := MillReady (tState w (tMill s)) 255 3 w

theorem tState_textEnd (w : BitVec 32) (x : Mill) : (tState w x).textEnd 3 = 128 :=
  (by decide : roundUp (0 + 128) 64 = 128)

/-! ### Mills: the hypotheses of the statements -/

theorem witness_ScalarRegisterResults :
    (∀ fn, Can (wordA 0x00 fn ⟨31, 1, 2⟩) [(1, 5), (2, 7)]) ∧
    (⟨31, 1, 0⟩ : FmtA).sb.val = 0 ∧ (∀ fn, Can (wordA 0x00 fn ⟨31, 1, 0⟩) [(1, 5)]) :=
  ⟨fun _ => tReady _ _, rfl, fun _ => tReady _ _⟩

theorem witness_ScalarImmediateResults :
    (∀ maj, Can (wordI maj ⟨4, 1, 0x8000⟩) []) ∧
    (⟨4, 0, 0x8000⟩ : FmtI).sa.val = 0 ∧ Can (wordI 0x05 ⟨4, 0, 0x8000⟩) [] ∧
    ((63 : BitVec 16).toNat / 64 = 0 ∧ Can (wordI 0x06 ⟨4, 1, 63⟩) []) ∧
    ((64 : BitVec 16).toNat / 64 = 1 ∧ Can (wordI 0x06 ⟨4, 1, 64⟩) []) ∧
    ((191 : BitVec 16).toNat / 64 = 2 ∧ Can (wordI 0x06 ⟨4, 1, 191⟩) []) ∧
    (∃ i j : Nat, i ≠ 0 ∧ j ≠ i) :=
  ⟨fun _ => tReady _ _, rfl, tReady _ _, ⟨by decide, tReady _ _⟩, ⟨by decide, tReady _ _⟩, ⟨by decide, tReady _ _⟩,
    1, 2, by decide⟩

/-- An address from the mill's registers. -/
def tAddr (x : Mill) (f : FmtI) : Nat := (x.sr f.sa.val + f.imm.signExtend 64).toNat

theorem witness_ScalarMemory :
    (∀ p ∈ ([(0x08, 1, 7), (0x09, 1, 7), (0x0A, 2, 6), (0x0B, 2, 6), (0x0C, 4, 4), (0x0D, 4, 4), (0x0E, 8, 0)] :
        List (Nat × Nat × BitVec 16)),
      let x := tMill [(1, 0x1FFFF8)]
      Can (wordI p.1 ⟨4, 1, p.2.2⟩) [(1, 0x1FFFF8)] ∧ tAddr x ⟨4, 1, p.2.2⟩ % p.2.1 = 0 ∧
        tAddr x ⟨4, 1, p.2.2⟩ + p.2.1 ≤ 2 ^ 21) ∧
    (∀ p ∈ ([(0x10, 1), (0x11, 2), (0x12, 4), (0x13, 8)] : List (Nat × Nat)),
      let w := wordI p.1 ⟨2, 1, 0xFFFF⟩
      Can w [(1, 129)] ∧ tAddr (tMill [(1, 129)]) ⟨2, 1, 0xFFFF⟩ = 128 ∧ 128 % p.2 = 0 ∧
        (tState w (tMill [(1, 129)])).textEnd 3 ≤ 128) ∧
    (∀ fn, Can (wordA 0x14 fn ⟨4, 1, 2⟩) [(1, 128), (2, 3)] ∧
      (tState (wordA 0x14 fn ⟨4, 1, 2⟩) (tMill [(1, 128), (2, 3)])).textEnd 3 ≤ ((tMill [(1, 128), (2, 3)]).sr 1).toNat) :=
  ⟨fun p hp => ⟨tReady _ _, by revert p hp; decide⟩,
    fun p hp => ⟨tReady _ _, by decide, by revert p hp; decide, Nat.le_of_eq (tState_textEnd _ _)⟩,
    fun _ => ⟨tReady _ _, Nat.le_of_eq (tState_textEnd _ _)⟩⟩

theorem witness_BranchesAndJumps :
    (124 < 2 ^ 21 ∧ ∀ w x, (tState w x).inText 3 124 = true) ∧
    (∀ maj, Can (wordB maj ⟨1, 2, 31⟩) [(2, 1)] ∧ Can (wordB maj ⟨1, 2, 31⟩) [(1, 0xFFFFFFFFFFFFFFFF), (2, 1)] ∧
      Can (wordB maj ⟨1, 2, 31⟩) [(1, 1), (2, 1)]) ∧
    ((0 : Word) ≠ 1 ∧ (0xFFFFFFFFFFFFFFFF : Word).toInt < (1 : Word).toInt ∧
      (1 : Word).toNat ≤ (0xFFFFFFFFFFFFFFFF : Word).toNat ∧ (0 : Word).toNat < (1 : Word).toNat) ∧
    ((0 : Int) + 4 * (31 : BitVec 16).toInt = 124 ∧ Can (wordJ 0x1E 31) [] ∧ (0 : Int) + 4 * (31 : BitVec 26).toInt = 124) ∧
    (Can (wordI 0x1F ⟨31, 1, 0xFFFC⟩) [(1, 128)] ∧ tAddr (tMill [(1, 128)]) ⟨31, 1, 0xFFFC⟩ = 124) :=
  ⟨⟨by decide, fun _ _ => rfl⟩, fun _ => ⟨tReady _ _, tReady _ _, tReady _ _⟩, by decide,
    ⟨by decide, tReady _ _, by decide⟩, tReady _ _, by decide⟩

theorem witness_VectorLaneResults :
    (∀ fn, Can (wordV 0x20 fn ⟨3, 1, 2, 7⟩) []) ∧ (⟨3, 1, 31, 0⟩ : FmtV).pm.val = 0 ∧
    ∀ fn, Can (wordV 0x20 fn ⟨3, 1, 31, 0⟩) [] :=
  ⟨fun _ => tReady _ _, rfl, fun _ => tReady _ _⟩

theorem witness_VectorComparesAndConversions :
    ((⟨7, 1, 2, 1⟩ : FmtV).vd.val < 8 ∧ (∀ maj fn, Can (wordV maj fn ⟨7, 1, 2, 1⟩) []) ∧ (2 : BitVec 2) ≠ 3) ∧
    (∀ p ∈ ([(8, 16, 1), (16, 16, 1), (24, 8, 3), (32, 8, 3), (80, 8, 3), (88, 32, 0)] :
        List (BitVec 7 × Nat × Fin 32)),
      (p.1.toNat / 8, p.2.1) ∈ ([(1, 16), (2, 16), (3, 8), (4, 8), (10, 8), (11, 32)] : List (Nat × Nat)) ∧
      p.1.toNat % 4 = 0 ∧ p.2.2.val < 32 / p.2.1 ∧ ∀ fn, Can (wordV 0x26 fn ⟨3, 1, p.2.2, 0⟩) []) :=
  ⟨⟨by decide, fun _ _ => tReady _ _, by decide⟩,
    fun p hp => ⟨by revert p hp; decide, by revert p hp; decide, by revert p hp; decide, fun _ => tReady _ _⟩⟩

theorem witness_VectorFloatResults :
    (∀ fn, Can (wordV 0x21 fn ⟨3, 1, 2, 1⟩) []) ∧ (0 : BitVec 2) ≠ 3 ∧ (2 : BitVec 2) ≠ 3 ∧
    0x80000000 < (0x80000001 : BitVec 32).toNat ∧ (0xFF800000 : BitVec 32).toNat ≤ 0xFF800000 :=
  ⟨fun _ => tReady _ _, by decide⟩

theorem witness_VectorMemory :
    (Can (wordI 0x22 ⟨3, 1, 0xFFFF⟩) [(1, 0x200000)] ∧
      ((0x200000 : Word) + BitVec.ofInt 64 (128 * (0xFFFF : BitVec 16).toInt)).toNat = 0x1FFF80 ∧
      0x1FFF80 % 128 = 0 ∧ 0x1FFF80 + 128 ≤ 2 ^ 21) ∧
    (Can (wordI 0x23 ⟨3, 1, 1⟩) [] ∧ (tState (wordI 0x23 ⟨3, 1, 1⟩) (tMill [])).textEnd 3 ≤ 128) ∧
    (∀ fn s, s = 128 ∨ s = 0x1FFFFC →
      let w := wordV 0x24 fn ⟨3, 1, 2, 0⟩
      Can w [(1, s)] ∧
      ∀ k, let a := (s + (lane ((tMill [(1, s)]).vr 2) k).setWidth 64).toNat
        a % 4 = 0 ∧ a + 4 ≤ 2 ^ 21 ∧ (tState w (tMill [(1, s)])).textEnd 3 ≤ a) := by
  refine ⟨⟨tReady _ _, by decide, by decide, by decide⟩, ⟨tReady _ _, Nat.le_of_eq (tState_textEnd _ _)⟩,
    fun fn s hs => ⟨tReady _ _, fun k => ?_⟩⟩
  have h : lane ((tMill [(1, s)]).vr 2) k = 0 := by
    have e : (tMill [(1, s)]).vr 2 = (default : BitVec 1024) := by rfl
    rw [e]; apply BitVec.eq_of_toNat_eq; simp [lane, default]
  simp only [h, tState_textEnd]
  rcases hs with rfl | rfl <;> decide

theorem witness_VectorReductions : ∀ fn, Can (wordV 0x25 fn ⟨3, 1, 0, 1⟩) [] := fun _ => tReady _ _

theorem witness_TilesAndAccumulators :
    (∀ w s, Can w s ∧ ((tState w (tMill s)).mill 255).accBusy 3 = false ∧ ((tState w (tMill s)).mill 255).tag 3 = false) ∧
    (∀ w, (tState w (tMill [(1, 128)])).textEnd 3 ≤ ((tMill [(1, 128)]).sr 1).toNat) ∧
    (((tMill [(1, 128)]).sr 1).toNat % 64 = 0 ∧ ((tMill [(1, 0x1FF000)]).sr 1).toNat % 64 = 0 ∧
      ((tMill [(1, 0x1FF000)]).sr 1).toNat + 4096 ≤ 2 ^ 21 ∧ ((tMill [(1, 0x1FF800)]).sr 1).toNat + 2048 ≤ 2 ^ 21) ∧
    (∀ fmt kb : Fin 257, fmt.val = 1 ∨ fmt.val = 10 → kb.val = 1 ∨ kb.val = 256 →
      0 + operandBytes fmt.val kb.val ≤ 2 ^ 21 ∧ 0x100000 + operandBytes fmt.val kb.val ≤ 2 ^ 21) ∧
    (∀ w, MillReady (tState w { tMill [(2, 0x100000)] with tags := 4 }) 255 3 w) ∧
    ({ tMill [(2, 0x100000)] with tags := 4 } : Mill).tmma.length < 2 ∧
    ({ tMill [(2, 0x100000)] with tags := 4 } : Mill).accBusy 2 = false ∧
    ({ tMill [(2, 0x100000)] with tags := 4 } : Mill).tag 2 = decide (10 = 10) := by
  refine ⟨fun w s => ⟨tReady _ _, rfl, ?_⟩, fun _ => Nat.le_of_eq (tState_textEnd _ _), by decide, ?_,
    fun w => tState_ready _ _ ⟨rfl, rfl, rfl, rfl, (by decide : ({} : Mill).breaks = false), rfl, rfl⟩, by decide, rfl, by decide⟩
  · exact (by decide : ({} : Mill).tag 3 = false)
  · intro fmt kb h1 h2
    rcases h1 with h1 | h1 <;> rcases h2 with h2 | h2 <;> rw [h1, h2] <;> decide

/-- A mill whose oldest TMMA is that of format `f` on accumulator 3. -/
def tTmma (f : Nat) : Tmma := { acc := 3, fmt := f, trb := true, zero := false, kb := 256, aAddr := 0, bAddr := 64, a := [], b := [] }

theorem witness_MatrixMultiplyResults : ∀ f, f = 1 ∨ f = 10 →
    let s := tState 0 { tMill [] with tmma := [tTmma f] }
    (s.mill 255).tmma = tTmma f :: [] ∧ (s.mill 255).wait ≠ .tfence ∧ (tTmma f).acc < 4 ∧ 1 ≤ (tTmma f).fmt ∧
      (tTmma f).fmt ≤ 10 := by
  intro f hf; rcases hf with rfl | rfl <;> decide

/-- A mill with endpoint 7 as given. -/
def tEnd (s : Tbl Word) (e : QEnd) : Mill := { tMill s with qs := [(7, e)] }

theorem tEnd_ready (w : BitVec 32) (s : Tbl Word) (e : QEnd) : MillReady (tState w (tEnd s e)) 255 3 w :=
  tState_ready _ _ ⟨rfl, rfl, rfl, rfl, (by decide : ({} : Mill).breaks = false), rfl, rfl⟩

theorem witness_QueueEndpointOperations :
    (∀ w s e, MillReady (tState w (tEnd s e)) 255 3 w ∧ ((tState w (tEnd s e)).mill 255).wait = .none) ∧
    (∀ v ∈ ([0, 0x7F9, 0x3FFA, 3, 0x2000000004] : List Nat), v % 8 ≤ 4 ∧ v / 2 ^ 38 = 0 ∧ (v % 8 = 4 → v / 2 ^ 36 % 4 ≤ 2) ∧
      (v % 8 = 1 ∨ v % 8 = 2 → tBare.inAllot 3 (v / 8 % 256) = true)) ∧
    ((⟨2 + 8 * 5, [], 1, 0, [], 0, 0⟩ : QEnd).cfg.toNat % 8 = 2 ∧ (1 : Nat) ≠ 0 ∧ 1 ≤ 256 ∧ 0x1FFF00 + 256 ≤ 2 ^ 21) ∧
    (let k : MsgEnt := ⟨true, 0x3FFF, 0x3FF, [1, 2]⟩;
      (3 : Word).toNat % 8 = 3 ∧ (128 : Word).toNat % 64 = 0 ∧ (128 : Word).toNat + k.data.length ≤ 2 ^ 21 ∧
      (tState 0 (tEnd [] {})).textEnd 3 ≤ (128 : Word).toNat ∧ k.fabric = true ∧ k.data.length ≤ 256 ∧ k.src < 2 ^ 14 ∧
      k.que < 2 ^ 10) ∧
    (1 ≤ 4 ∧ 4 ≤ 4) ∧ ((⟨4, [], 0, 0, [5], 255, 0⟩ : QEnd).outst < 256) := by
  refine ⟨fun w s e => ⟨tEnd_ready w s e, rfl⟩, by decide +kernel, by decide, ⟨by decide, by decide, by decide, ?_, by decide⟩,
    by decide, by decide⟩
  exact Nat.le_of_eq (tState_textEnd _ _)

theorem witness_CountersAndControlWords :
    (∀ w s, Can w s ∧ ((tState w (tMill s)).mill 255).wait = .none ∧ ((tState w (tMill s)).mill 255).errs = [] ∧
      ((tState w (tMill s)).mill 255).dmaq.length < 64 ∧ ((tState w (tMill s)).mill 255).handler ≠ 0 ∧
      ((tState w (tMill s)).mill 255).inh = false) ∧
    (((tMill [(1, 0x1FFFC0)]).sr 1).toNat % 64 = 0 ∧ ((tMill [(1, 0x1FFFC0)]).sr 1).toNat + 64 ≤ 2 ^ 21) ∧
    (∀ st : BitVec 7, let x : Mill := { tMill [(2, 4)] with cnt := [(15, (4, st))] };
      (∀ w, MillReady (tState w x) 255 3 w) ∧ (x.sr 2).toNat ≤ (x.counter 15).1.toNat ∧ (x.counter 15).2 = st) ∧
    (∀ op k : Nat, ∃ f : FmtI, f.imm = BitVec.ofNat 16 (64 * op + k) ∧ Can (wordI 0x38 f) [(1, 0x1FFFFF)]) ∧
    ((tMill [(1, 0x1FFFFF)]).sr 1).toNat < 2 ^ 21 :=
  ⟨fun _ _ => ⟨tReady _ _, rfl, rfl, (by decide : 0 < 64), (by decide : (32 : BitVec 21) ≠ 0), rfl⟩, by decide,
    fun _ => ⟨fun _ => tState_ready _ _ ⟨rfl, rfl, rfl, rfl, (by decide : ({} : Mill).breaks = false), rfl, rfl⟩,
      Nat.le_refl 4, rfl⟩,
    fun op k => ⟨⟨4, 1, BitVec.ofNat 16 (64 * op + k)⟩, rfl, tReady _ _⟩, by decide⟩

theorem witness_FencesHandlersAndWaits :
    (∀ w s, Can w s ∧ ((tState w (tMill s)).mill 255).vq0 = [] ∧ ((tState w (tMill s)).mill 255).vq1 = [] ∧
      ((tState w (tMill s)).mill 255).storeFail = none ∧ ((tState w (tMill s)).mill 255).tmma = []) ∧
    (∀ w, let x : Mill := { tMill [] with inh := true, epc := 124, brkEn := true };
      MillReady (tState w x) 255 3 w ∧ x.inh = true ∧ x.brkEn = true ∧ (tState w x).inText 3 x.epc.toNat = true) ∧
    ((0 : Word).toNat ≤ (tState 0 (tMill [])).qd.aon.ns.toNat ∧ (tState 0 (tMill [])).qd.aon.ns.toNat < (1 : Word).toNat) ∧
    (let s := tState 0 { tMill [] with wait := .waitt 1 };
      s.allotOf 255 = some 3 ∧ s.alState 3 < 4 ∧ (s.mill 255).wait = .waitt 1 ∧ (s.mill 255).run = .running ∧
      ((s.mill 255).sr 1).toNat ≤ s.qd.aon.ns.toNat) :=
  ⟨fun _ _ => ⟨tReady _ _, rfl, rfl, rfl, rfl⟩,
    fun _ => ⟨tState_ready _ _ ⟨rfl, rfl, rfl, rfl, (by decide : ({} : Mill).breaks = false), rfl, rfl⟩, rfl, rfl, rfl⟩,
    ⟨Nat.zero_le _, Nat.zero_lt_one⟩, ⟨tBare_allot.1, tBare_allot.2, rfl, rfl, Nat.le_refl 0⟩⟩

theorem tState_other (w : BitVec 32) (x : Mill) (k : Nat) (h : k ≠ 255) : (tState w x).mill k = {} := by
  show Tbl.at [(255, x)] k = _
  have e : (255 == k) = false := by simp; omega
  simp only [Tbl.at, Tbl.get, List.find?, e]
  rfl

theorem witness_ProgramEnds : ∀ w s, Can w s ∧ (∀ l ∈ (tState w (tMill s)).qd.grid.lease, l.2.held = true → l.2.holder.toNat ≠ 255) ∧
    (∀ k da, ((tState w (tMill s)).mill k).wait ≠ .bar da) ∧ ((tState w (tMill s)).mill 255).inh = false := by
  refine fun w s => ⟨tReady _ _, fun l h => ?_, fun k da => ?_, rfl⟩
  · cases h
  · by_cases h : k = 255
    · rw [h]; exact (nofun : MWait.none ≠ .bar da)
    · rw [tState_other _ _ _ h]; exact (nofun : MWait.none ≠ .bar da)

theorem witness_BarrierArrivals :
    (∀ w s, Can w s ∧ ((tState w (tMill s)).allot 3).broken = false ∧ 254 ∈ (tState w (tMill s)).millsOf 3 ∧
      254 ∉ ((tState w (tMill s)).allot 3).arrived) ∧
    (∀ w s, let t := (tState w (tMill s)).mapAllot 3 (fun a => { a with broken := true })
      (t.allot 3).broken = true) ∧
    (∀ w s, let t := (tState w (tMill s)).mapAllot 3 (fun a => { a with arrived := List.range 256 })
      ∀ k ∈ t.millsOf 3, k = 255 ∨ k ∈ (t.allot 3).arrived) := by
  refine ⟨fun w s => ⟨tReady _ _, rfl, ?_, (nofun : 254 ∉ [])⟩, fun _ _ => rfl, fun w s k hk => .inr ?_⟩
  · exact (by decide +kernel : 254 ∈ tBare.millsOf 3)
  · have e : ∀ l, (((tState w (tMill s)).mapAllot 3 (fun a => { a with arrived := l })).allot 3).arrived = l := fun _ => rfl
    rw [e]; exact (List.mem_filter.1 hk).1

theorem witness_MillExceptionsEnterHandler :
    (∀ w s, Can w s ∧ ((tState w (tMill s)).mill 255).handler ≠ 0 ∧ ((tState w (tMill s)).mill 255).inh = false ∧
      ((tState w (tMill s)).mill 255).brkEn = false ∧ (((tState w (tMill s)).mill 255).qe 7).cfg.toNat % 8 = 0 ∧
      124 < (tState w (tMill s)).textEnd 3) ∧
    (⟨4, 1, 1⟩ : FmtA).sb.val ≠ 0 ∧ (⟨4, 1, 0⟩ : FmtI).sa.val ≠ 0 ∧
    ((tMill [(1, 126)]).sr 1 + (0 : BitVec 16).signExtend 64).toNat % 4 ≠ 0 ∧
    (let a := ((tMill [(1, 124)]).sr 1 + (0 : BitVec 16).signExtend 64).toNat; a % 4 = 0 ∧ a + 4 ≤ 2 ^ 21 ∧ a = 124) := by
  refine ⟨fun w s => ⟨tReady _ _, (by decide : (32 : BitVec 21) ≠ 0), rfl, rfl, ?_, ?_⟩, by decide⟩
  · exact (by decide : (({} : Mill).qe 7).cfg.toNat % 8 = 0)
  · rw [tState_textEnd]; decide

theorem witness_MeshCarriesRemoteAccesses :
    (∀ w s, Can w s ∧ ((tState w (tMill s)).mill 255).storeFail = none ∧ (tState w (tMill s)).shareOf 3 = (0, 65536)) ∧
    (∀ e ∈ ([0x200000000, 0x20000FFFC] : List Nat), e % 4 = 0 ∧ 0x200000000 + 0 ≤ e ∧ e + 4 ≤ 0x200000000 + 0 + 65536 ∧
      e + 4 ≤ 0x204000000) ∧
    (tBare.reach 3 255 0x20000FFF8 8 = some (.common 0xFFF8)) ∧
    (let r : MeshReq := ⟨256, 0x200000000, .load, 4, []⟩
      let s := tState 0 { tMill [] with vq0 := [r] };
      (s.mill 255).vq0 = r :: [] ∧ r.op = .load ∧ s.allotOf 255 = some 3) ∧
    (let s := tState 0 { tMill [] with vq1 := [⟨.load, 0x200000000, false, [1, 2, 3, 4]⟩], wait := .load 5 4 true };
      (s.mill 255).run = .running ∧ (s.mill 255).haltReq = false ∧ (s.mill 255).stepping = false) ∧
    (let r : MeshReq := ⟨254, 255 * 8 + 6, .message 7, 1, [9]⟩
      let s := (tState 0 { tMill [] with vq0 := [r] }).mapMill 254 (fun _ => tEnd [] { cfg := 1 + 8 * 255 + 2048 * 6 })
      let e := (s.mill r.dst).qe 7
      (s.mill 255).vq0 = r :: [] ∧ s.allotOf 255 = some 3 ∧ s.inAllot 3 r.dst = true ∧ r.dst ≠ 255 ∧ e.mode = 1 ∧
      e.pmill = 255 ∧ e.pq = r.addr % 8 ∧ e.entries.length < 8 ∧ (s.mill r.dst).wait = .none) ∧
    (let s := tState 0 (tEnd [] { cfg := 2, credits := 7, back := 1 });
      ((s.mill 255).qe 7).back ≠ 0 ∧ ((s.mill 255).qe 7).mode = 2 ∧ (s.mill 255).wait = .none) ∧
    (let s : State := { qd := { grid := { lease := [(4095, { held := true })] } } };
      s.qd.boot.gp = false ∧ (Tbl.at s.qd.grid.lease 4095).held = true) := by
  refine ⟨fun w s => ⟨tReady _ _, rfl, (by decide +kernel : tBare.shareOf 3 = (0, 65536))⟩, by decide, by decide +kernel,
    ⟨rfl, rfl, tBare_allot.1⟩, ⟨rfl, rfl, rfl⟩, ⟨rfl, tBare_allot.1, ?_, by decide, by decide, by decide, by decide,
      by decide, rfl⟩, by decide, by decide⟩
  exact (by decide +kernel : tBare.inAllot 3 254 = true)

/-! ### Mills: results that the spec states -/

/-- Mill 255 after a command. -/
def millAfter (i : Instr) (s : State) : Mill := (after i s).mill 255

/-- R296: MAJ 0, DA 3, SA 1, SB 2, FN 0 is `000000 00011 00001 00010 00000000000`. -/
theorem test_word_add : wordA 0x00 0x000 ⟨3, 1, 2⟩ = 0b00000000011000010001000000000000 := by decide
/-- R296: a TMMA on accumulator 2 with SA 1, SB 2 and PAY 1 is `101000 10 00001 00010 00000000000001`. -/
theorem test_word_tmma : wordT 0x28 ⟨2, 1, 2, 1⟩ = 0b10100010000010001000000000000001 := by decide
/-- R299: ADD wraps; PC goes on by 4. -/
theorem test_add_wraps :
    let x := millAfter (.saluAdd 255 ⟨1, 1, 2⟩) (tState (wordA 0 0 ⟨1, 1, 2⟩) (tMill [(1, 0xFFFFFFFFFFFFFFFF), (2, 2)]))
    x.sr 1 = 1 ∧ x.pc = 4 ∧ x.retired = 1 := by decide +kernel
/-- R300: division by zero gives all ones and its remainder the dividend. -/
theorem test_div_by_zero :
    (millAfter (.div 255 ⟨3, 1, 2⟩) (tState (wordA 0 0xD ⟨3, 1, 2⟩) (tMill [(1, 7)]))).sr 3 = 0xFFFFFFFFFFFFFFFF ∧
    (millAfter (.rem 255 ⟨3, 1, 2⟩) (tState (wordA 0 0xF ⟨3, 1, 2⟩) (tMill [(1, 7)]))).sr 3 = 7 := by decide +kernel
/-- R300: -2^63 by -1. -/
theorem test_div_overflow :
    let s := fun fn => tState (wordA 0 fn ⟨3, 1, 2⟩) (tMill [(1, 0x8000000000000000), (2, 0xFFFFFFFFFFFFFFFF)])
    (millAfter (.div 255 ⟨3, 1, 2⟩) (s 0xD)).sr 3 = 0x8000000000000000 ∧
    (millAfter (.rem 255 ⟨3, 1, 2⟩) (s 0xF)).sr 3 = 0 := by decide +kernel
/-- R294: s0 keeps reading as zero. -/
theorem test_write_s0 :
    (millAfter (.addi 255 ⟨0, 1, 5⟩) (tState (wordI 1 ⟨0, 1, 5⟩) (tMill [(1, 5)]))).sr 0 = 0 := by decide +kernel
/-- R301: LB extends the sign; the byte read is the low byte of the word at PC. -/
theorem test_lb :
    (millAfter (.lb 255 ⟨3, 0, 0⟩) (tState (wordI 8 ⟨3, 0, 0x80⟩) (tMill []))).wait = .none ∧
    (millAfter (.lb 255 ⟨3, 0, 0⟩) (tState (wordI 8 ⟨3, 0, 0⟩) (tMill []))).sr 3 = 0 ∧
    (millAfter (.lb 255 ⟨3, 0, 3⟩) (tState (wordI 8 ⟨3, 0, 3⟩) (tMill []))).sr 3 = 0x20 := by decide +kernel
/-- R301, R325: a store into the text section raises ACCESS (2) with its address. -/
theorem test_store_text :
    let x := millAfter (.sb 255 ⟨0, 1, 0⟩) (tState (wordI 0x10 ⟨0, 1, 0⟩) (tMill [(1, 127)]))
    x.cause = 2 ∧ x.eaddr = 127 ∧ x.pc = 32 ∧ x.inh = true ∧ x.epc = 0 ∧ x.retired = 0 := by decide +kernel
/-- R303: a taken branch goes to PC + 4 × OFF16. -/
theorem test_branch :
    (millAfter (.bltu 255 ⟨1, 2, 5⟩) (tState (wordB 0x1C ⟨1, 2, 5⟩) (tMill [(1, 1), (2, 2)]))).pc = 20 ∧
    (millAfter (.blt 255 ⟨1, 2, 5⟩) (tState (wordB 0x1A ⟨1, 2, 5⟩) (tMill [(1, 3), (2, 2)]))).pc = 4 := by decide +kernel
/-- R310: the sum of the lanes that p1 leaves active. -/
theorem test_rsumi :
    let x : Mill := { tMill [] with v := [(1, ofLanes (fun i => BitVec.ofNat 32 i))], p := [(1, 0x0000000F)] }
    (millAfter (.rsumi 255 ⟨3, 1, 0, 1⟩) (tState (wordV 0x25 3 ⟨3, 1, 0, 1⟩) x)).sr 3 = 6 := by decide +kernel
/-- R303: JAL leaves PC + 4 in s31. -/
theorem test_jal :
    let x := millAfter (.jal 255 3) (tState (wordJ 0x1E 3) (tMill []))
    x.pc = 12 ∧ x.sr 31 = 4 := by decide +kernel
/-- R307: 1.5 + 2.25 = 3.75 in FP32, in every lane. -/
theorem test_vfadd :
    let v := fun (c : Nat) => ofLanes (fun _ => BitVec.ofNat 32 c)
    let x : Mill := { tMill [] with v := [(1, v 0x3FC00000), (2, v 0x40100000)] }
    lane ((millAfter (.vfadd 255 ⟨3, 1, 2, 0⟩ 0) (tState (wordV 0x21 0 ⟨3, 1, 2, 0⟩) x)).vr 3) 31 = 0x40700000 := by
  decide +kernel

/-! ### Requests that a window of the QD1 serves -/

/-- Window 47: 4 KiB from address 0x100000 on without translation, context 5, GEN 7, all three permissions. -/
def tEnt : Entry := mkEntry 0x100000 0x1000 (wd (5 + 7 * 2 ^ 16 + 2 ^ 30 + 7 * 2 ^ 32 + 3 * 2 ^ 39)) 0

/-- The QD1 of plane 0 with an entry at window 47. -/
def tQ (e : Entry) : State :=
  { qd := { regs := [(R.DEV_NODE, 160)], node := { wt := [(47, e)] }, hbm := { mem := [(0x100FF0, 0x80), (0x100FFF, 7)] } } }

/-- A request of node 3 and queue 9 to window 47. -/
def tPkt (opc len aux off : Nat) : Packet :=
  ({ dst := 160, ctx := 5, opc := opc, src := 3, cls := 1, gen := 7, que := 9, woff := 47 * 2 ^ 44 + off, tag := 4,
     len := len, aux := aux, tseq := 1 } : Hdr).packet none none
    (if opc = Opc.LD then [] else (List.range len).map (fun i => BitVec.ofNat 8 (i + 1)))

/-- A masked store of zeros, whose E2E is written out. -/
def tMasked (w0 w1 : Word) : Packet :=
  { w0 := w0, w1 := w1, w2 := 0x0012F00000000FC0, w3 := 0x00000240119456AD, mask := some (5, 0xFFFFFFFFFFFFFFFA),
    data := List.replicate 64 0 }
def tStm : Packet := tMasked 0x04003004800140A0 0x00907FFB7FFEBF5F
def tStma : Packet := tMasked 0x04003004C00140A0 0x00907FFB3FFEBF5F

/-- CRC-32C of the mask slot and 64 zeros, 16 bytes at a time. -/
theorem tMasked_crc : crc32c (maskBytes (5, 0xFFFFFFFFFFFFFFFA) ++ List.replicate 64 0) = 0x119456AD := by
  have e : (maskBytes (5, 0xFFFFFFFFFFFFFFFA) ++ List.replicate 64 0 : List Byte) = maskBytes (5, 0xFFFFFFFFFFFFFFFA) ++
      (List.replicate 16 0 ++ (List.replicate 16 0 ++ (List.replicate 16 0 ++ List.replicate 16 0))) := by rfl
  have h0 : crcRun (0x82F63B78 : BitVec 32) (~~~ 0) (maskBytes (5, 0xFFFFFFFFFFFFFFFA)) = 0x25E9C207 := by decide +kernel
  have h1 : crcRun (0x82F63B78 : BitVec 32) 0x25E9C207 (List.replicate 16 0) = 0xDEC5C536 := by decide +kernel
  have h2 : crcRun (0x82F63B78 : BitVec 32) 0xDEC5C536 (List.replicate 16 0) = 0xBC73E7C9 := by decide +kernel
  have h3 : crcRun (0x82F63B78 : BitVec 32) 0xBC73E7C9 (List.replicate 16 0) = 0xCF7636CD := by decide +kernel
  have h4 : crcRun (0x82F63B78 : BitVec 32) 0xCF7636CD (List.replicate 16 0) = 0xEE6BA952 := by decide +kernel
  unfold crcRun at h0 h1 h2 h3 h4
  rw [e]
  simp only [crc32c, crcRun, List.foldl_append]
  rw [h0, h1, h2, h3, h4]
  rfl

/-- The packets of the whole tile of 2 rows of 4 bytes, 64 bytes apart. -/
def tTile (opc : Nat) : List Packet :=
  (tileParts { dst := 160, ctx := 5, opc := opc, src := 3, cls := 1, gen := 7, que := 9, woff := 47 * 2 ^ 44, tag := 4,
               tseq := 1 } (mkGeom 4 2 64 (47 * 2 ^ 44)) (if opc = Opc.TRD then [] else List.replicate 8 0x77)).headD []

/-- One request of each kind, up to the limit of the window. -/
def tReqs : List Packet :=
  [tPkt Opc.LD 16 0 0xFF0, tPkt Opc.ST 16 0 0xFF0, tPkt Opc.STA 8 0 0xFF8,
   tPkt Opc.ADD 4 0 0xFFC, tPkt Opc.FADD 8 1 0xFF8, tPkt Opc.MIN 4 12 0xFFC,
   tPkt Opc.MAX 4 4 0xFFC, tPkt Opc.SWAP 16 2 0xFF0, tPkt Opc.CAS 32 2 0xFF0, tPkt Opc.AND 4 8 0xFFC, tPkt Opc.OR 4 0 0xFFC,
   tPkt Opc.XOR 4 0 0xFFC, tPkt Opc.FPADD 4 16 0xFFC, tPkt Opc.RED 8 0 0xFF8, tPkt Opc.REDA 16 5 0xFF0]

theorem tQ_node (e : Entry) : (tQ e).qdNode = 160 := (by decide +kernel : (tQ tEnt).qdNode = 160)
theorem tQ_calm (e : Entry) (p : Packet) (wr : Bool) (r : List (Nat × Nat)) :
    (tQ e).lineBusy .own wr r = false ∧ (tQ e).streamBusy .own p = false ∧ (tQ e).tileOf .own p = none :=
  ⟨rfl, rfl, by simp [State.tileOf, State.node, tQ]⟩
theorem tQ_entry (e : Entry) : (tQ e).wte .own 47 = e := rfl

/-- A request of the right form and context that lies in an open entry without translation. -/
theorem tServe {e : Entry} {ps : List Packet} {p : Packet} (h0 : ps.head? = some p) (h1 : p.dst = 160) (h2 : p.win = 47)
    (h3 : p.rsp = false) (h4 : rxForm ps = none) (h5 : p.opc ≠ Opc.MSG)
    (h6 : p.gen = 7 ∧ p.ctx = 5 ∧ opcRight p.opc e = true ∧ p.endOff ≤ 0x1000)
    (h7 : e.complOk = true ∧ e.state = 1 ∧ e.prot = false ∧ e.pgsz = 3 ∧ e.gen = 7 ∧ e.ctx = 5 ∧ e.limit = 0x1000) : QdServes (tQ e) .unit ps p e [] := by
  have hp : e.pagesOf p = [] := by simp [Entry.pagesOf, h7.2.2.2.1]
  have he : (tQ e).wte .own p.win = e := by rw [h2]; rfl
  refine ⟨h0, rfl, (by decide +kernel : (tQ tEnt).fenced = false), h1.trans (tQ_node e).symm, by omega, h3, h4, h5,
    by simp [h7.2.2.1], .inl ⟨(tQ_calm e p false []).2.2, he.symm, by simp [State.gather, hp], ?_⟩,
    (tQ_calm e p false []).2.1, (tQ_calm e p _ _).1⟩
  refine ⟨?_, ?_, ?_, ?_, ?_, ?_, ?_, ?_⟩ <;> rw [he]
  · exact h7.1
  · exact h7.2.1
  · rw [h6.1, h7.2.2.2.2.1]
  · rw [h6.2.1, h7.2.2.2.2.2.1]; exact .inr rfl
  · exact h6.2.2.1
  · simp [h7.2.2.1]
  · rw [h7.2.2.2.2.2.2]; exact h6.2.2.2
  · rw [hp]; exact nofun

theorem tReqs_serve : ∀ p ∈ tReqs, QdServes (tQ tEnt) .unit [p] p tEnt [] := by
  intro p hp
  have h : ∀ p ∈ tReqs, p.dst = 160 ∧ p.win = 47 ∧ p.rsp = false ∧ rxForm [p] = none ∧ p.opc ≠ Opc.MSG ∧ p.gen = 7 ∧
      p.ctx = 5 ∧ opcRight p.opc tEnt = true ∧ p.endOff ≤ 0x1000 := by decide +kernel
  obtain ⟨h1, h2, h3, h4, h5, h6⟩ := h p hp
  exact tServe rfl h1 h2 h3 h4 h5 h6 (by decide)

theorem tStm_serve : ∀ p ∈ [tStm, tStma], QdServes (tQ tEnt) .unit [p] p tEnt [] := by
  intro p hp
  have h : ∀ p ∈ [tStm, tStma], p.dst = 160 ∧ p.win = 47 ∧ p.rsp = false ∧ p.opc ≠ Opc.MSG ∧ p.gen = 7 ∧
      p.ctx = 5 ∧ opcRight p.opc tEnt = true ∧ p.endOff ≤ 0x1000 ∧ p.complOk = true ∧ p.e2e = 0x119456AD ∧
      p.formOk = true ∧ p.carriesOk = true ∧ (p.opc == Opc.TRD || p.opc == Opc.TWR) = false := by decide +kernel
  obtain ⟨h1, h2, h3, h5, g1, g2, g3, g4, g5, g6, g7, g8, g9⟩ := h p hp
  have hm : p.mask = some (5, 0xFFFFFFFFFFFFFFFA) ∧ p.data = List.replicate 64 0 := by
    simp only [List.mem_cons, List.not_mem_nil, or_false] at hp
    rcases hp with rfl | rfl <;> exact ⟨rfl, rfl⟩
  have he : p.e2eOk = true := by
    simp only [Packet.e2eOk, Packet.e2eOf, hm.1, hm.2, tMasked_crc, g6]; decide
  exact tServe rfl h1 h2 h3 (by simp [rxForm, g5, he, g7, g8, g9]) h5 ⟨g1, g2, g3, g4⟩ (by decide)

theorem tTile_serve : ∀ opc ∈ [Opc.TRD, Opc.TWR],
    QdServes (tQ tEnt) .unit (tTile opc) ((tTile opc).headD default) tEnt [] := by
  intro opc ho
  have h : ∀ opc ∈ [Opc.TRD, Opc.TWR], (tTile opc).head? = some ((tTile opc).headD default) ∧
      ((tTile opc).headD default).dst = 160 ∧ ((tTile opc).headD default).win = 47 ∧
      ((tTile opc).headD default).rsp = false ∧ rxForm (tTile opc) = none ∧ ((tTile opc).headD default).opc ≠ Opc.MSG ∧
      ((tTile opc).headD default).gen = 7 ∧ ((tTile opc).headD default).ctx = 5 ∧
      opcRight ((tTile opc).headD default).opc tEnt = true ∧ ((tTile opc).headD default).endOff ≤ 0x1000 := by
    decide +kernel
  obtain ⟨h0, h1, h2, h3, h4, h5, h6⟩ := h opc ho
  exact tServe h0 h1 h2 h3 h4 h5 h6 (by decide)

theorem witness_ReadsAnswerWithTheBytes :
    QdServes (tQ tEnt) .unit [tPkt Opc.LD 16 0 0xFF0] (tPkt Opc.LD 16 0 0xFF0) tEnt [] ∧
    QdServes (tQ tEnt) .unit (tTile Opc.TRD) ((tTile Opc.TRD).headD default) tEnt [] ∧ (tTile Opc.TRD).length = 1 ∧
    (tPkt Opc.LD 16 0 0xFF0).opc = Opc.LD ∧ ((tTile Opc.TRD).headD default).opc = Opc.TRD ∧
    ((tTile Opc.TRD).headD default).geom.isSome = true ∧ ∀ a n, (tQ tEnt).qd.hbm.good a n = true :=
  ⟨tReqs_serve _ (List.mem_cons_self ..), tTile_serve Opc.TRD (List.mem_cons_self ..), by decide +kernel,
    by decide +kernel, by decide +kernel, by decide +kernel, fun _ _ => rfl⟩

theorem witness_StoresWriteTheBytes :
    (∀ p ∈ (tReqs.drop 1).take 2, QdServes (tQ tEnt) .unit [p] p tEnt [] ∧ (tEnt.bytesNamed [] p).Nodup) ∧
    ((tReqs.drop 1).take 2).map (·.opc) = [Opc.ST, Opc.STA] ∧
    (∀ p ∈ [tStm, tStma], QdServes (tQ tEnt) .unit [p] p tEnt [] ∧ (tEnt.bytesNamed [] p).Nodup ∧ p.mask.isSome = true) ∧
    [tStm, tStma].map (·.opc) = [Opc.STM, Opc.STMA] ∧ tEnt.mir = false ∧
    QdServes (tQ tEnt) .unit (tTile Opc.TWR) ((tTile Opc.TWR).headD default) tEnt [] ∧
    (tEnt.bytesNamed [] ((tTile Opc.TWR).headD default)).Nodup :=
  ⟨fun p hp => ⟨tReqs_serve _ (List.mem_of_mem_drop (List.mem_of_mem_take hp)), by revert p hp; decide +kernel⟩,
    by decide +kernel, fun p hp => ⟨tStm_serve _ hp, by revert p hp; decide +kernel, by revert p hp; decide +kernel⟩,
    by decide +kernel, by decide, tTile_serve Opc.TWR (by decide), by decide +kernel⟩

theorem witness_AtomicsAreDoneOnce :
    (∀ p ∈ tReqs.drop 3, QdServes (tQ tEnt) .unit [p] p tEnt [] ∧ (tEnt.bytesNamed [] p).Nodup ∧ p.rty = false ∧
      (tQ tEnt).lgTakes p.ctx = false ∧ (tQ tEnt).replayFull .own p.key = false) ∧
    (tReqs.drop 3).map (·.opc) = [Opc.ADD, Opc.FADD, Opc.MIN, Opc.MAX, Opc.SWAP, Opc.CAS, Opc.AND, Opc.OR, Opc.XOR,
      Opc.FPADD, Opc.RED, Opc.REDA] ∧ tEnt.mir = false ∧
    (let p := (tPkt Opc.FADD 8 1 0xFF8).resent
     let r : ReplayEnt := { key := ⟨3, 9, 4, 1⟩, status := 0, old := List.replicate 16 1, at_ := 0 }
     p.rty = true ∧ p.key = r.key ∧ r.old.length ≤ 16 ∧ QdServes (tQ tEnt) .unit [p] p tEnt []) := by
  refine ⟨fun p hp => ⟨tReqs_serve _ (List.mem_of_mem_drop hp), by revert p hp; decide +kernel,
    by revert p hp; decide +kernel, by revert p hp; decide +kernel, rfl⟩, by decide +kernel, by decide, by decide +kernel,
    by decide +kernel, by decide, ?_⟩
  exact tServe rfl (by decide +kernel) (by decide +kernel) (by decide +kernel) (by decide +kernel) (by decide +kernel)
    (by decide +kernel) (by decide)

/-- An entry of window 47 that is not open, or not to this request. -/
def tEntOf (ctx state rights prot kslot limit : Nat) : Entry :=
  mkEntry 0x100000 (wd limit) (wd (ctx + 7 * 2 ^ 16 + kslot * 2 ^ 24 + state * 2 ^ 30 + rights * 2 ^ 32 + prot * 2 ^ 37 +
    3 * 2 ^ 39)) 0

theorem witness_RefusedRequestsChangeNothing :
    (∀ p ∈ tReqs, p.dst = 160 ∧ p.win = 47 ∧ p.rsp = false ∧ p.geom = none ∧ rxForm [p] = none ∧ p.opc ≠ Opc.MSG) ∧
    (∀ e, (tQ e).qdNode = 160 ∧ (tQ e).wte .own 47 = e ∧ (tQ e).streamBusy .own default = false) ∧
    (tQ tEnt).fenced = false ∧
    (∀ e ∈ [tEntOf 5 0 7 0 0 0x1000, tEntOf 5 2 7 0 0 0x1000, tEntOf 6 1 7 0 0 0x1000, tEntOf 0xFFFF 1 0 0 0 0x1000,
            tEntOf 5 1 7 1 0 0x1000, tEntOf 5 1 7 0 0 0xFFF], e.complOk = true) ∧
    ((tEntOf 5 0 7 0 0 0x1000).state = 0 ∧ (tEntOf 5 2 7 0 0 0x1000).state ≠ 0 ∧ (tEntOf 5 2 7 0 0 0x1000).state ≠ 1) ∧
    ((tEntOf 6 1 7 0 0 0x1000).state = 1 ∧ (tEntOf 6 1 7 0 0 0x1000).gen = 7 ∧ (tEntOf 6 1 7 0 0 0x1000).ctx ≠ 0xFFFF ∧
      (tEntOf 6 1 7 0 0 0x1000).ctx ≠ 5) ∧
    (∀ p ∈ tReqs, opcRight p.opc (tEntOf 0xFFFF 1 0 0 0 0x1000) = false ∧ (tEntOf 0xFFFF 1 0 0 0 0x1000).ctx = 0xFFFF) ∧
    ((tEntOf 5 1 7 1 0 0x1000).prot = true ∧ (tEntOf 5 1 7 1 0 0x1000).kslot = 0 ∧
      (tQ (tEntOf 5 1 7 1 0 0x1000)).keyAtDest .own 0 = false ∧ (∀ p ∈ tReqs, p.kslot = 0) ∧
      ∃ p ∈ tReqs, opcPartial p.opc = false ∧ opcRight p.opc (tEntOf 5 1 7 1 0 0x1000) = true) ∧
    ((tEntOf 5 1 7 0 0 0xFFF).prot = false ∧ (tEntOf 5 1 7 0 0 0xFFF).limit = 0xFFF ∧ ∀ p ∈ tReqs, p.endOff = 0x1000) := by
  refine ⟨by decide +kernel, fun e => ⟨tQ_node e, rfl, rfl⟩, by decide +kernel, by decide +kernel, by decide +kernel,
    by decide +kernel, by decide +kernel, ⟨by decide, by decide, by decide, by decide +kernel, ?_⟩, by decide, by decide,
    by decide +kernel⟩
  exact ⟨tPkt Opc.LD 16 0 0xFF0, List.mem_cons_self .., by decide +kernel⟩

/-! ### Requests of the fabric: results that the spec states -/

/-- The bytes of window 47 after a command that the QD1 serves, from an offset on. -/
def bytesAfter (i : Instr) (off n : Nat) : List Byte := (after i (tQ tEnt)).qd.hbm.read (0x100000 + off) n

/-- R61: ST writes its bytes at its offset. -/
theorem test_st : bytesAfter (.st .unit (tPkt Opc.ST 16 0 0xFF0)) 0xFEF 3 = [0, 1, 2] := by decide +kernel
/-- R62: FADD of 8 bytes adds with wrap: 0x0700... + 0x0807060504030201. -/
theorem test_fadd : bytesAfter (.fadd .unit (tPkt Opc.FADD 8 1 0xFF8)) 0xFF8 8 = [1, 2, 3, 4, 5, 6, 7, 15] := by
  decide +kernel
/-- R62: CAS of 16 bytes against another value leaves the bytes. -/
theorem test_cas_unequal : bytesAfter (.cas .unit (tPkt Opc.CAS 32 2 0xFF0)) 0xFF0 2 = [0x80, 0] := by decide +kernel

/-! ### Mirroring, fences and the inner port: the hypotheses of the statements -/

/-- Window 47 mirrored. -/
def tEntM : Entry := mkEntry 0x100000 0x1000 (wd (5 + 7 * 2 ^ 16 + 2 ^ 30 + 7 * 2 ^ 32 + 2 ^ 38 + 3 * 2 ^ 39)) 0

/-- A FENCE of node 3, queue 9 and class 1. -/
def tFence : Packet :=
  ({ dst := 160, ctx := 5, opc := Opc.FENCE, src := 3, cls := 1, gen := 7, que := 9, tag := 4, tseq := 1 } : Hdr).packet

/-- A mirrored write that has gone to the partner. -/
def tPend (need : Nat) : MirrorPend :=
  { id := 7, then_ := .write .own (tPkt Opc.STA 8 0 0xFF8) [(0x100FF8, [1, 2])] none, answers := [.unitSend tFence], need := need }

/-- A paged window 47 whose page table lies at 0x200000; page 0 is at 0x110000. -/
def tEntP : Entry := mkEntry 0x200000 0x1000 (wd (5 + 7 * 2 ^ 16 + 2 ^ 30 + 7 * 2 ^ 32)) 0

/-- An LD that waits for the page-table entry of page 0, which reads `pte`. -/
def tPaged (pte : Word) : State :=
  (tQ tEntP).mapQd (fun q => { q with
    hbm := { mem := (wordBytes pte).zipIdx.filterMap (fun b => if b.1 = 0 then none else some (0x200000 + b.2, b.1)) }
    node := { q.node with waits := [{ why := .pageTable 3 0, via := .unit, pkts := [tPkt Opc.LD 16 0 0xFF0], ent := some tEntP }] } })

theorem witness_MirroringFencesAndExpiries :
    (QdServes (tQ tEntM) .unit [tPkt Opc.STA 8 0 0xFF8] (tPkt Opc.STA 8 0 0xFF8) tEntM [] ∧ tEntM.mir = true ∧
      (tQ tEntM).mirroring = true ∧ tEntM.ranges [] (tPkt Opc.STA 8 0 0xFF8) = [(0x100FF8, 8)] ∧
      (tPkt Opc.STA 8 0 0xFF8).len = 8) ∧
    (∀ n ∈ [1, 2], let s := (tQ tEnt).mapQd (fun q => { q with node := { q.node with mirrors := [tPend n] } })
      s.qd.node.mirrors.find? (fun x => x.id == 7) = some (tPend n) ∧ (tPkt Opc.STA 8 0 0xFF8).geom = none ∧
      (tPend n).answers = [tFence].map Out.unitSend ∧ s.qd.node.waits = [] ∧ s.qd.mnode.waits = []) ∧
    ((tPend 1).need ≤ 1 ∧ 1 < (tPend 2).need) ∧
    ((tQ tEnt).fenced = false ∧ (tQ tEnt).replayFull .own ⟨3, 9, 4, 1⟩ = false) ∧
    (tFence.dst = 160 ∧ tFence.rsp = false ∧ tFence.opc = Opc.FENCE ∧ rxForm [tFence] = none ∧
      (tQ tEnt).fenceBusy .own .unit tFence [] 0 = false ∧
      (tQ tEnt).fenceBusy .own .unit tFence [{ why := .mirror, via := .unit, pkts := [tPkt Opc.LD 16 0 0xFF0] }] 0 = true) ∧
    (let w : Waiting := { why := .fence 0, via := .unit, pkts := [tFence] }
     let s := (tQ tEnt).mapQd (fun q => { q with node := { q.node with waits := [w] } })
     s.qd.node.waits = [] ++ [w] ++ [] ∧ s.fenceBusy .own .unit tFence [] 0 = false) ∧
    ((tPaged 0x110001).qd.node.waits.length = 1 ∧ (tPkt Opc.LD 16 0 0xFF0).len ≤ 256 ∧
      tEntP.pagesOf (tPkt Opc.LD 16 0 0xFF0) = [(0, 0xFF0)] ∧ (tPaged 0x110001).transOf .own 47 7 0 = none ∧
      (tPaged 0x110001).qd.node.trans.length < 65536 ∧ (tPaged 0x110001).qd.hbm.good 0x200000 8 = true ∧
      tEntP.pteAddr 0 = 0x200000) ∧
    (let x := wd (natOf ((tPaged 0x110001).qd.hbm.read 0x200000 8))
     let t : Trans := { win := 47, page := 0, gen := 7, pte := x, pinned := false }
     pteMapped (tPaged 0x110001) .own tEntP x = true ∧
     (tEntP.bytesNamed [t] (tPkt Opc.LD 16 0 0xFF0)).length = 16) ∧
    pteMapped (tPaged 0x110000) .own tEntP (wd (natOf ((tPaged 0x110000).qd.hbm.read 0x200000 8))) = false := by
  refine ⟨⟨?_, by decide, by decide +kernel, by decide +kernel, by decide +kernel⟩, ?_, by decide, by decide +kernel,
    by decide +kernel, ⟨rfl, rfl⟩, by decide +kernel, by decide +kernel, by decide +kernel⟩
  · exact tServe rfl (by decide +kernel) (by decide +kernel) (by decide +kernel) (by decide +kernel) (by decide +kernel)
      (by decide +kernel) (by decide)
  · intro n hn
    simp only [List.mem_cons, List.not_mem_nil, or_false] at hn
    rcases hn with rfl | rfl <;> exact ⟨rfl, rfl, rfl, rfl, rfl⟩

/-- A Svapo block of slot 3 with window 47 of its own. -/
def tS : State := { sv := { regs := [(SR.SV_NODE, 3)], node := { wt := [(47, tEnt)] } } }

/-- A request of node 160 and queue 9 to window 47 of the Svapo block. -/
def tSPkt (opc len aux off : Nat) : Packet :=
  ({ dst := 3, ctx := 5, opc := opc, src := 160, cls := 1, gen := 7, que := 9, woff := 47 * 2 ^ 44 + off, tag := 4,
     len := len, aux := aux, tseq := 1 } : Hdr).packet none none
    (if opc = Opc.LD then [] else (List.range len).map (fun i => BitVec.ofNat 8 (i + 1)))

def tSReqs : List Packet :=
  [tSPkt Opc.LD 16 0 0xFF0, tSPkt Opc.STA 8 0 0xFF8, tSPkt Opc.MSG 2 3 0, tSPkt Opc.ST 16 0 0xFF0]

theorem tS_node : tS.svNode = 3 := by decide +kernel

theorem witness_InnerPortOperations :
    (∀ p ∈ tSReqs, p.dst = tS.svNode ∧ p.rsp = false ∧ rxForm [p] = none ∧ p.geom = none ∧ tS.streamBusy .sv p = false ∧
      WindowAdmits tS .sv p ∧ tS.lineBusy .sv (opcWrites p.opc) (tEnt.ranges [] p) = false) ∧
    tSReqs.map (·.opc) = [Opc.LD, Opc.STA, Opc.MSG, Opc.ST] ∧ tEnt.prot = false ∧ tEnt.coh = false ∧
    (∀ p ∈ tSReqs, (tEnt.ranges [] p).length ≤ 1) ∧
    (∀ k ∈ [1, 2, 4], let i : Inbound := { tags := [(4095, 0x100FF0, 16)], kind := k, via := .loop, pkts := [tSPkt Opc.LD 16 0 0xFF0], win := 47 }
      let s : State := { tS with sv := { tS.sv with inbound := [i] } }
      s.sv.inbound = [] ++ [i] ++ [] ∧ i.status = 0 ∧ i.via = .loop ∧ s.sv.node.waits = [] ∧ i.got = [] ∧ i.kind = k ∧
      (4095 : BitVec 12).toNat ∈ s.rqiUsed) ∧
    (∀ i ∈ tS.sv.inbound, ∀ t ∈ i.tags, t.1 ≠ 0) := by
  refine ⟨fun p hp => ?_, by decide +kernel, by decide, by decide, by decide +kernel, ?_, by decide⟩
  · have h : ∀ p ∈ tSReqs, p.dst = 3 ∧ p.win = 47 ∧ p.rsp = false ∧ rxForm [p] = none ∧ p.geom = none ∧ p.gen = 7 ∧
        p.ctx = 5 ∧ opcRight p.opc tEnt = true ∧ p.endOff ≤ 0x1000 ∧ tEnt.pagesOf p = [] := by decide +kernel
    obtain ⟨h1, h2, h3, h4, h5, h6, h7, h8, h9, g1⟩ := h p hp
    have he : tS.wte .sv p.win = tEnt := by rw [h2]; rfl
    refine ⟨h1.trans tS_node.symm, h3, h4, h5, rfl, ?_, by simp [State.lineBusy, tS]⟩
    refine ⟨?_, ?_, ?_, ?_, ?_, ?_, ?_, ?_⟩ <;> rw [he]
    · decide
    · decide
    · rw [h6]; decide
    · rw [h7]; decide
    · exact h8
    · exact nofun
    · exact Nat.le_trans h9 (by decide)
    · rw [g1]; exact nofun
  · intro k hk
    simp only [List.mem_cons, List.not_mem_nil, or_false] at hk
    rcases hk with rfl | rfl | rfl <;> exact ⟨rfl, rfl, rfl, rfl, rfl, rfl, by decide⟩

/-! ### Bells, messages, register windows and sources: the hypotheses of the statements -/

/-- A bell of node 3 at bell 511 of its page, with a producer index of `n`. -/
def tBell (n : Nat) : Packet :=
  ({ dst := 160, ctx := 5, opc := Opc.BELL, src := 3, cls := 0, gen := 7, que := 9, woff := 48 * 2 ^ 44 + 3 * 4096 + 511 * 8,
     tag := 4, len := 8, tseq := 1 } : Hdr).packet none none (bytesOf 8 (n + 2 ^ 32 * (2 ^ 32 - 1 - n)))

/-- Queue 4095 of node 3 and context 5 with a ring of 64 entries, at bell 511. -/
def tBind : Entry :=
  mkEntry (wd (3 * 2 ^ 50)) (wd (3 * 2 ^ 50)) (wd (3 * 2 ^ 50)) (wd (5 + 7 * 2 ^ 16 + 6 * 2 ^ 24 + 1 * 2 ^ 29 + 511 * 2 ^ 37 + 2 ^ 56))

def tRing : State := { qd := { regs := [(R.DEV_NODE, 160)], rings := { bind := [(4095, tBind)], qs := [(4095, { pi := 1 })] } } }

/-- A message for endpoint 7 of mill 255. -/
def tMsg : Packet :=
  ({ dst := 160, ctx := 0x1234, opc := Opc.MSG, src := 3, cls := 1, gen := 7, que := 9, woff := 50 * 2 ^ 44 + 255, tag := 4,
     len := 2, aux := 7, tseq := 1 } : Hdr).packet none none [8, 9]

/-- The QD1 with fabric access for context 0x77. -/
def tOp : State := { qd := { regs := [(R.DEV_NODE, 160), (R.ACC_CTL, 0x10077)] } }

/-- A register access at an offset. -/
def tReg (opc off : Nat) : Packet :=
  ({ dst := 160, ctx := 0x77, opc := opc, src := 3, cls := 1, que := 9, woff := 63 * 2 ^ 44 + off, tag := 4, len := 8,
     tseq := 1 } : Hdr).packet none none (if opc = Opc.LD then [] else bytesOf 8 (2 ^ 63))

/-- A management access of plane 17 at an offset. -/
def tMgmt (opc off : Nat) : Packet :=
  ({ dst := 3, ctx := 0, opc := opc, src := 177, cls := 0, que := 576, woff := 63 * 2 ^ 44 + off, tag := 4, len := 8,
     tseq := 1 } : Hdr).packet none none (if opc = Opc.LD then [] else bytesOf 8 1)

theorem witness_BellsMessagesAndRegisterWindows :
    ((∀ n ∈ [1, 64], (tBell n).rsp = false ∧ (tBell n).opc = Opc.BELL ∧ rxForm [tBell n] = none ∧ (tBell n).dst = 160 ∧
      (tBell n).src = mkNode 0 3 ∧ (tBell n).off / 4096 = 3 ∧ (tBell n).off % 4096 / 8 = 511 ∧ (tBell n).ctx = 5 ∧
      natOf (tBell n).data / 2 ^ 32 = (~~~ (BitVec.ofNat 32 n)).toNat) ∧
      tRing.qdNode = 160 ∧ tRing.qdRack = 0 ∧ tRing.fenced = false ∧ tRing.replaying = false ∧
      tRing.bellQueue false 3 511 = some 4095 ∧ (tRing.bind 4095).qctx = 5 ∧ (tRing.bind 4095).ringN = 64 ∧
      (tRing.bind 4095).qmir = false ∧ (tRing.sq 4095).ci = 0 ∧ (tRing.sq 4095).pi = 1) ∧
    (tMsg.rsp = false ∧ tMsg.opc = Opc.MSG ∧ tMsg.win = 50 ∧ rxForm [tMsg] = none ∧ tMsg.off = 255 ∧ tMsg.aux = 7 ∧
      tMsg.kslot = 0 ∧ tMsg.ctx = 0x1234) ∧
    (let s := (tState 0 (tEnd [] { cfg := 3, entries := List.replicate 7 default })).setFl F.DEV_NODE_NODE 160;
      s.fenced = false ∧ s.qdNode = 160 ∧ 255 < millCount s.qd.variant ∧ s.unitOn 0 0 = true ∧ s.qd.boot.gp = false ∧
      s.lgTakes 0x1234 = false ∧ ((s.mill 255).qe 7).cfg.toNat % 8 = 3 ∧ s.millCtx 255 = 0x1234 ∧
      ((s.mill 255).qe 7).entries.length < 8 ∧ (s.mill 255).wait = .none) ∧
    ((∀ p ∈ [tReg Opc.LD R.FT_CTL, tReg Opc.STA (R.WT_DATA 0), tReg Opc.STA (R.WT_DATA 3)],
        p.rsp = false ∧ p.win = 63 ∧ rxForm [p] = none ∧ p.dst = 160 ∧ p.kslot = 0 ∧ p.len = 8 ∧ p.off % 8 = 0 ∧
        p.off < 14 * 2 ^ 24 ∧ p.ctx = 0x77 ∧ tOp.isNotice .unit p = false) ∧
      (tReg Opc.STA (R.WT_DATA 3)).off = R.WT_DATA 3 ∧ tOp.qdNode = 160 ∧ tOp.fenced = false ∧
      tOp.fl F.ACC_CTL_OPCTX = 0x77 ∧ tOp.flag F.ACC_CTL_FAB_EN = true) ∧
    (∀ p ∈ [tMgmt Opc.LD 0x18, tMgmt Opc.STA 0xC000, tMgmt Opc.STA 0xC680], p.dst = 3 ∧ p.rsp = false ∧ rxForm [p] = none ∧
      p.len = 8 ∧ p.ctx = 0 ∧ p.src = mkNode (nodeRack tS.svNode) (160 + 17) ∧ tS.sv.inReset = false ∧ p.off % 8 = 0 ∧
      (p.opc = Opc.STA → 0xC000 ≤ p.off ∧ p.off < 0xC688)) := by
  refine ⟨⟨by decide +kernel, by decide +kernel⟩, by decide +kernel, ?_, by decide +kernel, by decide +kernel⟩
  decide +kernel

/-- A Svapo block of slot 3 with queue 31 of context 5, an aperture on window 2 of node 5 and plane 0 live and up. -/
def tE : State :=
  { sv := { regs := [(SR.SV_CTL, 1), (SR.SV_NODE, 3), (SR.SV_LIVE, 1), (SR.SV_QCTL0 31, 0x10005), (SR.SV_PORT_CTL 0, 16),
                     (SR.APERTURE 0 1, 0x10000), (SR.APERTURE 0 2, wd (5 * 2 ^ 50 + 2 * 2 ^ 44)), (SR.APERTURE 0 3, 0x80000005)] } }

/-- A request of queue 31 at offset 0. -/
def tRqo (opc len : Nat) : Rqo :=
  { opc := BitVec.ofNat 8 opc, qid := 31, id := 7, addr := 0, len := BitVec.ofNat 17 len, aux := 0, cls := 0, clsv := false,
    ord := 0, data := if opc = Opc.LD then [] else List.replicate len 1 }

/-- What `prepare` finds, where it finds no error. -/
def prepOk (s : State) (r : Rqo) (f : Prep → Bool) : Bool :=
  match prepare s r with
  | .ok x => f x
  | .error _ => false

theorem prepOk_some {s : State} {r : Rqo} {f : Prep → Bool} (h : prepOk s r f = true) : ∃ x, prepare s r = .ok x ∧ f x = true := by
  unfold prepOk at h
  split at h
  · exact ⟨_, by assumption, h⟩
  · cases h

/-- Whether a request takes the way of plane 0 and is neither coherent nor held back by the limiter. -/
def tGoes (s : State) (r : Rqo) (x : Prep) : Bool :=
  !x.coh && decide (x.dst ≠ s.svNode) && (match s.planeSel x.dst r.qid.val with
    | .go p => decide (p = 0)
    | _ => false) && s.limited x && decide (0 ≤ (Tbl.at s.sv.lim (limKey (nodeSlot x.dst) (x.cls == 2))).tokens)

/-- An outstanding request of queue 31 under tag 511, and its packet. -/
def tSent (opc : Nat) : Packet :=
  ({ dst := 5, ctx := 5, opc := opc, src := 3, cls := 1, que := 31, woff := 2 * 2 ^ 44, tag := 511, len := 8, tseq := 1 } : Hdr).packet
    none none (if opc = Opc.LD then [] else List.replicate 8 1)
def tOut (opc : Nat) : OutReq :=
  { que := 31, tag := 511, tseq := 1, parts := [{ pkts := [tSent opc] }], purpose := .engine (tRqo opc 8) }

/-- Its response. -/
def tResp (opc : Nat) (st : BitVec 7) : Packet :=
  ({ dst := 3, ctx := 5, opc := opc, src := 5, cls := 1, rsp := true, que := 31, woff := 2 * 2 ^ 44, tag := 511, tseq := 1,
     len := if opc = Opc.LD ∧ st = 0 then 8 else 0, status := st } : Hdr).packet none none
    (if opc = Opc.LD ∧ st = 0 then List.replicate 8 9 else [])

theorem witness_SourceTagsAndEngineRequests :
    (let w : TagWait := { que := 513, purpose := .unit 0 0 0 0, parts := [[tSent Opc.LD]] }
     (∀ o ∈ State.reset.unitOut w.que, o.tag < 512) ∧ (State.reset.unitOut w.que).length < unitLimit w.que ∧
     (∀ x ∈ State.reset.qd.srcs.waits, x.que ≠ w.que) ∧
     ¬ ∀ x ∈ ({ qd := { srcs := { waits := [w] } } } : State).qd.srcs.waits, x.que ≠ w.que) ∧
    (tE.sv.inReset = false ∧ 31 % tE.sv.nberth = 15 ∧ 31 % tE.sv.nberth ≠ 14 ∧ tE.qen 31 = true ∧ tE.qen 30 = false ∧
      tE.qctx 31 ≠ 0 ∧ (tE.eq 31).waits = [] ∧ (tE.eq 31).fence = none ∧ (tE.eq 31).acquires = [] ∧ tE.svRun = true ∧
      tE.sv.restoring = 0 ∧ tE.svNode ≠ 0x3FFF ∧ tE.svPortUp 0 = true ∧ tE.sv.held = [] ∧ tE.outOf 31 = [] ∧
      (tE.eq 31).lastCls = none ∧ (tE.eq 31).dests = [] ∧ (tE.eq 31).racks = [] ∧ (tE.eq 31).ended = false) ∧
    (∀ o ∈ [Opc.LD, Opc.ST, Opc.STA], ∃ x, prepare tE (tRqo o 8) = .ok x ∧ tGoes tE (tRqo o 8) x = true) ∧
    (opcIsPosted Opc.ST = true ∧ opcIsPosted Opc.LD = false ∧ opcIsTile Opc.ST = false) ∧
    ((tRqo Opc.FENCE 0).opc.toNat = Opc.FENCE ∧ (tRqo Opc.FENCE 0).len = 0) ∧
    (∀ o ∈ [Opc.LD, Opc.STA], let s : State := { tE with sv := { tE.sv with srcs := { reqs := [tOut o] } } }
      s.sv.srcs.reqs = [] ++ [tOut o] ++ [] ∧ (tOut o).purpose = .engine (tRqo o 8) ∧ (tRqo o 8).qid.val = 31 ∧
      (tSent o).opc = o ∧ (tSent o).kslot = 0 ∧ (tSent o).dst ≠ s.svNode ∧ 0 < s.srf SR.SV_TXN_TMO 16 3) ∧
    (∀ p ∈ [tResp Opc.LD 0, tResp Opc.STA 0, tResp Opc.STA 0x13], p.rsp = true ∧ p.complOk = true ∧ p.dst = 3 ∧
      p.que.toNat = 31 ∧ p.tag.toNat = 511 ∧ p.tseq = 1 ∧ p.ce = false ∧ p.ece = false ∧ p.aux = 0 ∧ p.e2eOk = true ∧
      p.status ≠ St.OK_DUP ∧ p.status ≠ St.COMPL ∧ p.status ≠ St.CHECK) ∧
    (let p := tResp Opc.ST 0x13
     p.rsp = true ∧ opcIsPosted p.opc = true ∧ p.complOk = true ∧ p.dst = 3 ∧ p.que.toNat = 31 ∧ p.status ≠ 0) := by
  refine ⟨by decide +kernel, by decide +kernel, fun o ho => prepOk_some ?_, by decide, by decide +kernel, fun o ho => ?_,
    by decide +kernel, by decide +kernel⟩
  · revert o ho; decide +kernel
  · revert o ho; decide +kernel

/-! ### The Svapo block and the links: the hypotheses of the statements -/

theorem witness_SvapoRegistersAndKeySlots :
    (let g := fun (v : Nat) (k : Nat) => if k = 1 then wd v else tE.sr (SR.APERTURE 255 k)
     let good := fun (v : Nat) => (g v 0).toNat + (g v 1).toNat ≤ 2 ^ 63 ∧ faOff (g v 2) + (g v 1).toNat ≤ 2 ^ 44 ∧
       slotReserved (nodeSlot (faNode (g v 2))) = false ∧ (g v 0).toNat % 2 ^ 16 = 0 ∧ (g v 1).toNat % 2 ^ 16 = 0 ∧
       (g v 2).toNat % 2 ^ 16 = 0 ∧ (g v 3).toNat / 2 ^ 33 = 0
     good (2 ^ 44) ∧ ¬ good (2 ^ 44 + 2 ^ 16)) ∧
    ((tE.apLbase 0 ≤ 0xFFFF ∧ 0xFFFF < tE.apLbase 0 + tE.apLsize 0) ∧
      (∀ i, i < 256 → ¬ (tE.apLbase i ≤ 0x10000 ∧ 0x10000 < tE.apLbase i + tE.apLsize i)) ∧
      (let v := 5 * 2 ^ 50 + 2 * 2 ^ 44 + 0xFFFF
       tE.apFbase 0 ≤ v ∧ v < tE.apFbase 0 + tE.apLsize 0) ∧
      (∀ i, i < 256 → ¬ (tE.apFbase i ≤ 5 ∧ 5 < tE.apFbase i + tE.apLsize i))) ∧
    (let e := fun (w : Nat) => mkEntry 0 0 (wd w) 0
     (tE.wte .sv 63).state = 0 ∧ (e 5).mir = false ∧ (e 5).pin = false ∧ (e 5).prot = false ∧ (tS.wte .sv 47).state ≠ 0 ∧
     (e (2 ^ 41)).pin = true) ∧
    (tE.sv.inReset = false ∧ ({ sv := { inReset := true } } : State).sv.inReset = true) ∧
    (∀ st : BitVec 2, let s : State := { tE with sv := { tE.sv with keys := [(63, { st := st })] } }
      (Tbl.at s.sv.keys 63).st = st) := by
  refine ⟨by decide +kernel, by decide +kernel, by decide +kernel, by decide, fun _ => rfl⟩

/-- Port 17 of a Svapo block in service, with a flit's room. -/
def tP (l : Link) : State :=
  { sv := { regs := [(SR.SV_NODE, 3), (SR.SV_LIVE, 0x21), (SR.SV_PORT_CTL 0, 16), (SR.SV_PORT_CTL 5, 16), (SR.SV_PORT_CTL 17, 16)]
            links := [(17, l)] } }

theorem witness_PlanesAndTheLimiter :
    ((tP {}).inService (.sv 17) = true ∧ (tP {}).svPortUp 17 = true ∧ (tP {}).sv.inReset = false) ∧
    ((tP {}).svLive 0 = true ∧ (tP {}).svLive 5 = true ∧ (tP {}).svPortUp 17 = true) ∧
    (∃ t, exec (.svLiveWrite 0 0x20) (tP {}) = .next t ∧
      (∀ j, j < 18 → ((tP {}).svLive j = true ∧ t.svLive j = false ↔ j = 0)) ∧
      ((List.range 17).map (fun i => (0 + 1 + i) % 18)).filter (fun k => t.svLive k) ≠ []) ∧
    (let s : State := { tE with sv := { tE.sv with restoring := 0x20000 } }
     s.sv.inReset = false ∧ s.sv.restoring ≠ 0 ∧ (∀ o ∈ s.sv.srcs.reqs, 32 < o.que) ∧
     ∀ q, q < 32 → (s.eq q).fence = none ∧ s.fenceTargets q = [] ∧ (s.eq q).waits = []) ∧
    (let s := (State.reset.setFl F.BOOT_STS_STEP 12).setFl (F.LN_PORT_STS_STATE 143) 2
     s.serving = true ∧ s.inSetup = false ∧ s.portUp 143 = true) ∧
    tE.sv.ca = true ∧ Tbl.wf (fun _ => default) tE.sv.lim = true := by
  refine ⟨by decide +kernel, by decide +kernel, ⟨_, rfl, ?_, ?_⟩, by decide +kernel, by decide +kernel, by decide, by decide⟩ <;>
    decide +kernel

/-- Port 17 of a Svapo block, or port 143 of a QD1, in a training state and step. -/
def tPort (p : PortSel) (st step : Nat) (l : Link) : State :=
  match p with
  | .sv n => { sv := { regs := [(SR.SV_NODE, 3), (SR.SV_PORT_CTL n.val, wd (8 * st))], links := [(n.val, { l with step := step })] } }
  | .qd n => ((({ qd := { regs := [(R.DEV_NODE, 160)], links := [(n.val, l)] } } : State).setFl F.BOOT_STS_STEP 9).setFl
      (F.LN_PORT_STS_STATE n) st).setFl (F.LN_PORT_STS_STEP n) step

/-- A flit of SEQ 0 with a bell from its first slot on. -/
def tFlit : List Byte := flitOf (mkPrefix 0 4095 false false (2 ^ 48)) (tBell 1).bytes

theorem witness_FlitsAndRetry :
    (let s := tPort (.sv 17) 2 0 {}
     s.sv.inReset = false ∧ s.portRuns (.sv 17) = true ∧ (s.link (.sv 17)).ctl = [] ∧ (s.link (.sv 17)).pmAsked = 0 ∧
     (s.link (.sv 17)).testAsk = false ∧ (s.link (.sv 17)).resend = [] ∧ (s.link (.sv 17)).txSlots = [] ∧
     (s.link (.sv 17)).txq = [] ∧ ∀ c, c < 4 → Tbl.at (s.link (.sv 17)).owed c = 0) ∧
    (let k := tBell 1
     let l := (tPort (.sv 17) 2 0 { txq := [k], cred := [(0, 1)] }).link (.sv 17)
     l.txq = [k] ∧ l.kept.length < 256 ∧ k.slots ≤ 15 ∧ isMgmt k = false ∧ pktCells k ≤ Tbl.at l.cred 0 ∧ k.cls = 0) ∧
    (let x : KeptFlit := { seq := 9, fields := 0, slots := [], resent := 7 }
     let l := (tPort (.sv 17) 2 0 { kept := [x], resend := [9] }).link (.sv 17)
     l.resend = 9 :: [] ∧ l.kept.find? (fun y => decide (y.seq = 9)) = some x ∧ x.resent < 8) := by
  refine ⟨by decide +kernel, by decide +kernel, by decide +kernel⟩

set_option maxRecDepth 100000 in
/-- The flit is what its block decodes to. A port whose last SEQ is 0 has had it, one whose last SEQ is 0xFFF has not. -/
theorem witness_FlitsAndRetry_receive :
    (blockOf tFlit).length = 272 ∧ blockDecode (blockOf tFlit) = some (tFlit, []) ∧ flitCheckOk tFlit = true := by decide +kernel

set_option maxRecDepth 100000 in
theorem witness_FlitsAndRetry_fields :
    let w := flitPrefix tFlit
    let b := flitSlots tFlit
    pfSeq w = 0 ∧ pfAck w = 4095 ∧ pfNak w = false ∧ pfCtrl w = false ∧ fget w 26 2 = 0 ∧ fget w 28 6 = 0 ∧
    fget w 34 2 = 0 ∧ fget w 36 6 = 0 ∧ (∀ i, i < 15 → (pfHdr w i = true ↔ i = 0)) ∧
    hdrSlots (wordAt b 0) (wordAt b 24) ≤ 15 ∧ isMgmt (packetOf (b.take (16 * hdrSlots (wordAt b 0) (wordAt b 24)))) = false ∧
    (let l : Link := { locked := true }
     l.txSeq = 4095 ∧ l.rxSeq + 1 = 0 ∧ ((false :: l.blocks).take 256).countP (fun b => b) < 8 ∧ l.kept = [] ∧ l.rxSlots = []) := by
  decide +kernel

theorem witness_TrainingSteps : ∀ p ∈ [PortSel.sv 17, .qd 143],
    (((0b0011 : BitVec 4).getLsbD 0 && (0b0011 : BitVec 4).getLsbD 1) = true ∧
      (tPort p 0 0 {}).lanesOn p = true ∧ (tPort p 0 1 {}).pst p = 0 ∧ (tPort p 0 1 {}).pstep p ≤ 1) ∧
    (∀ n ∈ [2, 3, 7], (tPort p 1 n {}).lanesOn p = true ∧ (tPort p 1 n {}).pst p = 1 ∧ (tPort p 1 n {}).pstep p = n ∧
      ((tPort p 1 n {}).link p).mode = 0) ∧
    (let s := tPort p 1 4 { locked := true }
     s.pst p = 1 ∧ s.pstep p = 4 ∧ (s.link p).locked = true) ∧
    (let s := tPort p 1 5 { marks := 15 }
     s.pst p = 1 ∧ s.pstep p = 5 ∧ (∀ i ∈ s.activeLanes p, (s.link p).marks.testBit i = true) ∧ isFerry p = false) ∧
    (let s := tPort p 1 6 { identSeen := true }
     s.pst p = 1 ∧ s.pstep p = 6 ∧ (s.link p).identSeen = true) ∧
    (pairsFailed ((tPort p 1 2 {}).pfailed p ||| 5) = true ∧ pairsFailed ((tPort p 1 2 {}).pfailed p ||| 3) = false) ∧
    ((tPort p 0 2 {}).pst p = 0 ∧ 2 ≤ (tPort p 0 2 {}).pstep p ∧ (tPort p 6 6 {}).pst p = 6) ∧
    ((tPort p 1 6 {}).identOk p 3 9 9 2 = false) := by
  intro p hp
  simp only [List.mem_cons, List.not_mem_nil, or_false] at hp
  rcases hp with rfl | rfl <;> decide +kernel

theorem witness_TrainingSteps_identity :
    (tPort (.sv 17) 1 6 {}).identOk (.sv 17) 0x00A0 17 3 0 = true ∧ (tPort (.qd 143) 1 6 {}).identOk (.qd 143) 0x3FFF 0 0 1 = true := by
  decide +kernel

theorem witness_LowPowerRetrainsAndTests : ∀ p ∈ [PortSel.sv 17, .qd 143],
    (let s := tPort p 2 0 { pmAsked := 1 }
     s.lanesOn p = true ∧ s.portRuns p = true ∧ s.linkIdle p = true ∧ (s.link p).pmAsked = 1 ∧ (s.link p).pmIn = 0 ∧
     (s.link p).pmGot = 0 ∧ (∀ m ∈ (s.link p).ctl, m.headD 0 ≠ 7) ∧ s.inService p = true ∧ isFerry p = false ∧
     pairsFailed (s.pfailed p ||| 3) = false ∧ pairsFailed (s.pfailed p ||| 15) = true ∧ (s.link p).narrow = false) ∧
    (tPort p 2 0 { txSlots := [0] }).linkIdle p = false ∧
    ((tPort p 4 0 {}).pst p = 4 ∧ (tPort p 5 0 {}).pst p = 5 ∧ (tPort p 5 0 {}).lanesOn p = true) ∧
    ((tPort p 2 0 { testAsk := true }).link p).testAsk = true := by
  intro p hp
  simp only [List.mem_cons, List.not_mem_nil, or_false] at hp
  rcases hp with rfl | rfl <;> decide +kernel

theorem witness_LowPowerRetrainsAndTests_qd :
    (let s := (tPort (.qd 143) 2 0 {}).setFl (F.LN_PORT_CTL_LQ_AUTO 143) 1
     s.flag ⟨R.LN_PORT_CTL 143, 3, 12⟩ = true ∧ s.linkIdle (.qd 143) = true) ∧
    (let s := (tPort (.qd 143) 0 0 {}).setFl F.BOOT_STS_SETUP 1
     s.lanesOn (.qd 143) = true ∧ s.inSetup = true ∧ s.inService (.qd 143) = false) := by decide +kernel

/-! ### The switch, the windows and the rings: the hypotheses of the statements -/

/-- The QD1 of plane 0 whose route to slot 5 is entry `v`, with credits of ingress 3. -/
def tSw (v : Nat) : State :=
  { qd := { regs := [(R.DEV_NODE, 160), (R.RT_LOCAL 5, withCompl v)], sw := { cg := [(13, 8)], cs := [(13, 8)] } } }

/-- A response's data packet, two cells of class 1, for slot 5. -/
def tCross (bad : Bool) : Packet :=
  let p := ({ dst := 5, ctx := 5, opc := Opc.STA, src := 3, cls := 1, que := 9, woff := 2 ^ 44, tag := 4, len := 8, tseq := 1 } : Hdr).packet
    none none [1, 2, 3, 4, 5, 6, 7, 8]
  if bad then { p with w3 := p.w3 ^^^ 1 } else p

/-- One cell in the buffer. -/
def tCell (egr : Nat) : State :=
  { qd := { sw := { buf := [{ ing := 159, egr := egr, cls := 0, pkt := tCross false }] } } }

theorem witness_PacketsEnterAndCrossTheSwitch :
    (∀ v ∈ [7 + 256, 159 + 256, 0, 3 * 256], (tSw v).fenced = false ∧ (tSw v).qdNode = 160 ∧ (tSw v).qd.fault.takeover = false ∧
      (tSw v).qdRack = 0 ∧ fget ((tSw v).rg (R.RT_LOCAL 5)) 32 32 = 2 ^ 32 - 1 - fget ((tSw v).rg (R.RT_LOCAL 5)) 0 32 ∧
      (tSw v).qd.sw.rtBad = []) ∧
    (let p := tCross false
     p.complOk = true ∧ p.e2eOk = true ∧ nodeSlot p.dst = 5 ∧ nodeRack p.dst = 0 ∧ toDirectory p = false ∧ p.cls = 1 ∧
     p.rsp = false ∧ isMgmt p = false ∧ pktCells p ≤ Tbl.at (tSw 263).qd.sw.cg 13 + Tbl.at (tSw 263).qd.sw.cs 13) ∧
    ((tCross true).complOk = true ∧ (tCross true).e2eOk = false ∧ (tCross true).rsp = false) ∧
    (fget ((tSw (159 + 256)).rg (R.RT_LOCAL 5)) 0 8 = 159 ∧ fget ((tSw (159 + 256)).rg (R.RT_LOCAL 5)) 8 2 = 1 ∧
      fget ((tSw 0).rg (R.RT_LOCAL 5)) 8 2 = 0 ∧ fget ((tSw (3 * 256)).rg (R.RT_LOCAL 5)) 8 2 = 3) ∧
    (∀ e ∈ [160, 171, 173, 175], 160 ≤ e ∧ e < 176 ∧ e ≠ 172 ∧ (tCell e).qd.sw.stage = [] ∧ (tCell e).qd.node.waits = []) ∧
    (∀ e ∈ [144, 159], 144 ≤ e ∧ e < 160 ∧ ((tCell e).setRg (R.SW_PORT_CTL e) 0).flag (F.SW_PORT_CTL_MARK_EN e) = false) := by
  refine ⟨by decide +kernel, by decide +kernel, by decide +kernel, by decide +kernel, by decide +kernel, by decide +kernel⟩

/-- A hot line's FADD of 4 bytes, and an update of it. -/
def tFadd : Packet := tPkt Opc.FADD 4 0 0xFFC
def tUpd (add sent acked : Bool) (n : Nat) : Update :=
  { isAdd := add, head := tFadd, tseq := 1, total := 5, members := [(tFadd, 0)], recSent := sent, recAcked := acked, awaiting := n }
def tMerge (u : Update) : State := { qd := { sw := { merge := [(511, some { dst := 160, line := 31, egr := 7, update := some u })] } } }

/-- The answer to a sent update. -/
def tUpdAns : Packet :=
  ({ dst := 160, ctx := 5, opc := Opc.FADD, src := 160, cls := 1, rsp := true, que := 512, tag := 511, len := 4, tseq := 1 } : Hdr).packet
    none none [1, 2, 3, 4]

theorem witness_HotLinesAreCombined :
    (∀ a b c : Bool, (Tbl.at (tMerge (tUpd a b c 0)).qd.sw.merge 511).isSome = true ∧
      (tMerge (tUpd a b c 0)).qd.sw.heldQ = []) ∧
    ((tMerge (tUpd true false false 0)).mirroring = true ∧ (tMerge (tUpd true true false 0)).lgTakes 5 = false) ∧
    (let s : State := { qd := { regs := [(R.DEV_NODE, 160)], sw := { sentUpd := [(511, 160, 7, tUpd true true true 1)] } } }
     tUpdAns.rsp = true ∧ tUpdAns.complOk = true ∧ tUpdAns.que = 512 ∧ tUpdAns.dst = 160 ∧ s.qdNode = 160 ∧
     tUpdAns.tag.toNat = 511 ∧ tUpdAns.tseq = 1 ∧ tUpdAns.status = St.OK ∧ ∀ x ∈ (tUpd true true true 1).members, x.1.opc = Opc.FADD) ∧
    (∃ r : CombineRec, r.members ≠ [] ∧ { r with members := [] }.members = []) := by
  refine ⟨fun a b c => ⟨rfl, rfl⟩, by decide +kernel, by decide +kernel,
    ⟨⟨511, 160, 5, 511, 1, [⟨⟨3, 9, 4, 1⟩, 0⟩], default⟩, by simp, rfl⟩⟩

/-- A route-table entry that may be held. -/
def tRt (hold : Option (Nat × Word × Option Word × Bool)) : State :=
  { qd := { regs := [(R.RT_REMOTE 63, 0)], sw := { rtHold := hold } } }

theorem witness_RouteChanges :
    ((tRt none).qd.sw.rtHold = none) ∧
    (∀ d : Bool, (tRt (some (255, withCompl 263, none, d))).qd.sw.rtHold = some (255, withCompl 263, none, d)) ∧
    (let s := tRt (some (255, withCompl 263, none, false))
     (∀ c ∈ s.qd.sw.buf, c.route = 255 → c.held = true) ∧ (∀ c ∈ s.qd.sw.stage, c.route ≠ 255) ∧
     fget (withCompl 263) 0 8 < 160 ∧ (Tbl.at s.qd.links 7).kept = []) ∧
    (fget (0x7F8 : Word) 3 8 = 255 ∧ bitAt (0x7F8 : Word) 2 = false ∧ fget (0x1FC : Word) 3 8 = 63 ∧ bitAt (0x1FC : Word) 2 = true) ∧
    ((State.reset.setFl F.BOOT_STS_SETUP 1).inSetup = true ∧ State.reset.inSetup = false) ∧ (319 ∉ (tRt none).qd.sw.rtBad) := by
  refine ⟨rfl, fun _ => rfl, by decide +kernel, by decide, by decide +kernel, by decide⟩

/-- The check of the last remote entry fails, and of no other. -/
theorem witness_RouteChanges_scrub : ∀ j, j < 320 →
    let o := fun (j : Nat) => if j < 256 then R.RT_LOCAL j else R.RT_REMOTE (j - 256)
    (fget ((tRt none).rg (o j)) 32 32 = 2 ^ 32 - 1 - fget ((tRt none).rg (o j)) 0 32 ↔ j ≠ 319) := by
  have h : (List.range 320).all (fun j =>
      let w := (tRt none).rg (if j < 256 then R.RT_LOCAL j else R.RT_REMOTE (j - 256))
      (fget w 32 32 == 2 ^ 32 - 1 - fget w 0 32) == (j != 319)) = true := by decide +kernel
  intro j hj
  have := List.all_eq_true.1 h j (List.mem_range.2 hj)
  simp only [beq_iff_eq] at this
  show (fget _ 32 32 = _ ↔ _)
  rw [← beq_iff_eq, this, bne_iff_ne]

/-- Window words staged by RSL A. -/
def tStage (w0 w1 w2 : Nat) : State := { qd := { stage := [(0, wd w0), (1, wd w1), (2, wd w2)] } }

theorem witness_WindowTableCommands :
    (∀ x ∈ [(0x10000, 0x10000, 5 + 2 ^ 30 + 3 * 2 ^ 39), (0, 2 ^ 39, 0xFFFF + 2 ^ 30 + 3 * 2 ^ 39), (2 ^ 39 - 2 ^ 16, 2 ^ 29, 1 + 2 ^ 30)],
      let s := tStage x.1 x.2.1 x.2.2
      let d := fun (i : Nat) => s.staged .rslA 0 i
      let e : Entry := ⟨d 0, d 1, d 2, d 3, ~~~ d 0, ~~~ d 1, ~~~ d 2, ~~~ d 3⟩
      let ps := if e.pgsz = 3 then 65536 else e.pageSize
      (s.wte .own 47).state = 0 ∧ e.state = 1 ∧ e.w0.toNat % 2 ^ 16 = 0 ∧ e.w1.toNat < 2 ^ 45 ∧ e.w2.toNat < 2 ^ 42 ∧
        e.w3 = 0 ∧ e.coh = false ∧ e.prot = false ∧ e.ctx ≠ 0 ∧ 0 < e.limit ∧ e.limit % ps = 0 ∧ e.limit ≤ 2 ^ 44 ∧
        (e.baseAddr + if e.pgsz = 3 then e.limit else e.limit / e.pageSize * 8) ≤ granarySize s.qd.variant ∧
        s.pinned + e.pins ≤ 16384 ∧ e.mir = false) ∧
    ((47 : Word).toNat % 64 < 48 ∧ 48 ≤ (48 : Word).toNat % 64 ∧ ((tQ tEnt).wte .own 47).state ≠ 0) ∧
    (((tQ tEnt).wte .own 47).state = 1 ∧ ((tQ tEnt).wte .own 47).mir = false ∧ (tS.wte .sv 47).state = 1) ∧
    (let e := tEntOf 5 2 7 0 0 0x1000
     ((tQ e).wte .own 47).state = 2 ∧ (tQ e).inUse .own 47 = 0 ∧ (tQ e).qd.fault.takeover = false ∧ e.mir = false ∧
     (let w : Waiting := { why := .mirror, via := .unit, pkts := [tPkt Opc.LD 16 0 0xFF0], admitted := some [] }
      let s := (tQ e).mapQd (fun q => { q with node := { q.node with waits := [w] } })
      (s.wte .own 47).state = 2 ∧ 0 < s.inUse .own 47) ∧
     (let s : State := { sv := { node := { wt := [(47, e)] } } }
      (s.wte .sv 47).state = 2 ∧ s.inUse .sv 47 = 0) ∧
     (let s : State := { sv := { node := { wt := [(47, e)] }, inbound := [⟨[], 1, .loop, [tPkt Opc.LD 16 0 0xFF0], 47, 0, 0, [], [], [], [], 0, {}⟩] } }
      (s.wte .sv 47).state = 2 ∧ 0 < s.inUse .sv 47)) ∧
    (let x : Stream := { id := 1, win := 47, base := 0, rowLen := 16, rows := 2, stride := 0x10000, step := 0x20000 }
     let s := (tQ tEntP).mapQd (fun q => { q with node := { q.node with streams := [x] } })
     s.qd.node.streams = [x] ∧ x.prefetch = true ∧ (s.wte .own x.win).state = 1 ∧ (s.wte .own x.win).pgsz ≠ 3) ∧
    (((tQ { tEnt with n0 := 0 }).wte .own 47).mir = false ∧
      ∀ j, j < 48 → (((tQ { tEnt with n0 := 0 }).wte .own j).complOk = false ↔ j = 47)) := by
  refine ⟨by decide +kernel, by decide +kernel, by decide +kernel, by decide +kernel, by decide +kernel, by decide +kernel⟩

theorem witness_RegisterWritesAndThePatrol :
    (let s := State.reset.setFl F.BOOT_STS_SETUP 1
     s.inSetup = true ∧ 1 ≤ (10000 : Word).toNat % 65536 ∧ (10000 : Word).toNat % 65536 ≤ 10000 ∧ 10000 < (10001 : Word).toNat % 65536 ∧
     s.fl F.RT_DRAIN_TMO_TMO ≠ 10001 ∧ State.reset.inSetup = false ∧ State.reset.fl F.RT_DRAIN_TMO_TMO ≠ 1) ∧
    ((4 : Word).toNat % 8 ≠ 0 ∧ 14 * 2 ^ 24 ≤ (0xE000000 : Word).toNat ∧ (0xFFFFFFFFF8 : Word).toNat < 2 ^ 40 ∧ State.reset.sv.inReset = false) ∧
    (let f : EccFinding := ⟨2 ^ 39 - 1, false, 5⟩
     f.correctable = false ∧ f.addr < granarySize State.reset.qd.variant) := by decide +kernel

/-- Queue 4095 of node 3 with a ring of 64 entries in window 2, its completion queue and its status word behind it. -/
def tQEnt (st : Nat) : Entry :=
  mkEntry (wd (3 * 2 ^ 50 + 2 * 2 ^ 44)) (wd (3 * 2 ^ 50 + 2 * 2 ^ 44 + 0x1000)) (wd (3 * 2 ^ 50 + 2 * 2 ^ 44 + 0x1800))
    (wd (5 + 7 * 2 ^ 16 + 6 * 2 ^ 24 + 3 * 2 ^ 29 + 511 * 2 ^ 37 + st * 2 ^ 56))
def tQueue (st : Nat) (x : SQ) : State :=
  { qd := { regs := [(R.DEV_NODE, 160)], rings := { bind := [(4095, tQEnt st)], qs := [(4095, x)] } } }

/-- A descriptor of an opcode at a stage. -/
def tDesc (opc stage : Nat) : Desc := { ridx := 0, words := [withCompl (3 * 256 + opc), withCompl 0, 0, 0, 0, 0, 0, 0], stage := stage }

/-- The fetch of one entry, and what it returns. -/
def tFetch : OutReq :=
  { que := 511, tag := 511, tseq := 1, purpose := .unit Un.FETCH 4095 0 0, parts := [{ pkts := [
    ({ dst := 3, ctx := 5, opc := Opc.LD, src := 160, cls := 1, gen := 7, que := 511, tag := 511, len := 64, tseq := 1 } : Hdr).packet] }] }
def tFetched (flags : Nat) : List Byte :=
  wordBytes (withCompl (3 * 256 + flags)) ++ wordBytes (withCompl 0) ++ List.replicate 48 0

theorem witness_DescriptorsAreFetchedAndStarted :
    ((tQueue 1 { pi := 3 }).fetchTurn = some 4095 ∧ ((tQueue 1 { pi := 3 }).sq 4095).redo = [] ∧
      faOff ((tQueue 1 {}).bind 4095).ring + ((tQueue 1 {}).bind 4095).ringN * 64 ≤ 2 ^ 44) ∧
    (let s := (tQueue 1 { fetching := [{ ridx := 0, n := 1 }] }).mapQd (fun q => { q with srcs := { reqs := [tFetch] } })
     s.fenced = false ∧ s.qd.srcs.reqs = [tFetch] ∧ s.qd.srcs.waits = [] ∧ (s.sq 4095).fetching = [{ ridx := 0, n := 1 }] ∧
     (s.sq 4095).descs = [] ∧ (s.bind 4095).qmir = false ∧ s.lgTakes (s.bind 4095).qctx = false ∧ (s.bind 4095).qtype = 3) ∧
    (∀ x ∈ [0, 2 ^ 18, 2 ^ 19, 2 ^ 18 + 2 ^ 19], (tFetched x).length = 64 ∧
      (let w := fun (i : Nat) => BitVec.ofNat 64 (natOf (((tFetched x).drop (8 * i)).take 8))
       w 0 = withCompl (3 * 256 + x) ∧ w 1 = withCompl 0 ∧ w 2 = 0 ∧ w 4 = 0)) ∧
    (let s := tQueue 1 { descs := [tDesc 0 1] }
     (s.sq 4095).descs = [tDesc 0 1] ∧ (tDesc 0 1).stage = 1 ∧ (tDesc 0 2).stage = 2 ∧ (tDesc 0 2).opc = 0) := by
  refine ⟨by decide +kernel, by decide +kernel, by decide +kernel, by decide +kernel⟩

set_option maxRecDepth 100000 in
/-- The packet that returns a descriptor passes its checks. -/
theorem witness_DescriptorsAreFetchedAndStarted_return :
    let r := ({ dst := 160, ctx := 5, opc := Opc.LD, src := 3, cls := 1, gen := 7, rsp := true, que := 511, tag := 511, len := 64,
                tseq := 1 } : Hdr).packet none none (tFetched (2 ^ 18))
    r.rsp = true ∧ r.opc = Opc.LD ∧ r.complOk = true ∧ r.e2eOk = true ∧ r.status = St.OK ∧ r.que.toNat = 511 ∧
    r.tag.toNat = 511 ∧ r.tseq = 1 ∧ r.data.length = 64 := by decide +kernel

theorem witness_QueuesReportAndComplete :
    (let s := tQueue 3 { statusDue := true, rerr := 5 }
     (s.sq 4095).statusDue = true ∧ s.qd.fault.spare = false ∧ (s.bind 4095).qstate ≠ 0 ∧ s.fenced = false) ∧
    (let d : Desc := { tDesc 4 3 with words := [withCompl (3 * 256 + 4), withCompl 0, 0, 0, 0x1000, 0, 0, 0], count := 2 ^ 32 - 1, sigSent := 5 }
     d.replay = false ∧ d.sig ≠ 0 ∧ d.sigSent < d.count ∧ d.stage < 5 ∧ d.type ≠ Ty.GREEN ∧ d.count < 2 ^ 32) ∧
    (let d := tDesc 0 4
     d.stage = 4 ∧ d.writes = 0 ∧ d.sigOut = 0 ∧ d.sig = 0 ∧ ((tQueue 1 {}).bind 4095).note = false) ∧
    (let s := ((tQueue 0 {}).mapQd (fun q => { q with
       stage := [(8, (tQEnt 1).w0), (9, (tQEnt 1).w1), (10, (tQEnt 1).w2), (11, (tQEnt 1).w3)] }))
     let d := fun (i : Nat) => s.staged .rslA 1 i
     let e : Entry := ⟨d 0, d 1, d 2, d 3, ~~~ d 0, ~~~ d 1, ~~~ d 2, ~~~ d 3⟩
     (4095 : Word).toNat % 4096 = 4095 ∧ (s.bind 4095).qstate = 0 ∧ sqEntryOk s 4095 e = true ∧ e.qmir = false) ∧
    (((tQueue 1 {}).bind 4095).qstate = 1 ∧ ((tQueue 3 {}).bind 4095).qstate = 3 ∧ ((tQueue 1 {}).bind 4095).qmir = false ∧
      (∀ c ∈ (tQueue 1 {}).qd.grid.creates, c.1 ≠ 4095)) ∧
    (let s := tQueue 2 {}
     (s.bind 4095).qstate = 2 ∧ (s.sq 4095).descs.filter (fun d => d.stage != 0) = [] ∧ (s.sq 4095).fetching = [] ∧ (s.sq 4095).redo = [] ∧
     (s.bind 4095).qmir = false ∧ s.qd.fault.takeover = false) ∧
    ((tQueue 2 { descs := [tDesc 4 3] }).bind 4095).qstate = 2 ∧
    ((tQueue 2 { descs := [tDesc 4 3] }).sq 4095).descs.filter (fun d => d.stage != 0) ≠ [] ∧
    (let s : State := { qd := { rings := { bind := [(4095, { tQEnt 1 with n0 := 0 })] } } }
     Tbl.wf (fun _ => default) s.qd.rings.bind = true ∧ (s.bind 4095).complOk = false ∧ (s.bind 0).complOk = true ∧
     (s.bind 4094).complOk = true ∧ (s.bind 4095).qstate = 1 ∧ (s.bind 4095).qmir = false) := by
  refine ⟨by decide +kernel, by decide +kernel, by decide +kernel, by decide +kernel, by decide +kernel, by decide +kernel,
    by decide +kernel, by decide +kernel, by decide +kernel⟩

/-! ### Coherence: the hypotheses of the statements -/

/-- A coherent window: window 47 of node 160, context 5, GEN 7, hamlet 8. -/
def tCw : Word := wd (160 + 47 * 2 ^ 8 + 8 * 2 ^ 14 + 2 ^ 19 + 7 * 2 ^ 20 + 5 * 2 ^ 28)

/-- A line of it whose home is plane 0. -/
def tLine : BitVec 57 := BitVec.ofNat 57 ((160 * 2 ^ 50 + 47 * 2 ^ 44 + 0x680) / 128)

/-- The QD1 of plane 0 with hamlet 8 of the 16 slots 128 to 143 and the line in way 11 of its set. -/
def tCohRegs : Tbl Word :=
  [(R.DEV_NODE, 160), (R.HAM_CFG_W0 8, 0x8786858483828180), (R.HAM_CFG_W1 8, 0x8F8E8D8C8B8A8988), (R.HAM_CFG_W2 8, 0x30),
   (R.COH_WIN 255, tCw)]
def tCoh (hst : BitVec 3) (shr : BitVec 16) (own : BitVec 4) (txns : List DirTxn) : State :=
  { qd := { regs := tCohRegs, dir := {
      ents := [(dirKey tLine 11, { line := tLine, valid := true, hst := hst, shr := shr, own := own, ham := 8 })]
      txns := txns } } }

/-- A message of the protocol from the member of index 15, slot 143, about the line. -/
def tCohMsg (opc aux : Nat) (rsp : Bool) (que tag : Nat) (d : List Byte) : Packet :=
  ({ dst := 160, ctx := 5, opc := opc, src := 143, cls := 1, gen := 7, que := que, woff := 47 * 2 ^ 44 + 0x680, tag := tag,
     rsp := rsp, len := d.length, aux := aux, tseq := 1 } : Hdr).packet none none d
def tCohReq (opc : Nat) : Packet := tCohMsg opc 0 false 9 4 (if opc = Opc.WBD then List.replicate 128 0 else [])

/-- The checks of R147, member 15 and way 11. -/
theorem tDirAdmits {s : State} {p : Packet} (h1 : s.fenced = false) (h2 : p.rsp = false ∧ rxForm [p] = none ∧ (p.opc = Opc.RDNA → p.aux = 0))
    (h3 : s.cohWin p.fabric = some (255, tCw) ∧ p.gen = 7 ∧ p.ctx = 5) (h4 : s.memberOf tCw p.src = some 15)
    (h5 : s.underCensus (lineOf p) = false ∧ s.qd.dir.cmd = none ∧ s.homeLost (lineOf p) = false)
    (h6 : s.txnOf (lineOf p) = none ∧ s.awaits (lineOf p) = false ∧ lineOf p ∉ s.qd.dir.reserved)
    (h7 : s.dirWay (lineOf p) = some (dirKey tLine 11))
    (h8 : (s.dent (dirKey tLine 11)).busy = 0 ∧ (s.dent (dirKey tLine 11)).nxv = false ∧ (s.dent (dirKey tLine 11)).mode = s.effMode tCw) :
    DirAdmits s .unit p tCw 15 (dirKey tLine 11) :=
  ⟨⟨rfl, h1⟩, h2, ⟨⟨255, h3.1⟩, h3.2.1.trans (by decide), h3.2.2.trans (by decide), fun h => absurd h (by decide)⟩,
    ⟨h4, by decide⟩, h5, h6, h7, h8⟩

/-- The requests of the statement, each with the state of its line. -/
def tDirCases : List (Packet × BitVec 3 × BitVec 16 × BitVec 4) :=
  [(tCohReq Opc.RDSH, Hst.I, 0, 0), (tCohReq Opc.RDSH, Hst.S, 1, 0), (tCohReq Opc.RDSH, Hst.X, 1, 0), (tCohReq Opc.RDOWN, Hst.S, 0x7FFF, 0),
   (tCohReq Opc.RDNA, Hst.I, 0, 0), (tCohReq Opc.RDNA, Hst.X, 1, 0), (tCohReq Opc.UPGR, Hst.S, 0x8000, 0), (tCohReq Opc.UPGR, Hst.S, 0xFFFF, 0),
   (tCohReq Opc.WBD, Hst.X, 0x8000, 15), (tCohReq Opc.EVICT, Hst.S, 0x8000, 0), (tCohReq Opc.EVICT, Hst.S, 0x8001, 0)]

set_option maxRecDepth 100000 in
theorem tDirCases_form : ∀ c ∈ tDirCases, rxForm [c.1] = none := by decide +kernel

theorem tDirCases_admit : ∀ c ∈ tDirCases, DirAdmits (tCoh c.2.1 c.2.2.1 c.2.2.2 []) .unit c.1 tCw 15 (dirKey tLine 11) := by
  intro c hc
  have h : ∀ c ∈ tDirCases, let s := tCoh c.2.1 c.2.2.1 c.2.2.2 []
      s.fenced = false ∧ (c.1.rsp = false ∧ (c.1.opc = Opc.RDNA → c.1.aux = 0)) ∧
      (s.cohWin c.1.fabric = some (255, tCw) ∧ c.1.gen = 7 ∧ c.1.ctx = 5) ∧ s.memberOf tCw c.1.src = some 15 ∧
      (s.underCensus (lineOf c.1) = false ∧ s.qd.dir.cmd = none ∧ s.homeLost (lineOf c.1) = false) ∧
      (s.txnOf (lineOf c.1) = none ∧ s.awaits (lineOf c.1) = false ∧ lineOf c.1 ∉ s.qd.dir.reserved) ∧
      s.dirWay (lineOf c.1) = some (dirKey tLine 11) ∧
      ((s.dent (dirKey tLine 11)).busy = 0 ∧ (s.dent (dirKey tLine 11)).nxv = false ∧
        (s.dent (dirKey tLine 11)).mode = s.effMode tCw) := by decide +kernel
  obtain ⟨h1, h2, h3, h4, h5, h6, h7, h8⟩ := h c hc
  exact tDirAdmits h1 ⟨h2.1, tDirCases_form c hc, h2.2⟩ h3 h4 h5 h6 h7 h8

/-- A transaction of the line on entry 63 of its slice. -/
def tTxn (req : Packet) (kind : BitVec 4) : DirTxn :=
  { slice := dirSlice tLine, idx := 63, tseq := 1, line := tLine, kind := kind, cw := tCw, req := some (.unit, req) }

theorem witness_DirectoryServesRequests :
    (∀ c ∈ tDirCases, DirAdmits (tCoh c.2.1 c.2.2.1 c.2.2.2 []) .unit c.1 tCw 15 (dirKey tLine 11) ∧
      (∀ z ∈ (tCoh c.2.1 c.2.2.1 c.2.2.2 []).qd.dir.txns, z.slice = dirSlice (lineOf c.1) → z.idx ≠ 63) ∧
      lineOf c.1 = tLine) ∧
    tDirCases.map (fun c => ((tCoh c.2.1 c.2.2.1 c.2.2.2 []).dent (dirKey tLine 11)).holders) =
      [[], [0], [0], List.range 15, [], [0], [15], List.range 16, [15], [15], [0, 15]] ∧
    (let q := fun (x : DirTxn) (s : State) => s.fenced = false ∧ s.qd.dir.txns = [x] ∧ s.qd.dir.cmd = none ∧
       s.dirWay x.line = some (dirKey tLine 11) ∧ (s.dent (dirKey tLine 11)).nxv = false ∧ s.memberOf x.cw 143 = some 15 ∧
       s.homePlane x.line = s.qdPlane
     let x := { tTxn (tCohReq Opc.RDSH) 1 with memRead := true, grant := 2 }
     q x (tCoh Hst.I 0 0 [x]) ∧
     (let x := { tTxn (tCohReq Opc.RDSH) 2 with snpOpc := Opc.SNPSH, snoops := [15], grant := 1 }
      q x (tCoh Hst.X 0x8000 15 [x])) ∧
     (let x := { tTxn (tCohReq Opc.UPGR) 2 with snpOpc := Opc.SNPINV, snoops := [15], grant := 3, upok := true }
      q x (tCoh Hst.S 0x8001 0 [x])) ∧
     (let x := { tTxn (tCohReq Opc.RDOWN) 2 with snpOpc := Opc.SNPINV, snoops := [0], grant := 3, wb := 2, giver := 15 }
      q x (tCoh Hst.S 0x8001 0 [x]) ∧ x.snoops ≠ [])) ∧
    (∀ r ∈ [tCohMsg Opc.CDATA (3 + 8) true (544 + dirSlice tLine) 63 [1], tCohMsg Opc.CACK (4 + 16) true (544 + dirSlice tLine) 63 [],
            tCohMsg Opc.CACK 3 true (544 + dirSlice tLine) 63 []],
      r.rsp = true ∧ r.complOk = true ∧ r.e2eOk = true ∧ r.status = 0 ∧ r.dst = 160 ∧ dirSlice tLine < 16 ∧
      r.que.toNat = 544 + dirSlice tLine ∧ r.tag.toNat = 63 ∧ r.tseq = 1 ∧ r.src = 143) := by
  refine ⟨fun c hc => ⟨tDirCases_admit c hc, ?_⟩, by decide +kernel, by decide +kernel, by decide +kernel⟩
  revert c hc; decide +kernel

theorem witness_DirectorySetUpAndUpkeep :
    (State.reset.flag (F.HAM_CFG_W2_VALID 8) = false ∧ (tCoh 0 0 0 []).flag (F.HAM_CFG_W2_VALID 8) = true ∧
      Cw.valid (State.reset.rg (R.COH_WIN 255)) = false ∧ Cw.valid ((tCoh 0 0 0 []).rg (R.COH_WIN 255)) = true) ∧
    (let s : State := { qd := { regs := tCohRegs } }
     s.flag F.COH_CMD_STS_BUSY = false ∧ s.qd.dir.ents = [] ∧ (255 + 1024 : Word).toNat % 256 = 255) ∧
    (∀ op ∈ [0, 1, 2], let s : State := { qd := { regs := tCohRegs, dir := { cmd := some (255, op, true) } } }
      s.qd.dir.cmd = some (255, op, true) ∧ s.cmdLeft 255 op = []) ∧
    (let s := (tCoh Hst.S 1 0 []).mapDir (fun d => { d with reserved := [tLine] })
     tLine ∈ s.qd.dir.reserved ∧ s.txnOf tLine = none ∧ s.dirWay tLine = some (dirKey tLine 11) ∧
     (s.dent (dirKey tLine 11)).hst ≠ Hst.I) ∧
    (let x := { tTxn (tCohReq Opc.RDOWN) 2 with snpOpc := Opc.SNPINV, snoops := [15], resends := 1 }
     let s := (tCoh Hst.S 0x8001 0 [x]).setFl F.QD_TXN_TMO_RTY_MAX 2
     s.fenced = false ∧ s.qd.dir.txns = [x] ∧ (544 + BitVec.ofNat 10 x.slice).toNat = 544 + x.slice ∧ (63 : BitVec 9).toNat = x.idx ∧
     x.snoops ≠ [] ∧ x.wb = 0 ∧ x.resends < s.fl F.QD_TXN_TMO_RTY_MAX ∧ s.dirWay x.line = some (dirKey tLine 11)) ∧
    (let c : Census := { lost := 17, mask := 1, waiting := [0, 143] }
     let s : State := { qd := { dir := { census := some c } } }
     s.qd.dir.census = some c ∧ 143 ∈ c.waiting ∧ 0 ∈ c.waiting ∧ 0 ≠ 143) ∧
    (let k := 8192 * 16 - 1
     let e : DirEnt := { line := tLine, valid := true, hst := Hst.S, shr := 1 }
     let s : State := { qd := { regs := [(R.DIR_CTL, 0x2000)], dir := { ents := [(12 * k + 11, e)] } } }
     s.flag F.DIR_CTL_RWMIG = true ∧ s.qd.dir.late = [] ∧ e.valid = true) ∧
    (let f : EccFinding := ⟨16 * 12 * 8192 * 16 - 16, true, 5⟩
     f.correctable = true ∧ f.addr / 16 / (12 * 8192) = 15) := by
  refine ⟨by decide +kernel, by decide +kernel, by decide +kernel, by decide +kernel, by decide +kernel, by decide +kernel,
    by decide +kernel, by decide +kernel⟩

/-- The Svapo block of slot 3 with an agent that holds lines of its coherent window 47 of node 160. -/
def tAg (ls : Tbl AgLine) (reqs : List OutReq) : State :=
  { tE with sv := { tE.sv with ca := true, lines := ls, srcs := { reqs := reqs } } }
def tAgLine (st : AgState) : AgLine :=
  { st := st, age := 1, data := List.replicate 128 5, ctx := 5, gen := 7 }

/-- An access of queue 31 to the last `n` bytes of the line. -/
def tAcc (opc n : Nat) : OutReq :=
  { que := 31, tag := 511, tseq := 1, parts := [], purpose := .access (tRqo opc n) (lineAddr tLine + wd (128 - n)) }

/-- The agent's request for the line, and what comes to it. -/
def tAgReq (opc : Nat) (answered : Bool) (rty : Nat) : OutReq :=
  { que := 32, tag := 255, tseq := 1, purpose := .agent tLine, parts := [{ answered := answered, rty := rty, pkts := [
    ({ dst := 160, ctx := 5, opc := opc, src := 3, cls := 1, gen := 7, que := 32, woff := 47 * 2 ^ 44 + 0x680, tag := 255, tseq := 1 } : Hdr).packet] }] }
def tToAg (opc aux : Nat) (rsp : Bool) (que tag : Nat) (d : List Byte) : Packet :=
  ({ dst := 3, ctx := 5, opc := opc, src := 160, cls := 1, gen := 7, que := que, woff := 47 * 2 ^ 44 + 0x680, tag := tag,
     rsp := rsp, len := d.length, aux := aux, tseq := 1 } : Hdr).packet none none d

/-- A full set of the agent. -/
def tFull (st : AgState) : State :=
  tAg ((List.range 16).map (fun i => (tLine.toNat + i * 2 ^ 22, { tAgLine st with age := 1 + i }))) []

theorem witness_TheCoherenceAgent :
    (∀ ls rs, (tAg ls rs).sv.inReset = false ∧ (tAg ls rs).sv.ca = true ∧ (tAg ls rs).sv.accs = [] ∧ (tAg ls rs).sv.flushing = false) ∧
    (∀ c ∈ [(Opc.LD, 128, AgState.e), (Opc.LD, 1, .e), (Opc.STA, 128, .m), (Opc.STA, 1, .m)],
      let s := tAg [(tLine.toNat, tAgLine c.2.2)] [tAcc c.1 c.2.1]
      let r := tRqo c.1 c.2.1
      let fa := lineAddr tLine + wd (128 - c.2.1)
      accLines r fa = [tLine] ∧ (accKey s r).2 = 0 ∧ (s.eq 31).waits = [] ∧ (s.eq 31).fence = none ∧
      (s.agLine tLine).data.length = 128 ∧ fa.toNat % 128 + r.len.toNat = 128 ∧ (s.agLine tLine).st = c.2.2 ∧
      (c.1 = Opc.STA → r.data.length = r.len.toNat)) ∧
    (∀ c ∈ [(AgState.s, Opc.EVICT), (.m, Opc.WBD)], let s := tFull c.1
      (s.agInSet (agSet tLine)).length = 16 ∧ (∀ y ∈ s.agInSet (agSet tLine), y.2.st.stable = true → (s.agLine tLine).age ≤ y.2.age) ∧
      (s.agLine tLine).st = c.1 ∧ (agSend tLine (s.agLine tLine) c.2 0 s).isSome = true) ∧
    (∀ c ∈ [(Opc.CDATA, AgState.is, [1]), (Opc.CACK, .sm, []), (Opc.CNACK, .is, [])],
      let s := tAg [(tLine.toNat, tAgLine c.2.1)] [tAgReq Opc.RDSH false 0]
      let p := tToAg c.1 1 true 32 255 c.2.2
      p.rsp = true ∧ p.complOk = true ∧ p.e2eOk = true ∧ p.status = 0 ∧ p.dst = s.svNode ∧ p.que = 32 ∧ p.tag = 255 ∧
      p.tseq = 1 ∧ p.opc = c.1 ∧ p.aux = 1 ∧ (s.agLine tLine).st = c.2.1) ∧
    (let s := tAg [(tLine.toNat, tAgLine .is)] [tAgReq Opc.RDSH false 0]
     s.svPortUp 0 = true ∧ 0 < fget (s.sr SR.SV_TXN_TMO) 16 3 ∧
     ∀ b n, ∀ c ∈ (tAgReq Opc.RDSH b n).parts, c.answered = b ∧ c.rty = n ∧ c.plane = 0 ∧ ∀ k ∈ c.pkts, k.opc ≠ Opc.WBD) ∧
    (∀ c ∈ [(tToAg Opc.SNPSH 0 false (544 + dirSlice tLine) 63 [], AgState.m), (tToAg Opc.SNPINV 0 false (544 + dirSlice tLine) 63 [], .s),
            (tToAg Opc.SNPNA 0 false (544 + dirSlice tLine) 63 [], .m)],
      let p := c.1
      p.rsp = false ∧ rxForm [p] = none ∧ p.dst = tE.svNode ∧ p.rty = false ∧ (tAgLine c.2).data.length = 128 ∧
      faWoff (lineAddr tLine) = p.woff ∧ tE.homeMap (homeIdx (lineAddr tLine)) = 0 ∧ p.que.toNat = 544 + dirSlice tLine ∧
      (tAgLine c.2).ctx = p.ctx ∧ (tAgLine c.2).gen = p.gen) ∧
    (let p := tToAg Opc.SNPCEN 0 false 576 0 (List.replicate 18 0xFF)
     p.rsp = false ∧ rxForm [p] = none ∧ p.rty = false ∧ p.dst = tE.svNode ∧
     (BitVec.ofNat 144 (natOf p.data)).getLsbD (homeIdx (lineAddr tLine)) = true) ∧
    (let p := tToAg Opc.RDNA 1 false 9 4 []
     p.rsp = false ∧ rxForm [p] = none ∧ p.rty = false ∧ p.dst = tE.svNode ∧ p.opc = Opc.RDNA ∧ p.aux = 1 ∧
     (∀ n ∈ [63, 64], ((tAg [] ((List.range n).map (fun i => { tAcc Opc.LD 8 with que := 33, tag := i }))).sv.srcs.reqs.filter
       (fun o => o.que == 33)).length = n)) := by
  refine ⟨fun _ _ => ⟨rfl, rfl, rfl, rfl⟩, by decide +kernel, by decide +kernel, by decide +kernel,
    ⟨by decide +kernel, by decide +kernel, fun b n => ?_⟩, by decide +kernel, by decide +kernel, by decide +kernel⟩
  simp only [tAgReq, List.forall_mem_cons, List.not_mem_nil, false_implies, implies_true, and_true, true_and]
  decide +kernel

/-! ### The Green: the hypotheses of the statements -/

/-- Queue 4095 with one started descriptor of given words. -/
def tRun (words : List Word) (stage : Nat) : Desc := { ridx := 0, words := words, stage := stage }
def tRunning (d : Desc) : State := tQueue 1 { descs := [d] }

/-- A collective of the members of slots 0 and 143 in `nr` racks, FP32, with `n` elements. -/
def tGreen (opc nmem nr n : Nat) : List Word :=
  [wd (opc + Ty.GREEN * 256 + (if 2 ≤ nr then 2 else 1) * 2 ^ 16), wd n, 0, 0, 0, 0x1000, 0x2000, 77,
   0, 1, 0, 0x8000, 0, wd (nmem * 2 ^ 32), 0, 0] ++ (if 2 ≤ nr then [0, 64, 0, 0, 0, 0, 0, wd nr] else [])
/-- A QD1 without its partner. -/
def tLone (s : State) : State := s.setFl F.FT_STS_PAIR 1
def tMem : CollMem := { slot := 3, key := 4095, ridx := 0 }
def tColl (opc nmem nr n : Nat) (running : Bool) : Coll :=
  { no := 0, idx := 0, plane := 0, ctx := 5, coll := 77, words := tGreen opc nmem nr n, mems := [tMem], running := running }
def tIns : List GreenMember := [{ member := 0, status := 0, scales := [], icrc := 0, data := [0, 0, 0x80, 0x3F] }, { member := 1, status := 0, scales := [], icrc := 0, data := [0, 0, 0, 0x40] }]

/-- A descriptor of a type and an opcode that stands started at the head of queue 4095. -/
theorem tStarted {w : List Word} {s : State} (type opc : Nat) (h0 : (s.sq 4095).descs = [tRun w 2])
    (h : (tRun w 2).type = type ∧ (tRun w 2).opc = opc) (hp : s.qd.boot.pwr = 0) : Started s 4095 (tRun w 2) [] type opc :=
  ⟨h0, by simp, rfl, h, hp⟩

theorem witness_CollectivesOfTheGreen :
    (∀ opc ∈ [0x10, 0x11, 0x12, 0x13, 0x14, 0x20, 0x21, 0x30, 0x31, 0x01],
      let w := tGreen opc 2 1 65536
      Started (tRunning (tRun w 2)) 4095 (tRun w 2) [] Ty.GREEN opc ∧ Gd.kslot w = 0 ∧ Gd.nrack w < 2) ∧
    ((tLone (tRunning (tRun [] 2))).mirroring = false ∧ (tRunning (tRun [] 2)).qd.green.colls = [] ∧ (tRunning (tRun [] 2)).qd.boot.pwr = 0 ∧
      (let d := tRun ((tGreen 1 0 1 0).take 5 ++ [0x1234, ~~~ 0x1234, 77]) 2
       Started (tRunning d) 4095 d [] Ty.GREEN 1 ∧ d.w 6 = ~~~ (d.w 5))) ∧
    (∀ r : Bool, ∀ w ∈ [tColl 0x10 2 1 1 r, tColl 0x11 2 48 1 r, tColl 0x10 1 1 (18 * 16384 + 1) r],
      let d := tRun w.words 3
      let s := (tRunning d).mapQd (fun q => { q with green := { q.green with colls := [w], seeds := [(5, 9)] } })
      s.qd.green.colls = [w] ∧ w.ended = false ∧ w.mems = [tMem] ∧ (s.sq tMem.key).descs = [d] ∧ tMem.ridx = d.ridx ∧
      d.stage = 3 ∧ w.running = r ∧ (∃ x ∈ s.qd.green.seeds, x.1 = 5)) ∧
    (let c := tColl 0x10 1 1 (18 * 16384 + 1) false
     let s := (tRunning (tRun c.words 3)).setFl F.TR_CTL_GT_EN 0
     Gd.nmem c.words = 1 ∧ Gd.nrack c.words < 2 ∧ Gd.opts c.words = false ∧ collShare s c ≠ [] ∧
     s.flag F.TR_CTL_GT_EN = false ∧ s.qd.green.mcounts = [] ∧ s.qd.green.hcounts = []) ∧
    (let c := tColl 0x10 2 1 1 true
     let s := (tRunning (tRun c.words 3)).setFl F.GR_CTL_SENT_EN 0
     0 ∈ collShare s c ∧ 0 ∉ c.taken ∧ s.qd.boot.pwr = 0 ∧ Gd.expert c.words = false ∧ Gd.sums c.words = true ∧ Gd.nrack c.words < 2 ∧
     s.flag F.GR_CTL_SENT_EN = false ∧ s.replaying = false ∧ s.lgTakes c.ctx = false ∧
     chunkSources c.words (ringPos s c.words * Gd.nmem c.words) 0 = List.range tIns.length ∧ tIns ≠ [] ∧
     (∀ j, j < 2 → ∀ y, tIns[j]? = some y → y.member = j) ∧ Gd.chka c.words = 0 ∧ (∀ y ∈ tIns, y.status = St.OK) ∧
     (Gd.actl c.words).ifmt ≠ 13 ∧ (Gd.actl c.words).ifmt ≠ 14) ∧
    (let c := tColl 0x11 2 48 (18 * 16384 * 4) true
     2 ≤ Gd.nrack c.words ∧ ∀ n ∈ [0, 54], n % 18 = c.plane ∧ n < Gd.chunks c.words ∧ ∀ y ∈ c.sums, y.1 ≠ n) := by
  refine ⟨fun opc ho => ?_, ⟨by decide +kernel, by decide +kernel, by decide +kernel, tStarted _ _ (by decide +kernel) (by decide +kernel) (by decide +kernel),
    by decide +kernel⟩, by decide +kernel, by decide +kernel, ?_, by decide +kernel⟩
  · have h : ∀ opc ∈ [0x10, 0x11, 0x12, 0x13, 0x14, 0x20, 0x21, 0x30, 0x31, 0x01], let w := tGreen opc 2 1 65536
        ((tRunning (tRun w 2)).sq 4095).descs = [tRun w 2] ∧ ((tRun w 2).type = Ty.GREEN ∧ (tRun w 2).opc = opc) ∧
        (tRunning (tRun w 2)).qd.boot.pwr = 0 ∧ Gd.kslot w = 0 ∧ Gd.nrack w < 2 := by decide +kernel
    obtain ⟨h1, h2, h3, h4⟩ := h opc ho
    exact ⟨tStarted _ _ h1 h2 h3, h4⟩
  · refine ⟨by decide +kernel, by decide +kernel, by decide +kernel, by decide +kernel, by decide +kernel, by decide +kernel,
      by decide +kernel, by decide +kernel, by decide +kernel, by decide +kernel, by decide, ?_, by decide +kernel, by decide +kernel,
      by decide +kernel, by decide +kernel⟩
    intro j hj y hy
    have : j = 0 ∨ j = 1 := by omega
    rcases this with rfl | rfl <;> (cases hy; rfl)

/-! ### The grid: the hypotheses of the statements -/

/-- Mill 255 of allotment 3 with one DMA descriptor: rows of `len` bytes at both sides. -/
def tDmaW (kind strm len rows : Nat) (src dst : Word) : List Word :=
  [src, dst, wd (len + rows * 2 ^ 17), wd (2 * len), wd (2 * len), wd (kind + strm * 2 ^ 14 + 15 * 2 ^ 15), wd (4 * len), 9]
def tDma (w : List Word) : State :=
  { qd := { regs := (R.DEV_NODE, 160) :: tRegs, grid := { mills := [(255, { dmaq := [w] })] } } }
def tFar : Word := wd (3 * 2 ^ 50 + 2 * 2 ^ 44 + 0x100)

/-- One descriptor of each kind, with and without a stream, up to the largest tile. -/
def tDmaCases : List (List Word) :=
  [tDmaW 0 0 65536 1 tFar 0, tDmaW 0 1 4 16 tFar 0x1FFF80, tDmaW 1 1 4 16 0 tFar, tDmaW 1 0 1 1 0 tFar, tDmaW 2 0 65536 1 0 0x10000,
   tDmaW 2 0 256 256 0 0x100000, tDmaW 3 0 0 0 0 0, tDmaW 4 0 8 1 0 tFar, tDmaW 5 0 8 1 tFar 0x1FFFF8]

theorem witness_DmaDescriptorsStartAndComplete :
    (∀ w ∈ tDmaCases, (tDma w).allotOf 255 = some 3 ∧ ((tDma w).mill 255).dmaq = w :: [] ∧ ((tDma w).mill 255).dmaHolds = false ∧
      (tDma w).fenced = false ∧ descStatus (tDma w) 3 255 w = St.OK ∧ (descTargets (tDma w) 3 255 w).isSome = true ∧
      (tDma w).unitOut 255 = [] ∧ (tDma w).qd.srcs.waits = []) ∧
    tDmaCases.map Td.kind = [0, 0, 1, 1, 2, 2, 3, 4, 5] ∧
    (let w := tDmaW 2 0 65536 1 0 0x10000
     descTargets (tDma w) 3 255 w = some ([.scratch 255 0], [.scratch 255 0x10000]) ∧ ((tDma w).mill 255).tmma = []) ∧
    (∀ st ∈ [(0 : BitVec 7), 0x41], ∀ k ∈ [0, 1, 3, 5],
      let r : DmaRun := { id := 7, words := tDmaW k 0 8 1 tFar 0, st := st }
      let s := (tDma []).setFl F.CLK_ENABLE_TWATCH 0
      r.waits = 0 ∧ s.unitOut 255 = [] ∧ s.flag F.CLK_ENABLE_TWATCH = false ∧ ({ dmas := [r] } : Mill).wait = .none ∧
      ({ dmas := [r] } : Mill).dmas = [] ++ [r] ++ []) := by
  refine ⟨by decide +kernel, by decide +kernel, by decide +kernel, by decide +kernel⟩

/-- Allotment 63 of context 5 on mill 255 in a state; the descriptor at the head of queue 4095. -/
def tAl (st : Nat) (d : Desc) (a : Allot) (m : MRun) : State :=
  (tQueue 1 { descs := [d] }).mapQd (fun q => { q with
    regs := q.regs ++ [(R.ALLOT_STS_W0 63, wd (255 + 5 * 2 ^ 16 + st * 2 ^ 39)), (R.ALLOT_STS_W1 63, wd (1023 + 2 ^ 11))]
    grid := { q.grid with mills := [(255, { run := m })], allots := [(63, a)] } })

/-- An ALLOT descriptor: a CREATE of one mill that waits, or one that names allotment 63. -/
def tAlD (opc len : Nat) (d6 : Word) (stage : Nat) : Desc :=
  tRun [wd (opc + Ty.ALLOT * 256), wd len, 0, 0, 0, 0, d6, 63] stage

/-- A program image of one instruction. -/
def tImage : List Byte :=
  bytesOf 4 0x314C4D51 ++ bytesOf 4 1 ++ bytesOf 4 68 ++ bytesOf 4 64 ++ bytesOf 4 4 ++ bytesOf 4 (crc32c [0, 0, 0, 0]).toNat ++
    List.replicate 44 0

theorem witness_AllotmentsAreMadeAndRun :
    (∀ st d a m, (tAl st d a m).qd.trace.ledger.expect = []) ∧
    ((tAl 1 (tAlD 1 0 0 2) {} .idle).flag F.LG_CTL_EN = false ∧ (tAl 1 (tAlD 1 0 0 2) {} .idle).replaying = false) ∧
    (∀ opc ∈ [1, 2, 3, 4, 5], Started (tAl 1 (tAlD opc 0 0 2) {} .idle) 4095 (tAlD opc 0 0 2) [] Ty.ALLOT opc ∧
      (tAlD opc 0 0 2).inherited = false) ∧
    (createStatus (tAl 1 (tAlD 1 0 0 2) {} .idle) 4095 (tAlD 1 0 0 2) = St.OK ∧
      createStatus (tAl 1 (tAlD 1 0 65535 2) {} .idle) 4095 (tAlD 1 0 65535 2) = St.OK ∧
      (tAl 1 (tAlD 1 0 0 2) {} .idle).qd.grid.creates = []) ∧
    (let d := tAlD 1 0 0 2
     (findPlace (tAl 1 d {} .idle) false (Al.wm d) (Al.hm d) (Al.csize d)).isSome = true) ∧
    (∀ st ∈ [1, 2], let d := tAlD 2 68 0 2
      let s := tAl st d {} .idle
      s.alState 63 = st ∧ Al.idx d = 63 ∧ s.fl (F.ALLOT_STS_W0_CTX 63) = ((s.bind 4095).qctx).toNat ∧ (s.allot 63).load = none ∧
      bitAt (d.w 6) 8 = false ∧ imageOk s.qd.variant (slice tImage 0 d.len) d.len = true ∧ (s.allot 63).halt = none) ∧
    (let s := tAl 2 (tAlD 3 0 64 2) { textOff := 64, textLen := 4 } .idle
     s.alState 63 = 2 ∧ s.inText 63 (fget ((tAlD 3 0 64 2).w 6) 0 21) = true ∧ s.millsOf 63 = [255]) ∧
    (∀ m ∈ [MRun.idle, .ended], ∀ k ∈ (tAl 2 (tAlD 5 0 0 2) {} m).millsOf 63, ((tAl 2 (tAlD 5 0 0 2) {} m).mill k).run ≠ .running) ∧
    (let d := tAlD 1 0 0 3
     let s := (tAl 1 d {} .idle).mapGrid (fun g => { g with creates := [(4095, 0)] })
     s.qd.grid.creates = (4095, d.ridx) :: [] ∧ (findPlace s false (Al.wm d) (Al.hm d) (Al.csize d)).isSome = true) ∧
    (let a : Allot := { load := some (4095, 0) }
     let s := tAl 1 (tAlD 2 68 0 3) a .idle
     (s.allot 63).load = some (4095, 0) ∧ ∀ b, b < 63 → (s.allot b).load ≠ some (4095, 0)) ∧
    (let s := tAl 3 (tAlD 3 0 64 3) { start := some (4095, 0) } .ended
     (s.allot 63).start = some (4095, 0) ∧ s.alState 63 = 3 ∧ (s.allot 63).keyLost = false ∧
     ∀ m ∈ s.millsOf 63, (s.mill m).run = .ended ∧ (s.mill m).tmma = []) ∧
    (∀ a ∈ [(2, ({ halt := some (4095, 0) } : Allot)), (5, { free := some (4095, 0) })],
      let s := tAl a.1 (tAlD 4 0 0 3) a.2 .ended
      (∀ m ∈ s.millsOf 63, s.millQuiet m = true) ∧ s.allot 63 = a.2 ∧ s.alState 63 = a.1 ∧ s.qd.grid.lease = []) := by
  have h : ∀ opc ∈ [1, 2, 3, 4, 5], let d := tAlD opc 0 0 2
      ((tAl 1 d {} .idle).sq 4095).descs = [d] ∧ (d.type = Ty.ALLOT ∧ d.opc = opc) ∧ (tAl 1 d {} .idle).qd.boot.pwr = 0 ∧
      d.inherited = false := by decide +kernel
  refine ⟨fun _ _ _ _ => rfl, by decide +kernel, fun opc ho => ?_, by decide +kernel, by decide +kernel, by decide +kernel, by decide +kernel,
    by decide +kernel, by decide +kernel, by decide +kernel, by decide +kernel, by decide +kernel⟩
  obtain ⟨h1, h2, h3, h4⟩ := h opc ho
  exact ⟨tStarted _ _ h1 h2 h3, h4⟩


theorem witness_MillsUnderDebug :
    (∀ x : Mill, (tState 0 x).millThere 255 = (tState 0 {}).millThere 255) ∧ (tState 0 {}).millThere 255 = true ∧
    (let x : Mill := { run := .running }
     x.dhalt = false ∧ x.run = .running ∧ x.wait.inFlight = false) ∧
    (let x : Mill := { run := .running, dhalt := true }
     x.dhalt = true ∧ x.wait = .none ∧ (tState 0 x).millProt 255 = false) := by
  refine ⟨fun _ => rfl, by decide +kernel, by decide +kernel, by decide +kernel⟩

/-! ### The resident services: the hypotheses of the statements -/

/-- Window 47 of the QD1, mirrored, 64 MiB from 0x100000 on without translation. -/
def tEntS : Entry := mkEntry 0x100000 0x4000000 (wd (5 + 7 * 2 ^ 16 + 2 ^ 30 + 7 * 2 ^ 32 + 2 ^ 38 + 3 * 2 ^ 39)) 0

/-- Queue 4095 with descriptor `d`, with allotment 63 for the services of its type, and bytes of the window. -/
def tSvc (d : Desc) (pools : List Pool) (mem : Tbl Byte) : State :=
  (tLone (tRunning d)).mapQd (fun q => { q with
    regs := q.regs ++ [(R.SVC_PLACE 7, wd d.type), (R.SVC_STS, wd ((63 + 64) * 2 ^ 56))]
    node := { wt := [(47, tEntS)] }, hbm := { mem := mem.map (fun x => (0x100000 + x.1, x.2)) }, svc := { pools := pools } })

/-- A pool of one layer, one head of 32 elements of one byte, one sequence and four pages; its bytes with the
sequence open for 256 tokens and its first page in slot 3, filled with `n`. -/
def tPool : Pool :=
  { ctx := 5, w5 := wd (160 * 2 ^ 50 + 47 * 2 ^ 44), w6 := 0x20000
    w7 := wd (1 + 2 ^ 8 + 7 * 2 ^ 16 + 32 * 2 ^ 24 + 3 * 2 ^ 34 + 2 ^ 38 + 7 * 2 ^ 50) }
def tKvMem (n : Nat) : Tbl Byte :=
  [(4096, 1), (4101, 1)] ++ ((wordBytes (PageEnt.word ⟨3, n, true⟩)).zipIdx.filterMap (fun b => if b.1 = 0 then none else some (4128 + b.2, b.1)))

/-- A KVPG descriptor for the pool, with `len` and first token. -/
def tKvD (opc len t0 : Nat) : Desc :=
  tRun [wd (opc + Ty.KVPG * 256), wd len, 0, 0, 0, 0x1000, 0x2000, wd (7 * 2 ^ 16), 0, wd t0, 0, 0, 0, 0, 0, 0] 2
/-- POOL. -/
def tPoolD : Desc := tRun [wd (1 + Ty.KVPG * 256), 0, 0, 0, 0, tPool.w5, tPool.w6, tPool.w7] 2
/-- PART of one query token and one head over 256 tokens. -/
def tPartD : Desc :=
  tRun [wd (1 + Ty.ATTN * 256), 256, 0, 0, 0, wd (3 * 2 ^ 50), wd (3 * 2 ^ 50 + 0x1000), wd (7 * 2 ^ 16), 0, 0x3F800000, wd (1 + 2 ^ 16), 0, 0, 0, 0, 0] 2

theorem tPool_ent (d : Desc) (pools : List Pool) (mem : Tbl Byte) : (tPool.region 4095).ent (tSvc d pools mem) = tEntS := rfl
theorem tPool_good (d : Desc) (pools : List Pool) (mem : Tbl Byte) :
    ((tSvc d pools mem).hbm (tPool.region 4095).bank).bad = [] := rfl

/-- Reads of the pool's region answer and patches become writes. -/
theorem tPool_read (d : Desc) (pools : List Pool) (mem : Tbl Byte) (o n : Nat) :
    ∃ b, (tPool.region 4095).read (tSvc d pools mem) o n = .ok b :=
  Region.read_ok (by rw [tPool_ent]; decide) (Hbm.good_of_bad (tPool_good d pools mem)) o n
theorem tPool_patches (d : Desc) (pools : List Pool) (mem : Tbl Byte) (ps : List (Nat × List Byte)) :
    ∃ ws, (tPool.region 4095).patches (tSvc d pools mem) ps = .ok ws :=
  Region.patches_ok (by rw [tPool_ent]; decide) (tPool_good d pools mem) ps

theorem allOk_ne {α : Type} {l : List (Except (BitVec 7) α)} {e : BitVec 7} (h : ∀ x ∈ l, ∃ y, x = .ok y) : allOk l ≠ .error e := by
  obtain ⟨y, hy⟩ := allOk_of h
  rw [hy]; nofun

theorem tPool_nums (d : Desc) (pools : List Pool) (mem : Tbl Byte) (h slot : Nat) (v : Bool) :
    ∃ l, blockNums tPool 4095 h slot v (tSvc d pools mem) = .ok l := by
  unfold blockNums
  obtain ⟨b, e⟩ := tPool_read d pools mem (tPool.slotOff slot + (if v then tPool.valOff h 0 else tPool.keyOff h 0)) (256 * tPool.d * tPool.e)
  rw [e]; exact ⟨_, rfl⟩

theorem tPool_rows (d : Desc) (pools : List Pool) (mem : Tbl Byte) (x : Desc) (q : List Byte) (l : List (Nat × PageEnt)) :
    ∃ rows, partRows tPool x q 4095 l (tSvc d pools mem) = .ok rows := by
  unfold partRows
  dsimp only
  split
  · rename_i e he
    refine absurd he (allOk_ne fun y hy => ?_)
    obtain ⟨h, _, rfl⟩ := List.mem_map.1 hy
    apply allOk_of
    intro z hz
    obtain ⟨x, _, rfl⟩ := List.mem_map.1 hz
    obtain ⟨a, ea⟩ := tPool_nums d pools mem h x.2.slot false
    obtain ⟨b, eb⟩ := tPool_nums d pools mem h x.2.slot true
    rw [ea, eb]; exact ⟨_, rfl⟩
  · exact ⟨_, rfl⟩

theorem tPool_tokens (d : Desc) (pools : List Pool) (mem : Tbl Byte) (l : List ((Nat × Nat × Nat) × PageEnt)) (v : Bool) :
    ∃ ks, allOk (l.map (fun y => readTokens tPool 4095 y v (tSvc d pools mem))) = .ok ks := by
  apply allOk_of
  intro z hz
  obtain ⟨x, _, rfl⟩ := List.mem_map.1 hz
  unfold readTokens
  have h := allOk_of (l := (List.range x.1.2.2).flatMap (fun i => (List.range tPool.kh).map (fun h =>
      (tPool.region 4095).read (tSvc d pools mem) (tPool.slotOff x.2.slot + (if v then tPool.valOff h (x.1.2.1 + i) else
        tPool.keyOff h (x.1.2.1 + i))) (tPool.d * tPool.e)))) (by
    intro y hy
    obtain ⟨i, _, hy⟩ := List.mem_flatMap.1 hy
    obtain ⟨h, _, rfl⟩ := List.mem_map.1 hy
    exact tPool_read ..)
  obtain ⟨ys, e⟩ := h
  rw [e]; exact ⟨_, rfl⟩

/-- Whether a read of the services answers with a value. -/
def okIs {α : Type} [DecidableEq α] (x : Except (BitVec 7) α) (v : α) : Bool :=
  match x with
  | .ok y => decide (y = v)
  | .error _ => false
theorem okIs_eq {α : Type} [DecidableEq α] {x : Except (BitVec 7) α} {v : α} (h : okIs x v = true) : x = .ok v := by
  cases x <;> simp_all [okIs]

/-- What the descriptors of the pool have in common. -/
theorem tKv_common : (∀ d ∈ [tPartD, tKvD 2 0 0, tKvD 3 256 0, tKvD 4 1 255, tKvD 5 256 0, tKvD 6 1 0, tKvD 7 0 0],
    let s := tSvc d [tPool] (tKvMem 256)
    s.mirroring = false ∧ s.svcPick d.type = some 63 ∧ poolBusy s 4095 d = false ∧ (tPool.region 4095).status s = St.OK ∧
    (s.sq 4095).descs = [d] ∧ s.qd.boot.pwr = 0 ∧ Kv.seq d < tPool.maxseq ∧ afterClose s 4095 d = false ∧
    readersBefore s 4095 d = false ∧ badKey s 4095 (Kv.kslot d) = false ∧
    s.poolAt 4095 (Kv.pool d) = some tPool ∧ Kv.layer d < tPool.layers) ∧
    (let s := tSvc tPoolD [] []
     s.mirroring = false ∧ s.svcPick Ty.KVPG = some 63 ∧ poolBusy s 4095 tPoolD = false) := by decide +kernel

theorem witness_KvPagesServeTheirDescriptors :
    (let s := tSvc tPartD [tPool] (tKvMem 256)
     Started s 4095 tPartD [] Ty.ATTN 1 ∧ partBad s 4095 tPartD (some tPool.kh) = none ∧ tPool.seq 4095 0 s = .ok (some 256) ∧
     tPartD.len = 256 ∧
     (homeBlocks s.qdPlane (Kv.seq tPartD) ((tPartD.len + 255) / 256)).filter (fun b => decide (At.wlo tPartD < 256 * b + 256)) = [0] ∧
     allOk ([0].map (fun b => tPool.page 4095 0 0 b s)) = .ok [⟨3, 256, true⟩] ∧
     ∃ rows, partRows tPool tPartD [] 4095 [(0, ⟨3, 256, true⟩)] s = .ok rows) ∧
    (let s := tSvc tPoolD [] []
     Started s 4095 tPoolD [] Ty.KVPG 1 ∧ tPool.rangesOk = true ∧ (tPool.region 4095).placed s 4095 (tPoolD.w 5) = true ∧
     tPool.plen % 65536 = 0 ∧ s.poolAt 4095 tPool.id = none ∧ (s.pools 4095).length < 1024 ∧ (tPool.region 4095).status s = St.OK ∧
     ∃ ws, (tPool.region 4095).patches s [(0, List.replicate tPool.sb 0)] = .ok ws) ∧
    (let s := tSvc (tKvD 2 0 0) [tPool] []
     Started s 4095 (tKvD 2 0 0) [] Ty.KVPG 2 ∧ (tPool.region 4095).status s = St.OK ∧ tPool.maxseq = 1 ∧ tPool.seq 4095 0 s = .ok none) ∧
    (let s := tSvc (tKvD 3 256 0) [tPool] (tKvMem 256)
     Started s 4095 (tKvD 3 256 0) [] Ty.KVPG 3 ∧ tPool.seq 4095 0 s = .ok (some (tKvD 3 256 0).len)) ∧
    (let s := tSvc (tKvD 3 256 0) [tPool] []
     Started s 4095 (tKvD 3 256 0) [] Ty.KVPG 3 ∧ tPool.seq 4095 0 s = .ok none ∧ tPool.used 4095 s = .ok [] ∧ tPool.nslot = 4 ∧
     ∀ ps, ∃ ws, (tPool.region 4095).patches s ps = .ok ws) ∧
    (∀ opc ∈ [6, 7], let s := tSvc (tKvD opc 1 0) [tPool] (tKvMem 256)
     Started s 4095 (tKvD opc 1 0) [] Ty.KVPG opc ∧ tPool.seq 4095 0 s = .ok (some 256) ∧
     tPool.pages 4095 0 256 s = .ok [(0, 4128, ⟨3, 256, true⟩)] ∧ ∀ ps, ∃ ws, (tPool.region 4095).patches s ps = .ok ws) ∧
    (let s := tSvc (tKvD 4 1 255) [tPool] (tKvMem 255)
     Started s 4095 (tKvD 4 1 255) [] Ty.KVPG 4 ∧ (tKvD 4 1 255).inherited = false ∧ tPool.seq 4095 0 s = .ok (some 256) ∧
     overlapped 0x1000 0x2000 (1 * tPool.kh * tPool.d * tPool.e) = false ∧ tokenBlocks s.qdPlane 0 255 1 = [(0, 255, 1)] ∧
     allOk ([0].map (fun b => tPool.page 4095 0 0 b s)) = .ok [⟨3, 255, true⟩] ∧ ∀ ps, ∃ ws, (tPool.region 4095).patches s ps = .ok ws) ∧
    (let s := tSvc (tKvD 5 128 0) [tPool] (tKvMem 128)
     Started s 4095 (tKvD 5 128 0) [] Ty.KVPG 5 ∧ tPool.seq 4095 0 s = .ok (some 256) ∧
     overlapped 0x1000 0x2000 (128 * tPool.kh * tPool.d * tPool.e) = false ∧ tokenBlocks s.qdPlane 0 0 128 = [(0, 0, 128)] ∧
     allOk ([0].map (fun b => tPool.page 4095 0 0 b s)) = .ok [⟨3, 128, true⟩] ∧
     ∀ (v : Bool) (l : List ((Nat × Nat × Nat) × PageEnt)), ∃ ks, allOk (l.map (fun y => readTokens tPool 4095 y v s)) = .ok ks) := by
  have st : ∀ d ∈ [(tPartD, Ty.ATTN, 1), (tPoolD, Ty.KVPG, 1), (tKvD 2 0 0, Ty.KVPG, 2), (tKvD 3 256 0, Ty.KVPG, 3), (tKvD 6 1 0, Ty.KVPG, 6),
      (tKvD 7 1 0, Ty.KVPG, 7), (tKvD 4 1 255, Ty.KVPG, 4), (tKvD 5 128 0, Ty.KVPG, 5)], ∀ ps m, Started (tSvc d.1 ps m) 4095 d.1 [] d.2.1 d.2.2 := by
    intro d hd ps m
    have h : ∀ d ∈ [(tPartD, Ty.ATTN, 1), (tPoolD, Ty.KVPG, 1), (tKvD 2 0 0, Ty.KVPG, 2), (tKvD 3 256 0, Ty.KVPG, 3), (tKvD 6 1 0, Ty.KVPG, 6),
      (tKvD 7 1 0, Ty.KVPG, 7), (tKvD 4 1 255, Ty.KVPG, 4), (tKvD 5 128 0, Ty.KVPG, 5)], d.1.stage = 2 ∧ d.1.type = d.2.1 ∧ d.1.opc = d.2.2 := by
      decide +kernel
    exact ⟨rfl, nofun, (h d hd).1, (h d hd).2, rfl⟩
  refine ⟨⟨st (tPartD, Ty.ATTN, 1) (by simp) _ _, by decide +kernel, okIs_eq (by decide +kernel), by decide +kernel, by decide +kernel,
      okIs_eq (by decide +kernel), tPool_rows ..⟩,
    ⟨st (tPoolD, Ty.KVPG, 1) (by simp) _ _, by decide +kernel, by decide +kernel, by decide +kernel, by decide +kernel, by decide +kernel,
      by decide +kernel, tPool_patches ..⟩,
    ⟨st (tKvD 2 0 0, Ty.KVPG, 2) (by simp) _ _, by decide +kernel, by decide +kernel, okIs_eq (by decide +kernel)⟩,
    ⟨st (tKvD 3 256 0, Ty.KVPG, 3) (by simp) _ _, okIs_eq (by decide +kernel)⟩,
    ⟨st (tKvD 3 256 0, Ty.KVPG, 3) (by simp) _ _, okIs_eq (by decide +kernel), okIs_eq (by decide +kernel), by decide +kernel,
      tPool_patches _ _ _⟩, ?_,
    ⟨st (tKvD 4 1 255, Ty.KVPG, 4) (by simp) _ _, by decide +kernel, okIs_eq (by decide +kernel), by decide +kernel, by decide +kernel,
      okIs_eq (by decide +kernel), tPool_patches _ _ _⟩,
    ⟨st (tKvD 5 128 0, Ty.KVPG, 5) (by simp) _ _, okIs_eq (by decide +kernel), by decide +kernel, by decide +kernel,
      okIs_eq (by decide +kernel), fun v l => tPool_tokens _ _ _ l v⟩⟩
  intro opc ho
  simp only [List.mem_cons, List.not_mem_nil, or_false] at ho
  rcases ho with rfl | rfl
  · exact ⟨st (tKvD 6 1 0, Ty.KVPG, 6) (by simp) _ _, okIs_eq (by decide +kernel), okIs_eq (by decide +kernel), tPool_patches _ _ _⟩
  · exact ⟨st (tKvD 7 1 0, Ty.KVPG, 7) (by simp) _ _, okIs_eq (by decide +kernel), okIs_eq (by decide +kernel), tPool_patches _ _ _⟩

/-- An optimizer descriptor of 1 element at offset 0 of window 47; a STEP with step 5. -/
def tOptFa : Word := wd (160 * 2 ^ 50 + 47 * 2 ^ 44)
def tOptD (opc : Nat) : Desc :=
  tRun [wd (opc + Ty.OPTS * 256 + 2 ^ 16), 1, 0, 0, 0, 0x1000, 0x2000, 5, 0, 0x3000, tOptFa, 7, 0, 0, 0, 0] 2
def tStepW : List Word :=
  [wd (2 + Ty.OPTS * 256 + 3 * 2 ^ 16), 1, 0, 0, 0, 0x1000, 0x2000, 77, 0, 1, 0, 0x8000, 0, wd (2 * 2 ^ 32), 5, 0] ++ List.replicate 9 0 ++
    [tOptFa, 7, 0, 0, 0, 0, 0]
/-- Its region: header, and one block whose last step is `last`. -/
def tOptMem (last : Nat) : Tbl Byte :=
  ((bytesOf 4 0x5453504F ++ bytesOf 4 1 ++ bytesOf 4 (2 ^ 32 - 2) ++ [0, 0, 0, 0] ++ bytesOf 4 1).zipIdx ++
    ((OptHead.mk (BitVec.ofNat 32 last) 0xFFFFFFFF 0).bytes.zipIdx).map (fun x => (x.1, 4096 + x.2))).filterMap (fun x =>
      if x.1 = 0 then none else some (x.2, x.1))

/-- Whether reads of the services answer. -/
def okThat {α : Type} (x : Except (BitVec 7) α) (f : α → Bool) : Bool :=
  match x with
  | .ok y => f y
  | .error _ => false
theorem okThat_ex {α : Type} {x : Except (BitVec 7) α} {f : α → Bool} (h : okThat x f = true) : ∃ y, x = .ok y ∧ f y = true := by
  cases x with
  | ok y => exact ⟨y, rfl, h⟩
  | error e => cases h

def tStepColl : Coll :=
  { no := 0, idx := 0, plane := 0, ctx := 5, coll := 77, words := stepWords tStepW, mems := [tMem], running := true,
    ready := [{ chunk := 0, data := [0, 0, 0x80, 0x3F] }] }

theorem witness_TheOptimizerKeepsItsRegions :
    (∀ d ∈ [tOptD 1, tOptD 3, tRun tStepW 2], let s := tSvc d [] (tOptMem 5)
      s.mirroring = false ∧ s.svcPick Ty.OPTS = some 63 ∧ badKey s 4095 (Kv.kslot d) = false ∧ (s.sq 4095).descs = [d] ∧
      d.type = Ty.OPTS ∧ d.stage = 2 ∧ s.qd.boot.pwr = 0) ∧
    (let d := tOptD 1
     let s := tSvc d [] []
     let o := optRegion s 4095 (Op.sta d) (Op.tgen d) d.len
     d.opc = 1 ∧ Op.alg d ≤ 1 ∧ optStatus s 4095 (Op.sta d) o = St.OK ∧ ∀ ps, ∃ ws, o.r.patches s ps = .ok ws) ∧
    (let d := tOptD 3
     let s := tSvc d [] (tOptMem 5)
     let o := optRegion s 4095 (Op.sta d) (Op.tgen d) d.len
     d.opc = 3 ∧ Op.step d = 5 ∧ optStatus s 4095 (Op.sta d) o = St.OK ∧ o.mismatch s 10 0 none = .ok none ∧
     allOk ((List.range o.nb).map (fun b => o.head s b)) = .ok [⟨5, 0xFFFFFFFF, 0⟩] ∧
     ∀ parts : List (Nat × Nat), ∃ ds, allOk (parts.map (fun y => o.r.read s y.1 y.2)) = .ok ds) ∧
    (let d := tRun tStepW 2
     let s := tSvc d [] (tOptMem 5)
     d.opc = 2 ∧ optStatus s 4095 (Gd.word d.words 25) (stepRegion s 4095 d.words) = St.OK ∧
     (stepRegion s 4095 d.words).mismatch s 25 (entryNat d.words 3 17 1) (some 26) = .ok none ∧ s.qd.green.colls = [] ∧
     Gd.kslot d.words = 0 ∧ Gd.nrack d.words < 2 ∧ 0 < d.words.length) ∧
    ∀ last ∈ [4, 5], let d := tRun tStepW 3
     let c := tStepColl
     let s := (tSvc d [] (tOptMem last)).mapQd (fun q => { q with green := { colls := [c] } })
     s.mirroring = false ∧ (s.sq 4095).descs = [d] ∧ tMem.key = 4095 ∧ tMem.ridx = d.ridx ∧ d.stage = 3 ∧ Gd.opts c.words = true ∧
     c.ready = [{ chunk := 18 * 0 + c.plane, data := f32Bytes ([(0x3F800000 : BitVec 32)].map BitVec.toNat) }] ∧
     (∃ ps t, optCommit (stepRegion s 4095 c.words) c.words 0 [0x3F800000] s = .ok (some ps, t)) ∧
     ∀ ps, ∃ ws, (stepRegion s 4095 c.words).r.patches s ps = .ok ws := by
  refine ⟨by decide +kernel, ⟨by decide +kernel, by decide +kernel, by decide +kernel, fun ps => ?_⟩,
    ⟨by decide +kernel, by decide +kernel, by decide +kernel, okIs_eq (by decide +kernel), okIs_eq (by decide +kernel), fun parts => ?_⟩,
    ⟨by decide +kernel, by decide +kernel, okIs_eq (by decide +kernel), by decide +kernel, by decide +kernel, by decide +kernel,
      by decide +kernel⟩, fun last hl => ?_⟩
  · exact Region.patches_ok (by decide +kernel) (by decide +kernel) ps
  · refine allOk_of fun z hz => ?_
    obtain ⟨y, _, rfl⟩ := List.mem_map.1 hz
    exact Region.read_ok (by decide +kernel) (Hbm.good_of_bad (by decide +kernel)) ..
  · have h : ∀ last ∈ [4, 5], let c := tStepColl
      let s := (tSvc (tRun tStepW 3) [] (tOptMem last)).mapQd (fun q => { q with green := { colls := [c] } })
      s.mirroring = false ∧ okThat (optCommit (stepRegion s 4095 c.words) c.words 0 [0x3F800000] s) (fun x => x.1.isSome) = true ∧
      ((stepRegion s 4095 c.words).r.ent s).pgsz = 3 ∧ (s.hbm (stepRegion s 4095 c.words).r.bank).bad = [] := by decide +kernel
    obtain ⟨h1, h2, h3, h4⟩ := h last hl
    obtain ⟨y, hy, hs⟩ := okThat_ex h2
    obtain ⟨ps, hp⟩ := Option.isSome_iff_exists.1 hs
    exact ⟨h1, rfl, rfl, rfl, rfl, by decide, by decide, ⟨ps, y.2, by rw [hy, ← hp]⟩, fun ps => Region.patches_ok h3 h4 ps⟩

/-! ### The Ferry: the hypotheses of the statements -/

/-- A QD1 of rack 0 with a Ferry. -/
def tFerry (f : Ferry) : State := { qd := { regs := [(R.DEV_NODE, 160)], ferry := f } }

/-- An LD of rack 63 that is gathered, its answer, and a segment of rack 63 to a rack. -/
def tRec : Packet := ({ dst := 63 * 256 + 3, ctx := 5, opc := Opc.LD, src := 3, cls := 1, que := 9, tag := 4, len := 8, tseq := 1 } : Hdr).packet
def tRecAns : Packet :=
  ({ dst := 3, ctx := 5, opc := Opc.LD, src := 63 * 256 + 3, cls := 1, rsp := true, que := 9, tag := 4, len := 8, tseq := 1 } : Hdr).packet none
    none [1, 2, 3, 4, 5, 6, 7, 8]
def tSeg (drack kind nseg segi hops : Nat) : Segment :=
  ⟨wd (drack + 63 * 2 ^ 6 + 63 * 2 ^ 17 + segi * 2 ^ 23 + kind * 2 ^ 44 + hops * 2 ^ 48), wd ((nseg - 1) * 2 ^ 44), 0, 0, [], []⟩
def tFerryTx (n : Nat) (l : List Nat) : FerryTx := { no := 7, rack := 63, xid := 63, data := List.replicate n 1, acked := l, recs := [tRec] }

theorem witness_TheFerryMovesTransfers :
    (let s := tFerry { gather := [(63, tRec)], key := [1], tx := [{ tFerryTx 257 [] with xid := 0 }] }
     s.fenced = false ∧ s.qd.boot.pwr = 0 ∧ (s.qd.ferry.gather.filter (fun g => g.1 == 63)).map (·.2) ≠ [] ∧ s.qd.ferry.key ≠ [] ∧
     s.unitOn 11 2 = true ∧ (∀ t ∈ s.qd.ferry.tx, t.rack = 63 → t.kind = 0 → t.xid ≠ 63)) ∧
    (let r : FerryRx := { rack := 63, xid := 63, segs := [(0, [1])], ackDue := true, nseg := 2 }
     let s := tFerry { key := [1], rx := [r] }
     s.qd.ferry.rx = [] ++ [r] ++ [] ∧ r.rack = 63 ∧ r.xid = 63 ∧ r.ackDue = true ∧ s.qd.ferry.key ≠ []) ∧
    (let t := { tFerryTx 257 [0] with resent := [(1, 7)] }
     let s := tFerry { tx := [t] }
     s.qd.ferry.tx = [] ++ [t] ++ [] ∧ (1 : BitVec 12).toNat < segCount t.data ∧ (1 : BitVec 12).toNat ∉ t.acked ∧
     Tbl.at t.resent (1 : BitVec 12).toNat < 8 ∧ s.qd.ferry.fences = [] ∧ s.qd.green.colls = []) ∧
    (∀ k ∈ [0, 1, 2, 3], (tSeg 1 k 1 0 3).kind = k ∧ (tSeg 1 k 1 0 3).drack ≠ (tFerry {}).qdRack ∧ (tSeg 1 k 1 0 3).hops = 3 ∧
      (tSeg 1 k 1 0 2).hops < 3) ∧
    (let g := tSeg 0 0 4096 4095 0
     g.kind = 0 ∧ g.drack = (tFerry {}).qdRack ∧ 1 < g.nseg ∧ (tFerry {}).qd.ferry.rx = []) ∧
    (∀ k ∈ [0, 1], let g := tSeg 0 k 1 0 0
      g.kind = k ∧ g.nseg = 1 ∧ g.segi = 0 ∧ g.drack = (tFerry {}).qdRack ∧ g.srack = 63 ∧ g.xid = 63) ∧
    (let t := tFerryTx 32 [0]
     let s := tFerry { tx := [t] }
     let p := tRecAns
     let q := tRec
     s.qd.ferry.tx = [] ++ [t] ++ [] ∧ t.rack = (tSeg 0 1 1 0 0).srack ∧ t.xid = (tSeg 0 1 1 0 0).xid ∧ t.kind = 0 ∧ t.recs = [q] ∧
     q.src = p.dst ∧ q.que = p.que ∧ q.tag = p.tag ∧ q.tseq = p.tseq ∧ q.opc = p.opc ∧ q.opc = Opc.LD ∧
     packetsOf (p.bytes.length / 32 + 1) p.bytes = [p]) ∧
    (let t := { tFerryTx 256 [0] with kind := 1 }
     (tSeg 0 2 1 0 0).kind = 2 ∧ (∀ i, i < segCount t.data → i ∈ t.acked) ∧
     [t].find? (fun t => t.rack == 63 && t.xid == 63 && t.kind == (1 : Byte).toNat) = some t) := by
  refine ⟨by decide +kernel, by decide +kernel, by decide +kernel, by decide +kernel, by decide +kernel, by decide +kernel,
    by decide +kernel, by decide +kernel⟩

/-! ### The rack service links: the hypotheses of the statements -/

/-- Both rack service links locked and present, A selected. -/
def tRsl (a : Aon) : State :=
  (((({ qd := { regs := [(R.DEV_NODE, 160)], aon := a } } : State).setFl (F.lock .a) 1).setFl (F.lock .b) 0).setFl (F.pres .a) 1).setFl
    F.CLK_STS_LOCK 1
def tAon (sync : Bool) : Aon := { ns := 1000, frac := 5, sync := sync, holdFrom := 3 }
def tFetchImg (n : Nat) : ImgFetch := { kind := 0, asked := [(65536, n)] }

theorem witness_ServiceLinksAndMarks :
    (∀ b : Bool, let s := tRsl (tAon b)
      s.flag (F.lock .a) = true ∧ s.flag (F.lock .b) = false ∧ s.fl F.RSL_STS_SEL = 0 ∧ s.fl (F.dly .a) ≤ 936 ∧ s.flag F.CLK_STS_HOLD = false ∧
      s.qd.aon.sync = b) ∧
    (let a := tAon true
     let now := a.ns.toNat * 2 ^ 32 + a.frac.toNat
     now ≤ 1001 * 2 ^ 32 ∧ 1000 * 2 ^ 32 < now ∧ 936 * 2 ^ 32 < now ∧ now - 937 * 2 ^ 32 ≤ 64 * 2 ^ 32) ∧
    (∀ b : Bool, let s := (tRsl (tAon b)).setFl F.CLK_STS_HOLD 1
      s.flag F.CLK_STS_HOLD = true ∧ s.flag F.CLK_STS_LOCK = true ∧ s.qd.aon.ns.toNat < 937 + 64 ∧ 1063 < s.qd.aon.ns.toNat + 64) ∧
    (let s := (tRsl {}).setFl F.CLK_STS_LOCK 0
     s.flag (F.lock .b) = false ∧ s.flag F.CLK_STS_LOCK = false) ∧
    (let s := (tRsl {}).setFl (F.pres .b) 1
     s.flag (F.pres .a) = true ∧ (s.setFl (F.pres .a) 0).refChoice = some .b) ∧
    (let s := (tRsl {}).setFl (F.pres .b) 0
     s.flag (F.pres .a) = true ∧ ((s.setFl (F.pres .a) 0).score 0xA 0 256).refChoice = none ∧ s.flag F.CLK_STS_HOLD = false ∧
     s.flag F.CLK_STS_LOCK = true ∧ (s.setFl (F.pres .a) 1).refChoice = some .a) ∧
    ((tRsl {}).rslServed 0xDFFFFFC = true ∧ ((tRsl {}).rsl .a).answers = [] ∧ (0xDFFFFFC : Word).toNat % 8 ≠ 0 ∧
      (tRsl {}).rslServed 0xDFFFFF8 = true ∧ (0xDFFFFF8 : Word).toNat % 8 = 0 ∧ inBlock 0xDFFFFF8 = true ∧ inAperture 0xDFFFFF8 = false ∧
      ((tRsl {}).setFl F.BOOT_STS_SETUP 1).inSetup = true ∧ (tRsl {}).rslServed R.RT_DRAIN_TMO = true) ∧
    (let x : Byte × Byte × List Byte := (255, 3, [1])
     let s : State := { qd := { rslB := { answers := [(0, 3, [2])] ++ [x] ++ [] } } }
     (s.rsl .b).answers = [(0, 3, [2])] ++ [x] ++ [] ∧ x.2.2 ≠ [] ∧ ∀ y ∈ [((0 : Byte), (3 : Byte), [(2 : Byte)])], y.1 ≠ 255) ∧
    (∀ n ∈ [1, 7, 8], (Tbl.at (tFetchImg n).asked 65536 ≠ 0 ∧ (tFetchImg n).block 65536 = none ∧ (tFetchImg n).imgid = none ∧
      65536 ∈ (tFetchImg n).asked.map (·.1) ∧ Tbl.at (tFetchImg n).asked 0 = 0) ∧ (tRsl {}).qd.boot.warm = false) ∧
    (let s := tLone (tRsl {})
     s.fenced = false ∧ s.qd.fault.spareCmd = false ∧ s.pair = 1) ∧
    (let s := (tLone (tRsl {})).mapQd (fun q => { q with fault := { q.fault with spareCmd := true } })
     s.fenced = false ∧ s.qd.fault.spareCmd = true ∧ s.pair = 1) ∧
    ((tRsl {}).flag F.FT_CTL_HEALTH_EN = true ∧ State.reset.flag F.RSL_ALIGN_LOCK_A = false ∧ State.reset.flag F.RSL_ALIGN_LOCK_B = false) := by
  refine ⟨by decide +kernel, by decide +kernel, by decide +kernel, by decide +kernel, by decide +kernel, by decide +kernel,
    by decide +kernel, by decide +kernel, by decide +kernel, by decide +kernel, by decide +kernel, by decide +kernel⟩

/-! ### Clocks, voltage and power: the hypotheses of the statements -/

/-- A device that runs at a point of the clock, throttled or not. -/
def tClk (step point thr : Nat) (c : Clk) (b : Boot) : State :=
  ((({ qd := { regs := [(R.DEV_NODE, 160), (R.LOOP_CTL, 0x15), (R.DVFS_CTL, wd (4 * 8 + 1000 * 2 ^ 14))], clk := c, boot := b } } : State).setFl F.BOOT_STS_STEP
    step).setFl F.DVFS_STS_POINT point).setFl F.DVFS_STS_THR thr

def tSense (busy : Nat) : VfSense := { marginG := 2, marginC := 6, power := 1000, temp := 60, busy := busy }

theorem witness_ClocksThrottlesAndTrips :
    (∀ p ∈ [0, 1, 3, 4], let s := tClk 12 p 0 {} {}
      s.flag F.LG_CTL_EN = false ∧ s.qd.boot.stopped = false ∧ s.qd.boot.trip = false ∧ s.loopRuns 0 = true ∧ s.forcedDiv = false ∧
      s.flag F.DVFS_CTL_FORCE = false ∧ s.fl F.BOOT_STS_STEP = 12 ∧ s.flag F.DVFS_STS_THR = false ∧
      1000 ≤ s.fl F.DVFS_CTL_PWR_LIM ∧ s.fl F.DVFS_CTL_PMIN = 0 ∧ s.fl F.DVFS_CTL_PMAX = 4 ∧ s.trim F.DVFS_STS_TRIM_G ≤ 0 ∧
      s.fl F.DVFS_STS_POINT = p ∧ s.qd.clk.up = none ∧ s.qd.clk.ban ≤ s.qd.aon.ns.toNat ∧ s.loopRuns 1 = true ∧ s.loopEn 2 = true) ∧
    ((∀ b ∈ [500, 900], 500 ≤ (tSense b).busy ∧ (tSense b).busy ≤ 900) ∧ (tSense 499).busy < 500 ∧ 900 < (tSense 901).busy ∧
      2 ≤ (tSense 500).marginG ∧ (tSense 500).marginG ≤ 6 ∧ 2 ≤ (tSense 500).marginC ∧ (tSense 500).marginC ≤ 6) ∧
    ((tClk 12 3 0 { up := some (4, 901) } {}).qd.clk.up = some (4, 901)) ∧
    (let s := (((tClk 12 4 0 { coefLog := [(639, (8, 0))] } {}).setFl (F.LN_PORT_STS_STATE 159) 2).setFl (F.LN_PORT_STS_STEP 159) 0)
     s.loopRuns 1 = true ∧ s.portRuns (.qd (Fin.ofNat 160 (639 / 4))) = true ∧ s.flag (F.LN_PORT_CTL_FREEZE (639 / 4)) = false ∧
     (11 : BitVec 16).toNat < (Tbl.at s.qd.clk.coefLog 639).1 + 4 ∧ (Tbl.at s.qd.clk.coefLog 639).1 < (5 : BitVec 16).toNat + 4) ∧
    (let s := (tClk 12 4 0 {} {}).setRg R.LOOP_CTL 0x70
     s.loopEn 2 = true ∧ s.loopRuns 2 = false ∧ s.loopRuns 3 = true ∧ s.qd.clk.move = none ∧
     [81, 50, 49].findIdx? (fun x => decide (80 < x)) = some 0 ∧ [81, 50, 49].findIdx? (fun x => decide (x < 50)) = some 2) ∧
    ((tClk 12 4 0 { move := some (7, 0, 2) } {}).qd.clk.move = some (7, 0, 2)) ∧
    (∀ u, u < 4 → (tClk 12 4 0 {} {}).gateThere u = true ∧ (tClk 12 4 0 {} {}).gateIdle u = true) ∧
    (let s := (tClk 12 4 0 {} {}).mapQd (fun q => { q with green := { q.green with colls := [tColl 0x10 2 1 1 true] } })
     s.gateThere 1 = true ∧ s.gateIdle 1 = false ∧ bitAt (s.rg R.CLK_ENABLE) 1 = true) ∧
    (∀ n ∈ [10, 24], let s := (tClk 12 4 0 {} {}).setRg R.FMEAS_CTL (wd (256 * n))
      10 ≤ fget (s.rg R.FMEAS_CTL) 8 5 ∧ fget (s.rg R.FMEAS_CTL) 8 5 ≤ 24) ∧
    ((tClk 12 4 0 { measuring := true } {}).qd.clk.measuring = true) ∧
    ((tClk 12 0 0 {} {}).fl F.DVFS_STS_POINT = 0 ∧ (97 : Byte).toNat < 98 ∧ 98 ≤ (98 : Byte).toNat ∧ (109 : Byte).toNat < 110 ∧
      110 ≤ (110 : Byte).toNat) ∧
    ((tClk 12 1 1 {} {}).flag F.DVFS_STS_THR = true ∧ 0 < (tClk 12 1 1 {} {}).fl F.DVFS_STS_POINT ∧
      (let s := (tClk 12 0 1 { hot := true } {}).setFl F.DVFS_STS_TJMAX 98
       s.flag F.DVFS_STS_THR = true ∧ s.fl F.DVFS_STS_POINT = 0 ∧ s.qd.clk.hot = true ∧ 98 ≤ s.fl F.DVFS_STS_TJMAX)) ∧
    ((tClk 8 4 0 {} {}).fl F.BOOT_STS_STEP < 9 ∧ 9 ≤ (tClk 9 4 0 {} {}).fl F.BOOT_STS_STEP ∧ (tClk 9 4 0 {} { pwr := 1 }).qd.boot.pwr = 1 ∧
      (tClk 9 4 0 {} {}).qd.boot.pwr = 0) := by
  refine ⟨by decide +kernel, by decide, by decide +kernel, by decide +kernel, by decide +kernel, by decide +kernel, by decide +kernel,
    by decide +kernel, by decide +kernel, by decide +kernel, by decide +kernel, by decide +kernel, by decide +kernel⟩

/-! ### Customs: the hypotheses of the statements -/

/-- A QD1 whose Customs is approved or not, with one CUST descriptor. -/
def tCust (ok : Nat) (d : Desc) (c : Cust) : State :=
  ((tRunning d).setFl F.CUST_STS_APPROVED ok).mapQd (fun q => { q with cust := c })
def tCustD (opc len slot : Nat) : Desc := tRun [wd (opc + Ty.CUST * 256), wd len, 0, 0, 0, 0x1000, 0, wd slot] 2

/-- An envelope of a kind for a slot, in context 5 and boot 0. -/
def tEnv (kind slot ctx : Nat) : List Byte :=
  bytesOf 4 0x4C564E45 ++ bytesOf 1 kind ++ bytesOf 1 slot ++ [0, 0] ++ List.replicate 8 0 ++ bytesOf 2 ctx ++ [0, 0] ++ List.replicate 1708 0

theorem witness_Customs :
    (∀ ok ∈ [0, 1], ∀ opc ∈ [1, 2, 3, 4], let d := tCustD opc 64 63
      let s := tCust ok d {}
      s.flag F.CUST_STS_ERROR = false ∧ s.qd.cust.testing = false ∧ s.flag F.CUST_STS_APPROVED = (ok == 1) ∧ (s.sq 4095).descs = [d] ∧
      d.stage = 2 ∧ d.type = Ty.CUST ∧ d.opc = opc ∧ s.qd.boot.pwr = 0) ∧
    (∀ k ∈ [1, 63], let s := tCust 1 (tCustD 2 1728 0) {}
      let e := slice (tEnv 0 k 5) 0 1728
      natOf (slice e 0 4) = 0x4C564E45 ∧ natOf (slice e 18 2) = 0 ∧ wordAt e 8 = s.qd.boot.bootId ∧
      natOf (slice e 16 2) = ((s.bind 4095).qctx).toNat ∧ natOf (slice e 4 1) = 0 ∧ natOf (slice e 5 1) = k ∧ (s.ks k).st = 0 ∧
      s.qd.cust.jobs = []) ∧
    (let s := (tCust 1 (tCustD 2 1728 0) {}).setFl F.CUST_CTL_FERRY_CTX 5
     let e := slice (tEnv 1 0 5) 0 1728
     natOf (slice e 4 1) = 1 ∧ natOf (slice e 5 1) = 0 ∧ ((s.bind 4095).qctx).toNat = s.fl F.CUST_CTL_FERRY_CTX) ∧
    (let s := tCust 1 (tCustD 3 0 63) { keys := [(63, { st := 1, ctx := 5, key := [1] })], holders := [(63, [143, 143, 0])] }
     (s.ks 63).st = 1 ∧ (s.ks 63).ctx = (s.bind 4095).qctx ∧ s.qd.green.colls = [] ∧ s.qd.srcs.waits = [] ∧ s.qd.cust.jobs = [] ∧
     (∀ a, a < 64 → s.alState a = 0) ∧ (s.ks 0).st ≠ 1 ∧ fget (63 : Word) 0 6 = 63) ∧
    (let s := tCust 1 (tCustD 4 192 63) { keys := [(63, { st := 1, ctx := 5, key := [1] })], holders := [(63, [143])] }
     (s.ks 63).st = 1 ∧ (s.ks 63).ctx = (s.bind 4095).qctx ∧
     (List.range 144).filter (fun i => (Tbl.at s.qd.cust.holders 63).contains i) = [143] ∧
     (List.range 256).filter (fun m => match s.allotOf m with
       | some a => s.flag (F.ALLOT_STS_W0_PROT a) && s.fl (F.ALLOT_STS_W0_CTX a) == 5
       | none => false) = []) ∧
    (let s := tCust 1 default { keys := [(63, { st := 3, key := [] })] }
     (s.ks 63).st = 3 ∧ s.qd.cust.scrub = none ∧ s.qd.cust.jobs = []) ∧
    (∀ n ∈ [1, 4], let j : CustJob := { k := 63, retire := true, step := n, desc := some (4095, 0) }
      let s := tCust 1 default { jobs := [j] }
      s.qd.cust.jobs = [] ++ [j] ++ [] ∧ j.todo = []) ∧
    (∀ b : Bool, (tCust 1 default { testing := b }).qd.cust.testing = b) ∧
    (let s := (tCust 1 default {}).setFl F.CUST_STS_ERROR 1
     s.flag F.CUST_STS_ERROR = true) ∧
    (∀ n ∈ [1, 2], let s := (tCust 1 default {}).setFl F.BOOT_STS_SETUP 1
      s.flag F.CUST_STS_ERROR = false ∧ fget (0x100 : Word) 8 8 ≠ 0 ∧ fget (0x100 : Word) 0 2 = 0 ∧
      (s.writeReg R.CUST_CTL (0x100 ||| wd n)).isSome = true) := by
  refine ⟨by decide +kernel, by decide +kernel, by decide +kernel, by decide +kernel, by decide +kernel, by decide +kernel, by decide +kernel,
    by decide +kernel, by decide +kernel, by decide +kernel⟩

/-! ### Fault management: the hypotheses of the statements -/

/-- The QD1 of plane 0 in service, in a state of its pair, with its partner's link up or not. -/
def tFault (pair plink : Nat) (f : FaultMgr) : State :=
  ((({ qd := { regs := [(R.DEV_NODE, 160), (R.FT_LIVE, 0x3FFFF)], fault := f } } : State).setFl F.BOOT_STS_STEP 12).setFl F.FT_STS_PAIR
    pair).setFl F.FT_STS_PLINK plink

theorem witness_FaultManagement :
    (∀ pair ∈ [0, 1, 2, 3, 4], ∀ plink ∈ [0, 1], let s := tFault pair plink { polled := true }
      s.serving = true ∧ s.pair = pair ∧ s.flag F.FT_STS_PLINK = (plink == 1) ∧ s.qd.node.mirrors = [] ∧ s.qd.node.waits = [] ∧
      s.qd.mnode.waits = [] ∧ s.mergeEnts = [] ∧ s.qd.sw.partnerRecs = [] ∧ s.portUp 144 = false ∧ s.portUp 145 = false ∧
      s.qd.fault.polled = true ∧ s.qd.fault.takeover = false ∧ s.qd.fault.spare = false ∧ s.qd.fault.copying = false ∧
      s.qd.dir.noticed = [] ∧ s.qdPlane = 0) ∧
    (let s := tFault 0 1 {}
     let live := s.rg R.FT_LIVE &&& 0x3FFFF
     live = BitVec.ofNat 64 (0x3FFFF : BitVec 18).toNat ∧
     (∀ c ∈ [1, 17], bitAt live c = true ∧ bitAt live (c ^^^ 1) = true ∧ c ≠ s.qdPlane ∧
       BitVec.ofNat 64 (BitVec.ofNat 18 (0x3FFFF - 2 ^ c)).toNat = live &&& ~~~ (1#64 <<< c))) ∧
    ((tFault 1 1 { copying := true }).qd.fault.copying = true ∧ (1 : Byte).toNat = (tFault 1 1 {}).qdPlane ^^^ 1 ∧ (8 : Byte).toNat < 9 ∧
      (8 : Byte).toNat ≠ (tFault 1 1 {}).qdPlane / 2 ∧ (0 : Byte).toNat = (tFault 4 0 {}).qdPlane / 2 ∧ (tFault 4 0 {}).pair = 4 ∧
      (2 : Byte).toNat ≠ (tFault 1 1 {}).qdPlane ^^^ 1) ∧
    (∀ b : Bool, let s := (tFault 1 1 { tested := b, spare := false }).setRg R.FT_LIVE 0x3FFFE
      s.serving = true ∧ bitAt (s.rg R.FT_LIVE) s.qdPlane = false ∧ s.qd.fault.tested = b ∧ s.pair ≠ 3 ∧ s.flag F.FT_STS_PLINK = true ∧
      (0 : Byte).toNat / 2 = s.qdPlane / 2 ∧ (1 : Byte).toNat / 2 = s.qdPlane / 2) ∧
    (let s := tFault 1 1 { spareCmd := true }
     bitAt (s.rg R.FT_LIVE) s.qdPlane = true ∧ s.pair = 1 ∧ s.qd.fault.spareCmd = true ∧ s.flag F.FT_STS_PLINK = true) ∧
    ((∀ i, i < 8 → (tFault 3 1 {}).admitCtx i = 0 ∨ bitAt ((tFault 3 1 {}).rg R.FT_ADMIT_SEEN) i = true) ∧
      (let s := ((tFault 3 1 {}).setRg (R.FT_ADMIT 1) 0x5000000000000).setRg R.FT_ADMIT_SEEN 128
       s.admitCtx 7 = 5 ∧ ∀ i, i < 8 → s.admitCtx i = 0 ∨ bitAt (s.rg R.FT_ADMIT_SEEN) i = true)) ∧
    (let d := tRun [wd (1 + Ty.STEP * 256)] 2
     let s := tRunning d
     (s.sq 4095).descs = [d] ∧ d.type = Ty.STEP ∧ d.opc = 1 ∧ s.qd.boot.pwr = 0 ∧ s.flag F.LG_CTL_EN = false) ∧
    (∀ slot ∈ [0, 143], let s := tFault 1 1 {}
      s.epLost slot = false ∧ s.inService (.qd (Fin.ofNat 160 slot)) = false ∧ s.pst (.qd (Fin.ofNat 160 slot)) ≠ 1 ∧ s.portUp slot = false ∧
      (BitVec.ofNat 8 slot).toNat = slot ∧ (s.setRg (R.FT_EPLOST (slot / 64)) (1#64 <<< (slot % 64))).epLost slot = true) := by
  refine ⟨by decide +kernel, by decide +kernel, by decide +kernel, by decide +kernel, by decide +kernel, by decide +kernel,
    by decide +kernel, by decide +kernel⟩

/-! ### Triggers and replay: the hypotheses of the statements -/

/-- An empty closed segment of number 0. -/
def tSegTail : List Byte := List.replicate 65504 0
def tSegment : List Byte :=
  (bytesOf 4 0x47444C51 ++ (List.replicate 23 0 ++ [9])) ++ (bytesOf 4 (crc32c tSegTail).toNat ++ tSegTail)

/-- A QD1 that may replay that segment, its trace in a state. -/
def tTrace (st : Nat) (lg : Ledger) : State :=
  ((((({ qd := { regs := [(R.DEV_NODE, 160), (R.LOOP_CTL, 0xA8)], aon := { ns := 1000000000 }, trace := { ledger := lg } } } : State).setFl
    F.TR_STS_STATE st).setFl F.DVFS_CTL_FORCE 1).setFl F.DVFS_CTL_TSET 60).setFl F.DVFS_STS_TJMAX 61)

theorem tNatOf (n : Nat) (h : n < 2 ^ 32) : natOf (bytesOf 4 n) = n := by
  simp only [bytesOf, natOf, BitVec.toNat_ofNat]
  omega

theorem tSegment_crc : natOf (slice tSegment 28 4) = (crc32c (tSegment.drop 32)).toNat := by
  have h1 : tSegment.drop 28 = bytesOf 4 (crc32c tSegTail).toNat ++ tSegTail := List.drop_left' rfl
  have h2 : tSegment.drop 32 = tSegTail := by
    rw [show 32 = 28 + 4 from rfl, ← List.drop_drop, h1]; exact List.drop_left' rfl
  have h3 : slice tSegment 28 4 = bytesOf 4 (crc32c tSegTail).toNat := by
    unfold slice; dsimp only
    rw [h1, show (bytesOf 4 (crc32c tSegTail).toNat ++ tSegTail).take 4 = bytesOf 4 (crc32c tSegTail).toNat from List.take_left' rfl]; rfl
  rw [h2, h3, tNatOf _ (crc32c tSegTail).isLt]

theorem tSegment_length : tSegment.length = 65536 := by
  simp only [tSegment, tSegTail, List.length_append, List.length_replicate, bytesOf, List.length_cons, List.length_nil]

theorem tSegment_ok : lgSegOk (tTrace 0 { segs := [(0, tSegment)] }) 0 0 = true := by
  have e : (tTrace 0 { segs := [(0, tSegment)] }).lgSeg 0 = tSegment := by
    have h : 0 % max 1 (tTrace 0 { segs := [(0, tSegment)] }).lgSegs = 0 := Nat.zero_mod _
    unfold State.lgSeg
    rw [h]; rfl
  unfold lgSegOk
  dsimp only
  rw [e, tSegment_crc, tSegment_length]
  have h : natOf (slice tSegment 0 4) = 0x47444C51 ∧ natOf (slice tSegment 4 4) = 0 ∧ natOf (slice tSegment 26 1) = 0 ∧
      natOf (slice tSegment 27 1) = 9 ∧ slice tSegment 32 16 = List.replicate 16 0 := by decide +kernel
  simp only [h.1, h.2.1, h.2.2.1, h.2.2.2.1, h.2.2.2.2, beq_self_eq_true]
  decide +kernel

theorem witness_TriggersAndReplay :
    (let w := fun (d : BitVec 40) => ({ kind := 15, start := 0, dur := d, wclass := 255, windex := 255, wsub := 1, ctx := 5, node := 3, q := 4095,
                                        obj := 1, ring := 453 } : WaitInfo)
     let s := (tTrace 0 {}).setFl F.TR_CTL_HANG_TMO 1
     (w 9999).dur.toNat < s.fl F.TR_CTL_HANG_TMO * 10000 ∧ s.fl F.TR_CTL_HANG_TMO * 10000 ≤ (w 10000).dur.toNat ∧
     (s.setFl F.TR_CTL_HANG_EN 0).flag F.TR_CTL_HANG_EN = false ∧
     (let u := (s.setFl F.TR_CTL_HANG_EN 1).setRg R.TR_CTL ((s.setFl F.TR_CTL_HANG_EN 1).rg R.TR_CTL &&& (1#64 <<< 44 - 1))
      (s.setFl F.TR_CTL_HANG_EN 1).flag F.TR_CTL_HANG_EN = true ∧ bitAt (u.rg R.TR_CTL) (44 + Cat.TIMEOUT) = false ∧ u.fl F.TR_STS_STATE = 0)) ∧
    ((tTrace 0 {}).fl F.TR_STS_STATE = 0 ∧ (tTrace 1 {}).fl F.TR_STS_STATE = 1 ∧ (tTrace 2 {}).fl F.TR_STS_STATE ≠ 0) ∧
    (let s := tTrace 0 { segs := [(0, tSegment)], upTo := 0 }
     s.replaying = false ∧ fget (0 : Word) 2 32 = 0 ∧ replayOk s 0 0 = true) ∧
    (replayOk (tTrace 0 {}) 1 0 = false ∧ ((tTrace 0 {}).setFl F.LG_RSTS_STATE 1).replaying = true) ∧
    (∀ t ∈ [Lg.DESC, Lg.MSG], let r : Nat × List Byte := (7, List.replicate 8 0 ++ bytesOf 1 t ++ List.replicate 87 0)
      let s := (tTrace 0 { todo := [r] }).setFl F.LG_RSTS_STATE 1
      s.replaying = true ∧ s.qd.trace.ledger.todo = r :: [] ∧ natOf (slice r.2 8 1) = t) ∧
    (let s := (tTrace 0 {}).setFl F.LG_RSTS_STATE 1
     s.replaying = true ∧ s.qd.trace.ledger.todo = [] ∧ s.qd.rings.qs = []) := by
  refine ⟨by decide +kernel, by decide +kernel, ⟨by decide +kernel, by decide, ?_⟩, by decide +kernel, by decide +kernel, by decide +kernel⟩
  have r : replayRecords (tTrace 0 { segs := [(0, tSegment)], upTo := 0 }) 0 0 = [] := by decide +kernel
  unfold replayOk
  rw [r]
  simp only [show 0 + 1 - 0 = 1 from rfl, List.range_one, List.all_cons, List.all_nil, Bool.and_true, Nat.add_zero, tSegment_ok]
  decide +kernel

/-! ### Boot, resets and the commands of the device: the hypotheses of the statements -/

/-- A device at a boot step. -/
def tBoot (step : Nat) (b : Boot) : State := ({ qd := { regs := [(R.DEV_NODE, 160)], boot := b } } : State).setFl F.BOOT_STS_STEP step

/-- Fetches of a kind that are whole: a boot image of 20 bytes, a set-up image of 12, a bundle of one byte. -/
def tWhole (kind : Nat) : ImgFetch :=
  { kind := kind, imgid := some 7, blocks := [(0, if kind = 0 then List.replicate 16 0 ++ bytesOf 4 20 else
      if kind = 1 then List.replicate 8 0 ++ bytesOf 4 12 else [1])], asked := [(0, 1)] }

theorem witness_BootGoesStepByStep :
    (∀ n ∈ [0, 1, 2, 3, 4, 5, 6, 7, 8, 9, 10, 11], (tBoot n {}).booting = true ∧ (tBoot n {}).fl F.BOOT_STS_STEP = n) ∧
    (∀ n ∈ [0, 1], ((tBoot n {}).setFl F.CLK_STS_PRES_A 1).refChoice = some .a ∧ ((tBoot n {}).setFl F.CLK_STS_PRES_B 1).refChoice = some .b) ∧
    (let s := ((((tBoot 3 {}).setFl F.CLK_STS_PRES_A 1).setFl F.RSL_ALIGN_LOCK_A 1).setFl F.CLK_STS_PRES_B 0).mapQd (fun q => { q with aon := { q.aon with sync := true } })
     s.flag F.CLK_STS_PRES_A = true ∧ s.flag F.RSL_ALIGN_LOCK_A = true ∧ s.flag F.CLK_STS_PRES_B = false ∧ s.qd.aon.sync = true) ∧
    (∀ n ∈ [5, 6, 7], (tBoot n { going := true }).qd.boot.going = true ∧ (tBoot n { going := true }).qd.boot.setup = []) ∧
    (let s := tBoot 5 { going := true, fetch := [tWhole 0, tWhole 2] }
     s.fetched 0 = some (tWhole 0) ∧ s.fetched 2 = some (tWhole 2)) ∧
    (bootImageOk State.reset.qd.variant (tWhole 0).bytes = false) ∧
    (let s := tBoot 7 { going := true, fetch := [tWhole 1] }
     s.fetched 1 = some (tWhole 1) ∧ setupImageOk s.qd.boot.mfw (tWhole 1).bytes = false ∧ natOf (slice (tWhole 1).bytes 12 4) = 0) ∧
    ((tBoot 9 {}).qd.boot.lost = 0 ∧ natOf (slice (tBoot 10 {}).qd.boot.setup 16 4) = 0 ∧ (tBoot 11 {}).qd.boot.warm = false) := by
  refine ⟨by decide +kernel, by decide +kernel, by decide +kernel, by decide +kernel, by decide +kernel, by decide +kernel, by decide +kernel,
    by decide +kernel⟩

theorem witness_ResetsAndCommandsOfTheDevice :
    (∀ b : Bool, (tBoot 12 { resetLow := b }).qd.boot.resetLow = b ∧ (tBoot 12 { resetLow := b }).qd.boot.trip = false) ∧
    ((tBoot 12 {}).rsl .a).answers = [] ∧
    (∀ op ∈ [Cmd.FR, Cmd.WR, Cmd.GR, Cmd.PR, Cmd.SETUP, Cmd.RUN, Cmd.GPIN, Cmd.GPOUT, Cmd.HSIN, Cmd.HSOUT, Cmd.DSIN],
      (tBoot 12 {}).cmdSuits op = true) ∧
    ((tBoot 5 {}).cmdSuits Cmd.BOOT = true ∧ (tBoot 0 { ds := true }).cmdSuits Cmd.WAKE = true ∧ (tBoot 12 { pwr := 2 }).cmdSuits Cmd.WR = true) ∧
    (∀ op ∈ [Cmd.WR, Cmd.GR, Cmd.PR, Cmd.BOOT, Cmd.SETUP, Cmd.RUN, Cmd.GPIN, Cmd.GPOUT, Cmd.HSIN, Cmd.HSOUT, Cmd.DSIN, Cmd.WAKE],
      (tBoot 12 { stopped := true }).cmdSuits op = false) ∧
    ((tBoot 5 {}).waitsBoot = true ∧ (1 : Byte).toNat < 2 ∧ (tBoot 5 {}).flag F.CUST_STS_ERROR = false ∧
      ((tBoot 10 {}).setFl F.BOOT_STS_FAIL 1).waitsBoot = true) ∧
    ((tBoot 12 {}).flag F.LG_CTL_EN = false ∧ (tBoot 12 {}).portThere (.qd 159) = true) ∧
    (let s := tBoot 12 {}
     s.inSetup = false ∧ s.qd.rings.bind = [] ∧ (∀ a, a < 64 → s.alState a = 0 ∨ s.flag (F.ALLOT_STS_W0_RES a) = true) ∧
     (s.setFl F.BOOT_STS_SETUP 1).inSetup = true ∧ s.present 0 = true ∧ s.qd.boot.gp = false ∧ s.gateIdle 0 = true ∧
     (∀ w, w < 48 → (s.wte .own w).state = 0) ∧ s.qd.boot.hs = false ∧ s.colls = []) ∧
    (let s := (tBoot 12 {}).setRg R.CLK_ENABLE 0
     s.unitOn 0 0 = false ∧ s.unitOn 11 2 = false ∧ s.cmdSuits Cmd.HSIN = true) ∧
    ((tBoot 12 { hs := true }).qd.boot.hs = true ∧ (tBoot 12 { hs := true }).cmdSuits Cmd.HSOUT = true ∧
      (tBoot 12 { gp := true }).cmdSuits Cmd.GPOUT = true ∧ (tBoot 12 { hs := true }).qd.boot.lost = 0) := by
  refine ⟨by decide +kernel, by decide +kernel, by decide +kernel, by decide +kernel, by decide +kernel, by decide +kernel, by decide +kernel,
    by decide +kernel, by decide +kernel, by decide +kernel⟩

/-! ### The whole machine: the hypotheses of the statements -/

theorem witness_StepRunsTheFrontCommand :
    State.reset.pending = [] ∧ State.reset.qd.aon.ahead = 0 ∧ ({ qd := { aon := { ahead := 1 } } } : State).qd.aon.ahead ≠ 0 := by
  decide +kernel

theorem witness_EveryStepKeepsTheCanonicalForm : State.reset.Wf :=
  ⟨by decide +kernel, by decide +kernel, by decide +kernel, by decide +kernel⟩

theorem witness_PacketsSurviveTheirBytes :
    (∀ p ∈ [tRec, tRecAns, tBell 1, (tTile Opc.TRD).headD default, (tTile Opc.TWR).headD default, tStm], p.wf = true ∧
      p.data.length = if p.rsp = false ∧ (p.opc = Opc.LD ∨ p.opc = Opc.TRD) then 0 else p.len) ∧
    (List.replicate 240 (0 : Byte)).length = 240 := by decide +kernel

theorem witness_BlocksSurviveTheLane : tFlit.length = 256 := by decide +kernel

end Sys2Proof.Tests
end

section
/-! PROOFS. The debug window of the mills (R327, R328). -/

namespace Sys2Proof.Machine

/-- A change of one mill followed by the answer of a register command changes that mill and nothing else but
what is sent. -/
theorem millIs_emits_mapMill (s : State) (m : Nat) (g : Mill → Mill) (src : RegSrc) :
    MillIs { s with out := s.acks src St.OK } (emits (s.mapMill m g) (regAns src St.OK)) m (g (s.mill m)) :=
  ⟨⟨rfl, fun j hj => State.mapMill_ne s m j g hj⟩, State.mapMill_self s m g⟩

/-- A mill that waits for nothing has no instruction to attempt again. -/
theorem millRetry_of_not_waiting {s : State} {m : Nat} (h : (s.mill m).wait = .none) : millRetry m s = s := by
  unfold millRetry
  split
  · rfl
  · simp only [h, ite_self]

/-- A debug halt of a mill that runs at an instruction boundary takes effect at once (R326, R327). -/
theorem debugHalt_at_boundary {s : State} {m : Nat} (hd : (s.mill m).dhalt = false)
    (hr : (s.mill m).run = .running) (hw : (s.mill m).wait.inFlight = false) :
    debugHalt m s = s.mapMill m (fun x => { x with dhalt := true, reason := 0, stepping := false, haltReq := false }) := by
  simp [debugHalt, hd, hr, hw]

/-- A halted mill that waits for nothing goes on (R328). -/
theorem debugGo_of_halted {s : State} {m : Nat} (step : Bool) (hd : (s.mill m).dhalt = true)
    (hw : (s.mill m).wait = .none) :
    debugGo step m s = s.mapMill m (fun x => { x with dhalt := false, stepping := step, pass := true }) := by
  rw [debugGo, if_pos hd, millRetry_of_not_waiting (by simp [hw])]

/-- The breakpoint registers can be written at any time (R327). -/
theorem debugWrite_ibp0 {s : State} {m : Nat} (ht : s.millThere m = true) (v : Word) :
    debugWrite m 0x18 v s = (St.OK, s.mapMill m (fun x => { x with ibp0 := v &&& 0x1FFFFD })) := by
  simp [debugWrite, ht]

theorem debugWrite_ibp1 {s : State} {m : Nat} (ht : s.millThere m = true) (v : Word) :
    debugWrite m 0x20 v s = (St.OK, s.mapMill m (fun x => { x with ibp1 := v &&& 0x1FFFFD })) := by
  simp [debugWrite, ht]

/-- A copy that `debugPoke` writes is written for a halted mill of an unprotected allotment (R327). -/
theorem debugWrite_copy {s t : State} {m off : Nat} {v : Word} (ht : s.millThere m = true)
    (hd : (s.mill m).dhalt = true) (hp : s.millProt m = false) (ho : off = 0x10 ∨ 0x100 ≤ off)
    (h : debugPoke m off v s = some t) : debugWrite m off v s = (St.OK, t) := by
  have h0 : off ≠ 0 := by omega
  have h1 : ¬(off = 0x08 ∨ off = 0x28) := by omega
  have h2 : off ≠ 0x18 := by omega
  have h3 : off ≠ 0x20 := by omega
  simp [debugWrite, ht, h0, h1, h2, h3, h, hd, hp]

theorem debugPoke_pc (m : Nat) (v : Word) (s : State) :
    debugPoke m 0x10 v s = some (s.mapMill m (fun x => { x with pc := v.setWidth 21 })) := rfl

/-- The copies of the s registers stand from 0x100 on, 8 bytes each (R327). -/
theorem debugPoke_sr (m : Nat) (r : Fin 32) (v : Word) (s : State) :
    debugPoke m (0x100 + 8 * r.val) v s = some (s.mapMill m (fun x => x.setSr r.val v)) := by
  have hr := r.isLt
  have h8 : (0x100 + 8 * r.val) % 8 = 0 := by omega
  have hpc : 0x100 + 8 * r.val ≠ 0x10 := by omega
  have hin : 0x100 ≤ 0x100 + 8 * r.val ∧ 0x100 + 8 * r.val < 0x200 := by omega
  have hix : (0x100 + 8 * r.val - 0x100) / 8 = r.val := by omega
  simp only [debugPoke, h8, hpc, hin, hix, ne_eq, not_true_eq_false, if_false, and_self, if_true]

/-- A command that answers OK after a change of one mill. -/
theorem millIs_of_exec {i : Instr} {s : State} {m : Nat} {src : RegSrc} {g : Mill → Mill}
    (h : exec i s = .next (emits (s.mapMill m g) (regAns src St.OK))) :
    ∃ t, exec i s = .next t ∧ MillIs { s with out := s.acks src St.OK } t m (g (s.mill m)) :=
  ⟨_, h, millIs_emits_mapMill s m g src⟩

/-- DEBUG_HALT of a mill that runs at an instruction boundary. -/
theorem exec_debugHalt {src : RegSrc} {m : Fin 256} {s : State} (ht : s.millThere m.val = true)
    (hd : (s.mill m.val).dhalt = false) (hr : (s.mill m.val).run = .running) (hw : (s.mill m.val).wait.inFlight = false) :
    exec (.debugHalt src m) s = .next (emits (s.mapMill m.val (fun x =>
      { x with dhalt := true, reason := 0, stepping := false, haltReq := false })) (regAns src St.OK)) := by
  show execDebugHalt src m s = _
  rw [execDebugHalt, if_pos ht, debugHalt_at_boundary hd hr hw]

/-- DEBUG_STEP of a halted mill that waits for nothing. -/
theorem exec_debugStep {src : RegSrc} {m : Fin 256} {s : State} (ht : s.millThere m.val = true)
    (hd : (s.mill m.val).dhalt = true) (hw : (s.mill m.val).wait = .none) :
    exec (.debugStep src m) s = .next (emits (s.mapMill m.val (fun x =>
      { x with dhalt := false, stepping := true, pass := true })) (regAns src St.OK)) := by
  show execDebugStep src m s = _
  rw [execDebugStep, if_pos ht, debugGo_of_halted true hd hw]

/-- DEBUG_RESUME of a halted mill that waits for nothing. -/
theorem exec_debugResume {src : RegSrc} {m : Fin 256} {s : State} (ht : s.millThere m.val = true)
    (hd : (s.mill m.val).dhalt = true) (hw : (s.mill m.val).wait = .none) :
    exec (.debugResume src m) s = .next (emits (s.mapMill m.val (fun x =>
      { x with dhalt := false, stepping := false, pass := true })) (regAns src St.OK)) := by
  show execDebugResume src m s = _
  rw [execDebugResume, if_pos ht, debugGo_of_halted false hd hw]

/-- A register write that the debug window takes is answered OK. -/
theorem exec_debugRegWrite {src : RegSrc} {m : Fin 256} {off : BitVec 15} {v : Word} {s t : State}
    (h : debugWrite m.val off.toNat v s = (St.OK, t)) :
    exec (.debugRegWrite src m off v) s = .next (emits t (regAns src St.OK)) := by
  show execDebugRegWrite src m off v s = _
  simp only [execDebugRegWrite, h]

/-- The offset of the copy of an s register fits in the 15 bits of a window offset. -/
theorem toNat_srOffset (r : Fin 32) : (BitVec.ofNat 15 (0x100 + 8 * r.val)).toNat = 0x100 + 8 * r.val := by
  rw [BitVec.toNat_ofNat]
  omega

/-- Settles O45, command by command: each changes one mill and is answered. -/
theorem millsUnderDebug : Obligations.MillsUnderDebug := by
  unfold Obligations.MillsUnderDebug
  intro src m s ht
  refine ⟨fun hd hr hw => ?halt, fun hd hw => ⟨?step, ?resume⟩, fun v => ⟨?ibp0, ?ibp1, fun hd hp => ⟨?pc, fun r => ?sr⟩⟩⟩
  case halt => exact (millIs_of_exec (exec_debugHalt ht hd hr hw) :)
  case step => exact (millIs_of_exec (exec_debugStep ht hd hw) :)
  case resume => exact (millIs_of_exec (exec_debugResume ht hd hw) :)
  case ibp0 => exact (millIs_of_exec (exec_debugRegWrite (off := 0x18) (debugWrite_ibp0 ht v)) :)
  case ibp1 => exact (millIs_of_exec (exec_debugRegWrite (off := 0x20) (debugWrite_ibp1 ht v)) :)
  case pc =>
    have hw := debugWrite_copy ht hd hp (.inl rfl) (debugPoke_pc m.val v s)
    exact (millIs_of_exec (exec_debugRegWrite (off := 0x10) hw) :)
  case sr =>
    have hw := debugWrite_copy ht hd hp (.inr (Nat.le_add_right _ _)) (debugPoke_sr m.val r v s)
    rw [← toNat_srOffset r] at hw
    exact (millIs_of_exec (exec_debugRegWrite hw) :)

end Sys2Proof.Machine
end

section
/-! PROOFS. The canonical form of the memories and register files (O58): what a result that carries a state must
satisfy, the rules for branches and folds, and the few operations that write a memory or a register file. -/

namespace Sys2Proof.Machine

/-! ### Results that carry a state -/

/-- The state of a pair is canonical. -/
abbrev PairWf {α : Type} (x : α × State) : Prop := x.2.Wf

/-- What an answer holds, if anything, has a property. -/
def OptWf {α : Type} (p : α → Prop) (o : Option α) : Prop := ∀ x, o = some x → p x

/-- The state that an instruction of a mill leaves is canonical. -/
def MRes.Wf : MRes → Prop
  | .done s => s.Wf
  | .jump s _ => s.Wf
  | .wait _ s => s.Wf
  | .stopped s => s.Wf
  | .exc _ _ _ => True
  | .observed _ => True
  | .stall => True

/-- The state that a pump step leaves is canonical. -/
def PumpStep.Wf : PumpStep → Prop
  | .stop s => s.Wf
  | .again s => s.Wf

/-- The state that a set-up record leaves is canonical. -/
def RecOut.Wf : RecOut → Prop
  | .taken s => s.Wf
  | .refused _ => True
  | .waits => True

/-- A command answers a canonical next state. -/
def ResWf (r : Res) : Prop := ∃ t, r = .next t ∧ t.Wf

theorem resWf_next {s : State} (h : s.Wf) : ResWf (.next s) := ⟨s, rfl, h⟩

theorem optWf_none {α : Type} {p : α → Prop} : OptWf p none := fun _ e => nomatch e

theorem optWf_some {α : Type} {p : α → Prop} {x : α} (h : p x) : OptWf p (some x) :=
  fun _ e => Option.some.inj e ▸ h

theorem optWf_map {α β : Type} {p : α → Prop} {q : β → Prop} {f : α → β} {o : Option α} (h : OptWf p o)
    (hf : ∀ x, p x → q (f x)) : OptWf q (o.map f) := by
  intro y e
  obtain ⟨x, hx, rfl⟩ := Option.map_eq_some_iff.1 e
  exact hf x (h x hx)

/-- An answer or its default. -/
theorem wf_getD {α : Type} {p : α → Prop} {o : Option α} {x : α} (h : OptWf p o) (hx : p x) : p (o.getD x) := by
  cases o with
  | none => exact hx
  | some y => exact h y rfl

theorem wf_pair {α : Type} {a : α} {s : State} (h : s.Wf) : PairWf (a, s) := h

theorem wf_done {s : State} (h : s.Wf) : (MRes.done s).Wf := h

theorem wf_jump {s : State} {a : Word} (h : s.Wf) : (MRes.jump s a).Wf := h

theorem wf_waits {s : State} {w : MWait} (h : s.Wf) : (MRes.wait w s).Wf := h

theorem wf_stopped {s : State} (h : s.Wf) : (MRes.stopped s).Wf := h

theorem wf_stop {s : State} (h : s.Wf) : (PumpStep.stop s).Wf := h

theorem wf_again {s : State} (h : s.Wf) : (PumpStep.again s).Wf := h

theorem wf_taken {s : State} (h : s.Wf) : (RecOut.taken s).Wf := h

/-- What an answer holds. -/
theorem OptWf.get {α : Type} {p : α → Prop} {o : Option α} {x : α} (h : OptWf p o) (e : o = some x) : p x := h x e

theorem wf_of_some {o : Option State} {s : State} (h : OptWf State.Wf o) (e : o = some s) : s.Wf := h s e

theorem wf_of_some_pair {α : Type} {o : Option (α × State)} {a : α} {s : State} (h : OptWf PairWf o)
    (e : o = some (a, s)) : s.Wf := h (a, s) e

/-- The state that a pair is taken apart into. -/
theorem wf_of_pair {α : Type} {x : α × State} {a : α} {s : State} (h : PairWf x) (e : x = (a, s)) : s.Wf := by
  subst e
  exact h

/-! ### Branches and folds -/

theorem wf_ite {α : Type} {p : α → Prop} {c : Prop} [Decidable c] {a b : α} (ha : p a) (hb : p b) :
    p (if c then a else b) :=
  iteInduction (fun _ => ha) fun _ => hb

theorem wf_foldl {α β : Type} {p : β → Prop} {f : β → α → β} {l : List α} {b : β}
    (hf : ∀ b a, p b → p (f b a)) (h : p b) : p (l.foldl f b) :=
  List.foldlRecOn l f h fun b hb a _ => hf b a hb

/-! ### What the canonical form speaks of -/

/-- The parts of the QD1 that the canonical form speaks of are canonical. -/
def Qd.Wf (q : Qd) : Prop := q.hbm.wf = true ∧ q.mhbm.wf = true ∧ Tbl.wf (regReset q.variant) q.regs = true

theorem State.wf_iff {s : State} : s.Wf ↔ s.qd.Wf ∧ Tbl.wf svReset s.sv.regs = true := by
  simp only [State.Wf, Qd.Wf, and_assoc]

/-- The parts of a state that the canonical form speaks of. -/
def State.canon (s : State) : Hbm × Hbm × Variant × Tbl Word × Tbl Word :=
  (s.qd.hbm, s.qd.mhbm, s.qd.variant, s.qd.regs, s.sv.regs)

/-- A state that differs in other parts only is canonical too. -/
theorem wf_same {s t : State} (h : s.Wf) (e : t.canon = s.canon) : t.Wf := by
  simp only [State.canon, Prod.mk.injEq] at e
  obtain ⟨hhbm, hmhbm, hvariant, hregs, hsv⟩ := e
  unfold State.Wf
  rw [hhbm, hmhbm, hvariant, hregs, hsv]
  exact h

/-- A change of the QD1 that keeps its memories and register file canonical. -/
theorem State.wf_mapQd_of {s : State} {f : Qd → Qd} (h : s.Wf) (hf : ∀ q, q.Wf → (f q).Wf) : (s.mapQd f).Wf := by
  obtain ⟨hqd, hsv⟩ := State.wf_iff.1 h
  exact State.wf_iff.2 ⟨hf s.qd hqd, hsv⟩

/-- A change of the QD1 that leaves its memories, its register file and its variant. -/
theorem State.wf_mapQd {s : State} {f : Qd → Qd} (h : s.Wf)
    (hf : ∀ q, ((f q).hbm, (f q).mhbm, (f q).variant, (f q).regs) = (q.hbm, q.mhbm, q.variant, q.regs)) :
    (s.mapQd f).Wf := by
  have e := hf s.qd
  simp only [Prod.mk.injEq] at e
  obtain ⟨hhbm, hmhbm, hvariant, hregs⟩ := e
  refine wf_same h ?_
  simp only [State.canon, State.mapQd, hhbm, hmhbm, hvariant, hregs]

/-- A change of the Svapo block that leaves its register file. -/
theorem State.wf_mapSv {s : State} {f : Sv → Sv} (h : s.Wf) (hf : ∀ v, (f v).regs = v.regs) : (s.mapSv f).Wf :=
  wf_same h (by simp only [State.canon, State.mapSv, hf])

/-! ### The operations that write a memory or a register file -/

theorem State.wf_mapHbm {s : State} {b : Bank} {f : Hbm → Hbm} (h : s.Wf)
    (hf : ∀ x : Hbm, x.wf = true → (f x).wf = true) : (s.mapHbm b f).Wf := by
  obtain ⟨hhbm, hmhbm, hregs, hsv⟩ := h
  cases b with
  | own => exact ⟨hf _ hhbm, hmhbm, hregs, hsv⟩
  | mir => exact ⟨hhbm, hf _ hmhbm, hregs, hsv⟩
  | sv => exact ⟨hf _ hhbm, hmhbm, hregs, hsv⟩

theorem State.poke_wf {s : State} {b : Bank} {a : Nat} {bs : List Byte} (h : s.Wf) : (s.poke b a bs).Wf :=
  State.wf_mapHbm h fun x hx => by rw [Hbm.wf_heal]; exact Hbm.wf_write x a bs hx

theorem State.wf_setRg {s : State} {off : Nat} {w : Word} (h : s.Wf) : (s.setRg off w).Wf :=
  State.wf_mapQd_of h fun _ ⟨hhbm, hmhbm, hregs⟩ => ⟨hhbm, hmhbm, Tbl.wf_set _ _ _ _ hregs⟩

theorem State.wf_setSr {s : State} {off : Nat} {w : Word} (h : s.Wf) : (s.setSr off w).Wf := by
  obtain ⟨hhbm, hmhbm, hregs, hsv⟩ := h
  exact ⟨hhbm, hmhbm, hregs, Tbl.wf_set _ _ _ _ hsv⟩

/-- A canonical table without some of its entries. -/
theorem Tbl.wf_filter {α : Type} [DecidableEq α] {d : Nat → α} {t : Tbl α} (p : Nat × α → Bool)
    (h : Tbl.wf d t = true) :
    Tbl.wf d (t.filter p) = true := by
  obtain ⟨hr, hd⟩ := (Tbl.wf_iff d t).1 h
  refine (Tbl.wf_iff d _).2 ⟨?_, fun q hq => hd q (List.mem_filter.1 hq).1⟩
  suffices H : ∀ b, Tbl.rising b t = true → Tbl.rising b (t.filter p) = true from H 0 hr
  clear h hr hd
  induction t with
  | nil => exact fun _ _ => rfl
  | cons q t ih =>
    intro b h
    simp only [Tbl.rising, Bool.and_eq_true, decide_eq_true_eq] at h
    rw [List.filter_cons]
    split
    · simp only [Tbl.rising, Bool.and_eq_true, decide_eq_true_eq]
      exact ⟨h.1, ih _ h.2⟩
    · exact Tbl.rising_mono (by omega) (ih _ h.2)

theorem Hbm.wf_zero {x : Hbm} {a n : Nat} (h : x.wf = true) : (x.zero a n).wf = true := Tbl.wf_filter _ h

/-- A fold that writes registers keeps a register file canonical. -/
theorem Tbl.wf_foldl {α β : Type} [DecidableEq α] {d : Nat → α} {f : Tbl α → β → Tbl α} {l : List β}
    {t : Tbl α} (hf : ∀ t x, Tbl.wf d t = true → Tbl.wf d (f t x) = true) (h : Tbl.wf d t = true) :
    Tbl.wf d (l.foldl f t) = true :=
  Machine.wf_foldl (p := fun t => Tbl.wf d t = true) hf h

/-- The register file after a reset is canonical, whatever it was before (R9, R521). -/
theorem wf_regsAfter {v : Variant} {code : Nat} {t : Tbl Word} : Tbl.wf (regReset v) (regsAfter v code t) = true := by
  refine Tbl.wf_foldl (fun t x h => ?_) (Tbl.wf_nil _)
  split
  · exact h
  · exact Tbl.wf_set _ _ _ _ h

theorem wf_pllRegs {v : Variant} {old new : Tbl Word} (h : Tbl.wf (regReset v) new = true) :
    Tbl.wf (regReset v) (pllRegs old new v) = true :=
  Tbl.wf_set _ _ _ _ (Tbl.wf_set _ _ _ _ h)

theorem wf_srefRegs {v : Variant} {t : Tbl Word} (h : Tbl.wf (regReset v) t = true) :
    Tbl.wf (regReset v) (srefRegs v t) = true :=
  Tbl.wf_foldl (fun _ _ h => Tbl.wf_set _ _ _ _ h) h

theorem wf_gridRegs {v : Variant} {t : Tbl Word} (h : Tbl.wf (regReset v) t = true) :
    Tbl.wf (regReset v) (gridRegs v t) = true :=
  Tbl.wf_foldl (fun _ _ h => wf_ite (p := fun t => Tbl.wf (regReset v) t = true) (Tbl.wf_set _ _ _ _ h) h) h

/-- What a warm reset and deep sleep keep of the QD1 is canonical (R520, R521). -/
theorem Qd.wf_warmKept {q : Qd} (h : q.Wf) : (warmKept q).Wf := by
  obtain ⟨hhbm, hmhbm, _⟩ := h
  exact ⟨hhbm, hmhbm, wf_srefRegs (wf_pllRegs wf_regsAfter)⟩

theorem Qd.wf_sleepKept {q : Qd} (h : q.Wf) : (sleepKept q).Wf := by
  obtain ⟨hhbm, hmhbm, _⟩ := h
  exact ⟨hhbm, hmhbm, wf_srefRegs (wf_pllRegs wf_regsAfter)⟩

/-- A QD1 whose memories have been lost is canonical with a canonical register file. -/
theorem Qd.wf_of_regs {v : Variant} {t : Tbl Word} {b : Boot} (h : Tbl.wf (regReset v) t = true) :
    ({ variant := v, regs := t, boot := b } : Qd).Wf :=
  ⟨rfl, rfl, h⟩

/-! ### The operations of Machine/Ops -/

theorem wf_emit {s : State} {o : Out} (h : s.Wf) : (emit s o).Wf :=
  wf_same h rfl

theorem wf_emits {s : State} {os : List Out} (h : s.Wf) : (emits s os).Wf :=
  wf_same h rfl

theorem wf_keepAnswer {s : State} {o : Out} (h : s.Wf) : (keepAnswer s o).Wf := by
  unfold keepAnswer
  split
  · exact wf_same h rfl
  · exact wf_same h rfl
  · exact h

theorem wf_answer {s : State} {o : Out} (h : s.Wf) : (answer s o).Wf :=
  wf_keepAnswer (wf_emit h)

theorem wf_answers {s : State} {os : List Out} (h : s.Wf) : (answers s os).Wf :=
  wf_foldl (fun _ _ ht => wf_answer ht) h

theorem wf_draw {w : Nat} {s : State} (h : s.Wf) : PairWf (draw w s) :=
  wf_pair (wf_same h rfl)

theorem State.wf_mapNode {s : State} {b : Bank} {f : Node → Node} (h : s.Wf) : (s.mapNode b f).Wf := by
  unfold State.mapNode
  split
  · exact State.wf_mapQd h (fun _ => rfl)
  · exact State.wf_mapQd h (fun _ => rfl)
  · exact State.wf_mapSv h (fun _ => rfl)

theorem State.wf_mapSrcs {s : State} {d : Side} {f : Srcs → Srcs} (h : s.Wf) : (s.mapSrcs d f).Wf := by
  unfold State.mapSrcs
  split
  · exact State.wf_mapQd h (fun _ => rfl)
  · exact State.wf_mapSv h (fun _ => rfl)

theorem State.wf_mapLink {s : State} {p : PortSel} {f : Link → Link} (h : s.Wf) : (s.mapLink p f).Wf := by
  unfold State.mapLink
  split
  · exact State.wf_mapQd h (fun _ => rfl)
  · exact State.wf_mapSv h (fun _ => rfl)

theorem State.wf_mapSw {s : State} {f : Sw → Sw} (h : s.Wf) : (s.mapSw f).Wf :=
  State.wf_mapQd h (fun _ => rfl)

theorem State.wf_mapDir {s : State} {f : Dir → Dir} (h : s.Wf) : (s.mapDir f).Wf :=
  State.wf_mapQd h (fun _ => rfl)

theorem State.wf_mapRings {s : State} {f : Rings → Rings} (h : s.Wf) : (s.mapRings f).Wf :=
  State.wf_mapQd h (fun _ => rfl)

/-! ### The operations of Machine/Clocks -/

theorem wf_aonTick {s : State} (h : s.Wf) : (aonTick s).Wf :=
  State.wf_mapQd h (fun _ => rfl)

/-! ### The operations of Machine/RegMap -/

theorem State.wf_setFl {s : State} {f : Fld} {v : Nat} (h : s.Wf) : (s.setFl f v).Wf :=
  State.wf_setRg h

theorem State.wf_count {s : State} {f : Fld} {n : Nat} (h : s.Wf) : (s.count f n).Wf :=
  State.wf_setFl h

theorem State.wf_countSat {s : State} {f : Fld} (h : s.Wf) : (s.countSat f).Wf :=
  wf_ite (State.wf_setFl h) h

theorem State.wf_setSrf {s : State} {off lo n v : Nat} (h : s.Wf) : (s.setSrf off lo n v).Wf :=
  State.wf_setSr h

/-! ### The operations of Machine/Flags -/

theorem State.wf_score {s : State} {cls idx n : Nat} (h : s.Wf) : (s.score cls idx n).Wf :=
  State.wf_mapQd h (fun _ => rfl)

theorem State.wf_toRegion {s : State} {r : EvRec} (h : s.Wf) : (s.toRegion r).Wf := by
  unfold State.toRegion
  refine wf_ite h ?_
  refine wf_ite (State.wf_mapQd h (fun _ => rfl)) ?_
  refine wf_ite (wf_ite h (State.wf_setFl (State.wf_mapQd h (fun _ => rfl)))) ?_
  exact wf_ite (State.wf_setFl (State.wf_mapQd h (fun _ => rfl))) (wf_ite (State.wf_count h) h)

theorem State.wf_record {s : State} {ring : Nat} {e : Ev} {trig : Bool} (h : s.Wf) :
    (s.record ring e trig).Wf := by
  unfold State.record
  refine wf_ite (State.wf_setFl (State.wf_toRegion (wf_ite h (State.wf_mapQd h (fun _ => rfl))))) ?_
  exact State.wf_toRegion (wf_ite h (State.wf_mapQd h (fun _ => rfl)))

theorem State.wf_openTrigger {s : State} {src : Nat} (h : s.Wf) : (s.openTrigger src).Wf :=
  State.wf_setFl (State.wf_setFl (State.wf_setRg (State.wf_mapQd h (fun _ => rfl))))

theorem State.wf_trigger {s : State} {src : Nat} (h : s.Wf) : (s.trigger src).Wf :=
  wf_ite (State.wf_record (State.wf_openTrigger h)) (State.wf_countSat h)

theorem State.wf_event {s : State} {ring : Nat} {e : Ev} (h : s.Wf) : (s.event ring e).Wf := by
  unfold State.event
  refine wf_ite ?_ (State.wf_record h)
  refine wf_ite (State.wf_record (State.wf_record (State.wf_openTrigger h))) ?_
  exact State.wf_countSat (State.wf_record h)

theorem State.wf_svEvent {s : State} {uindex : Nat} {e : Ev} (h : s.Wf) : (s.svEvent uindex e).Wf := by
  unfold State.svEvent
  refine wf_ite (wf_emit (State.wf_setSrf (State.wf_mapSv (wf_draw h) (fun _ => rfl)))) ?_
  exact State.wf_setSrf (State.wf_mapSv (wf_draw h) (fun _ => rfl))

theorem State.wf_refused {s : State} {ring off : Nat} {v : Word} (h : s.Wf) : (s.refused ring off v).Wf :=
  State.wf_event h

theorem State.wf_svRefused {s : State} {off : Nat} {v : Word} (h : s.Wf) : (s.svRefused off v).Wf :=
  State.wf_svEvent h

/-! ### The operations of Machine/Ledger -/

theorem State.wf_mapLedger {s : State} {f : Ledger → Ledger} (h : s.Wf) : (s.mapLedger f).Wf :=
  State.wf_mapQd h (fun _ => rfl)

theorem State.wf_lgClose {s : State} {gap : Bool} (h : s.Wf) : (s.lgClose gap).Wf :=
  wf_ite (State.wf_setFl (State.wf_setFl (State.wf_mapLedger h))) (State.wf_setFl (State.wf_mapLedger h))

theorem State.wf_lgWrite {s : State} {typ : Nat} {ctx : BitVec 16} {uclass uindex : Nat} {body : List Byte}
    (h : s.Wf) : (s.lgWrite typ ctx uclass uindex body).Wf :=
  wf_ite h (wf_ite (State.wf_mapQd h (fun _ => rfl)) (State.wf_mapLedger (wf_ite h (State.wf_lgClose h))))

theorem State.wf_journal {s : State} {typ : Nat} {ctx : BitVec 16} {uclass uindex : Nat} {body : List Byte}
    (h : s.Wf) : (s.journal typ ctx uclass uindex body).Wf :=
  wf_ite (State.wf_lgWrite h) h

theorem State.wf_noteAtomic {s : State} {addr : Nat} {k : ReplayKey} {ctx : BitVec 16} {opc : Nat} (h : s.Wf) :
    (s.noteAtomic addr k ctx opc).Wf :=
  wf_ite (State.wf_journal (State.wf_mapLedger h)) (State.wf_mapLedger h)

theorem State.wf_replayEnd {s : State} {st : Nat} (h : s.Wf) : (s.replayEnd st).Wf :=
  State.wf_setFl (State.wf_mapLedger (State.wf_mapRings (State.wf_mapQd h (fun _ => rfl))))

theorem State.wf_replayMiss {s : State} {no typ : Nat} (h : s.Wf) : (s.replayMiss no typ).Wf := by
  unfold State.replayMiss
  refine wf_ite ?_ ?_
  · refine State.wf_event ?_
    refine wf_ite (State.wf_replayEnd (State.wf_count (State.wf_setFl (wf_ite (State.wf_setRg h) h)))) ?_
    exact State.wf_count (State.wf_setFl (wf_ite (State.wf_setRg h) h))
  · refine State.wf_trigger ?_
    refine State.wf_event ?_
    refine wf_ite (State.wf_replayEnd (State.wf_count (State.wf_setFl (wf_ite (State.wf_setRg h) h)))) ?_
    exact State.wf_count (State.wf_setFl (wf_ite (State.wf_setRg h) h))

theorem State.wf_compare {s : State} {typ : Nat} {same eq : List Byte → Bool} (h : s.Wf) :
    (s.compare typ same eq).Wf := by
  unfold State.compare
  refine wf_ite h ?_
  split
  · exact h
  · split
    · exact h
    · exact wf_ite (State.wf_mapLedger h) (State.wf_replayMiss (State.wf_mapLedger h))

theorem State.wf_indig {s : State} {ctx : BitVec 16} {uclass uindex : Nat} {fa : Word} {d : List Byte}
    (h : s.Wf) : (s.indig ctx uclass uindex fa d).Wf :=
  State.wf_journal (State.wf_compare h)

/-! ### The operations of Machine/Windows -/

theorem State.wf_setWte {s : State} {b : Bank} {w : Nat} {e : Entry} (h : s.Wf) : (s.setWte b w e).Wf :=
  State.wf_mapNode h

theorem State.wf_addTrans {s : State} {b : Bank} {t : Trans} (h : s.Wf) : (s.addTrans b t).Wf :=
  State.wf_mapNode h

theorem State.wf_dropTrans {s : State} {b : Bank} {w : Nat} (h : s.Wf) : (s.dropTrans b w).Wf :=
  State.wf_mapNode h

theorem State.wf_nodeEvent {s : State} {b : Bank} {e : Ev} (h : s.Wf) : (s.nodeEvent b e).Wf := by
  unfold State.nodeEvent
  split
  · exact State.wf_svEvent h
  · exact State.wf_event h

theorem State.wf_mirror {s : State} {msgs : Nat → List Out} {then_ : MirrorThen} {answers lost : List Out}
    {strm : Option (Via × BitVec 14 × BitVec 10 × BitVec 2)} (h : s.Wf) :
    (s.mirror msgs then_ answers lost strm).Wf :=
  wf_emits (State.wf_mapNode h)

theorem State.wf_breakEntry {s : State} {b : Bank} {w : Nat} (h : s.Wf) : (s.breakEntry b w).Wf := by
  unfold State.breakEntry
  refine wf_ite ?_ ?_
  · refine State.wf_mirror ?_
    refine State.wf_dropTrans ?_
    exact State.wf_setWte (wf_ite (State.wf_nodeEvent h) (State.wf_score (State.wf_nodeEvent h)))
  · refine State.wf_dropTrans ?_
    exact State.wf_setWte (wf_ite (State.wf_nodeEvent h) (State.wf_score (State.wf_nodeEvent h)))

theorem State.wf_setStaged {s : State} {src : RegSrc} {table i : Nat} {v : Word} (h : s.Wf) :
    (s.setStaged src table i v).Wf :=
  State.wf_mapQd h (fun _ => rfl)

theorem State.wf_setWtSts {s : State} {w : Nat} {st : BitVec 7} (h : s.Wf) : (s.setWtSts w st).Wf :=
  State.wf_setFl (State.wf_setFl h)

theorem wf_wtCmd {src : RegSrc} {v : Word} {ans : BitVec 7 → List Out} {s : State} (h : s.Wf) :
    (wtCmd src v ans s).Wf := by
  unfold wtCmd
  refine wf_ite (wf_emits (State.wf_setWtSts (State.wf_event h))) ?_
  exact wf_ite (State.wf_mirror h) (wf_emits (State.wf_setWtSts (State.wf_setWte h)))

theorem wf_svWtCmd {v : Word} {s : State} (h : s.Wf) : PairWf (svWtCmd v s) :=
  wf_ite (wf_pair (State.wf_svEvent h)) (wf_pair (State.wf_setWte h))

theorem State.wf_drain {s : State} {b : Bank} {w : Nat} (h : s.Wf) : (s.drain b w).Wf :=
  State.wf_dropTrans (State.wf_setWte h)

theorem wf_winWithdraw {b : Bank} {w : Nat} {v : Word} {ans : BitVec 7 → List Out} {s : State} (h : s.Wf) :
    (winWithdraw b w v ans s).Wf := by
  unfold winWithdraw
  refine wf_ite ?_ (wf_ite (State.wf_mirror (State.wf_drain h)) (wf_emits (State.wf_drain h)))
  refine wf_emits ?_
  split
  · exact State.wf_svRefused h
  · exact State.wf_refused h

theorem wf_withdrawComplete {b : Bank} {w : Nat} {s : State} (h : s.Wf) : (withdrawComplete b w s).Wf := by
  unfold withdrawComplete
  refine wf_ite ?_ h
  refine wf_ite (State.wf_mirror (State.wf_dropTrans (State.wf_setWte h))) ?_
  exact State.wf_dropTrans (State.wf_setWte h)

theorem wf_execStreamPrefetch {id : Nat} {s : State} (h : s.Wf) : ResWf (execStreamPrefetch id s) := by
  unfold execStreamPrefetch
  refine resWf_next ?_
  split
  · exact h
  · exact wf_ite h (State.wf_mapNode h)

theorem wf_apertureWrite {i w : Nat} {v : Word} {s : State} (h : s.Wf) : PairWf (apertureWrite i w v s) :=
  wf_ite (wf_pair (State.wf_setSr h)) (wf_pair (State.wf_svRefused h))

/-! ### The operations of Machine/Respond -/

theorem wf_svTx {pl : Nat} {p : Packet} {s : State} (h : s.Wf) : (svTx pl p s).Wf :=
  wf_ite (wf_emit (State.wf_mapSv h (fun _ => rfl))) (State.wf_mapSv h (fun _ => rfl))

theorem wf_reply {v : Via} {p : Packet} {s : State} (h : s.Wf) : (reply v p s).Wf := by
  unfold reply
  split
  · exact wf_svTx h
  · exact wf_emit h
  · exact wf_emit h

theorem wf_failPkt {v : Via} {p : Packet} {st : BitVec 7} {off : Option Nat} {s : State} (h : s.Wf) :
    (failPkt v p st off s).Wf :=
  wf_reply h

theorem State.wf_wait {s : State} {b : Bank} {w : Waiting} (h : s.Wf) : (s.wait b w).Wf :=
  State.wf_mapNode h

theorem State.wf_nextNo {s : State} {b : Bank} (h : s.Wf) : PairWf (s.nextNo b) := by
  unfold State.nextNo
  split <;> exact wf_pair (State.wf_mapNode h)

theorem State.wf_addTile {s : State} {b : Bank} {p : Packet} {e : Entry} {tr : List Trans} (h : s.Wf) :
    (s.addTile b p e tr).Wf := by
  unfold State.addTile
  split
  · exact h
  · exact wf_ite h (State.wf_mapNode h)

theorem State.wf_dropTile {s : State} {b : Bank} {p : Packet} (h : s.Wf) : (s.dropTile b p).Wf :=
  wf_ite h (State.wf_mapNode h)

theorem State.wf_partDone {s : State} {b : Bank} {p : Packet} (h : s.Wf) : (s.partDone b p).Wf := by
  unfold State.partDone
  split
  · exact h
  · exact State.wf_mapNode h

theorem State.wf_addReplay {s : State} {b : Bank} {r : ReplayEnt} (h : s.Wf) : (s.addReplay b r).Wf :=
  State.wf_mapNode h

theorem State.wf_retireFrame {s : State} {a : Nat} (h : s.Wf) : (s.retireFrame a).Wf :=
  wf_ite h (State.wf_mapQd h (fun _ => rfl))

theorem State.wf_hbmBad {s : State} {a : Nat} (h : s.Wf) : (s.hbmBad a).Wf :=
  State.wf_retireFrame (State.wf_score (State.wf_event (wf_draw (wf_draw h))))

theorem State.wf_readable {s : State} {b : Bank} {e : Entry} {ranges : List (Nat × Nat)} (h : s.Wf) :
    PairWf (s.readable b e ranges) := by
  unfold State.readable
  split
  · exact h
  · exact wf_ite (wf_pair (State.wf_mapHbm (State.wf_hbmBad h) (fun _ e => e))) (wf_pair (State.wf_hbmBad h))

theorem State.wf_addResync {s : State} {fs : List Nat} (h : s.Wf) : (s.addResync fs).Wf :=
  State.wf_setFl (State.wf_mapQd h (fun _ => rfl))

theorem State.wf_pokes {s : State} {b : Bank} {ws : List (Nat × List Byte)} (h : s.Wf) : (s.pokes b ws).Wf :=
  wf_foldl (fun _ _ ht => State.poke_wf ht) h

theorem State.wf_applyWrite {s : State} {b : Bank} {p : Packet} {ws : List (Nat × List Byte)}
    {rep : Option ReplayEnt} (h : s.Wf) : (s.applyWrite b p ws rep).Wf := by
  unfold State.applyWrite
  extract_lets s1
  have ht : State.Wf s1 := State.wf_partDone (State.wf_pokes h)
  split
  · exact State.wf_addReplay ht
  · exact ht

theorem State.wf_commit {s : State} {b : Bank} {v : Via} {p : Packet} {e : Entry} {ws : List (Nat × List Byte)}
    {rep : Option ReplayEnt} {answers : List Out} (h : s.Wf) : (s.commit b v p e ws rep answers).Wf := by
  unfold State.commit
  refine wf_ite (State.wf_mirror h) ?_
  exact wf_emits (wf_ite (State.wf_addResync (State.wf_applyWrite h)) (State.wf_applyWrite h))

theorem wf_performQd {b : Bank} {v : Via} {pkts : List Packet} {p : Packet} {e : Entry} {tr : List Trans}
    {s : State} (h : s.Wf) : (performQd b v pkts p e tr s).Wf := by
  unfold performQd
  dsimp only
  split
  · exact wf_reply (State.wf_addTile h)
  · refine wf_ite ?_ ?_
    · refine wf_ite (wf_failPkt (State.wf_dropTile (State.wf_readable (State.wf_addTile h)))) ?_
      split
      · exact wf_emits (State.wf_partDone (State.wf_readable (State.wf_addTile h)))
      · exact wf_reply (State.wf_readable (State.wf_addTile h))
    · refine wf_ite ?_ (State.wf_commit (State.wf_addTile h))
      refine wf_ite (wf_failPkt (State.wf_readable (State.wf_addTile h))) ?_
      refine wf_ite (State.wf_noteAtomic (State.wf_commit (State.wf_readable (State.wf_addTile h)))) ?_
      exact State.wf_commit (State.wf_readable (State.wf_addTile h))

theorem wf_pickMany {n : Nat} {l : List Nat} {s : State} (h : s.Wf) : PairWf (pickMany n l s) := by
  induction n generalizing l s with
  | zero => exact h
  | succ n ih => exact ih (wf_draw h)

theorem State.wf_addInbound {s : State} {i : Inbound} (h : s.Wf) : (s.addInbound i).Wf :=
  State.wf_mapSv (State.wf_nextNo h) (fun _ => rfl)

theorem wf_performSv {v : Via} {pkts : List Packet} {p : Packet} {e : Entry} {tr : List Trans} {s : State}
    (h : s.Wf) : OptWf State.Wf (performSv v pkts p e tr s) := by
  unfold performSv
  dsimp only
  split
  · exact optWf_some (wf_reply (State.wf_addTile h))
  · refine wf_ite ?_ ?_
    · exact wf_ite optWf_none (optWf_some (wf_emit (State.wf_addInbound (wf_pickMany (State.wf_addTile h)))))
    · refine wf_ite ?_ ?_
      · refine wf_ite optWf_none ?_
        split
        · exact optWf_some (wf_pickMany (State.wf_addTile h))
        · exact optWf_some (wf_emit (State.wf_addInbound (wf_pickMany (State.wf_addTile h))))
      · refine wf_ite ?_ ?_
        · refine wf_ite optWf_none ?_
          exact optWf_some (wf_emits (State.wf_addInbound (wf_pickMany (State.wf_addTile h))))
        · refine wf_ite (optWf_some (wf_emits (State.wf_addTile h))) ?_
          refine wf_ite optWf_none ?_
          exact optWf_some (wf_emits (State.wf_addInbound (wf_pickMany (State.wf_addTile h))))

theorem wf_startPageRead {b : Bank} {e : Entry} {page : Nat} {p : Packet} {s : State} (h : s.Wf) :
    OptWf PairWf (startPageRead b e page p s) := by
  unfold startPageRead
  split
  · refine wf_ite optWf_none ?_
    exact optWf_some (wf_pair (wf_emit (State.wf_mapSv (State.wf_nextNo (wf_pickMany h)) (fun _ => rfl))))
  · exact optWf_some (wf_pair (State.wf_count (State.wf_nextNo h)))

theorem wf_attempt {b : Bank} {v : Via} {pkts : List Packet} {p : Packet} {ent : Option Entry}
    {adm : Option (List Trans)} {s : State} (h : s.Wf) : (attempt b v pkts p ent adm s).Wf := by
  unfold attempt
  dsimp only
  split
  · exact wf_failPkt (State.wf_dropTile (State.wf_breakEntry h))
  · exact wf_failPkt (State.wf_dropTile h)
  · exact h
  · split
    · exact h
    · exact wf_failPkt (State.wf_dropTile h)
    · split
      · exact State.wf_wait h
      next e1 =>
        exact State.wf_wait (wf_of_some_pair (wf_startPageRead h) e1)
    · refine wf_ite (State.wf_wait h) ?_
      refine wf_ite (State.wf_wait (State.wf_addTile h)) ?_
      split
      · split
        next e2 =>
          exact wf_of_some (wf_performSv h) e2
        · exact State.wf_wait (State.wf_addTile h)
      · exact wf_performQd h

theorem wf_ledgerAccess {v : Via} {p : Packet} {s : State} (h : s.Wf) : (ledgerAccess v p s).Wf :=
  wf_ite (wf_failPkt h) (wf_ite (wf_failPkt h) (wf_ite (wf_emits (State.wf_mapLedger h)) (wf_reply h)))

theorem wf_pktEvent {v : Via} {st : BitVec 7} {p : Packet} {s : State} (h : s.Wf) : (pktEvent v st p s).Wf := by
  unfold pktEvent
  dsimp only
  split
  · exact State.wf_event h
  · exact State.wf_event h
  · exact State.wf_svEvent h
  · exact State.wf_svEvent h

theorem wf_rxFail {v : Via} {pkts : List Packet} {p : Packet} {st : BitVec 7} {s : State} (h : s.Wf) :
    (rxFail v pkts p st s).Wf := by
  unfold rxFail
  refine wf_ite (wf_ite (wf_failPkt (wf_pktEvent h)) (wf_pktEvent h)) ?_
  exact wf_ite (wf_failPkt (wf_pktEvent h)) (wf_failPkt h)

theorem wf_request {v : Via} {pkts : List Packet} {s : State} (h : s.Wf) : (request v pkts s).Wf := by
  unfold request
  split
  · exact h
  · refine wf_ite h ?_
    split
    · exact wf_rxFail h
    · split
      · exact wf_failPkt h
      · split
        · exact wf_failPkt h
        · refine wf_ite (wf_ite (wf_ledgerAccess h) (wf_failPkt h)) ?_
          exact wf_ite h (wf_ite (wf_failPkt h) (wf_ite (State.wf_wait h) (wf_attempt h)))

theorem wf_retryOne {b : Bank} {o : PageOutcome} {s : State} {w : Waiting} (h : s.Wf) :
    (retryOne b o s w).Wf := by
  unfold retryOne
  split
  · exact h
  · split
    · exact State.wf_wait h
    · split
      · refine wf_ite ?_ (State.wf_wait h)
        split
        · exact wf_failPkt (State.wf_dropTile h)
        · exact wf_attempt h
      · exact State.wf_wait h
    · exact wf_ite (State.wf_wait h) (wf_attempt h)

theorem wf_retryWaits {b : Bank} {o : PageOutcome} {s : State} (h : s.Wf) : (retryWaits b o s).Wf :=
  wf_foldl (fun _ _ ht => wf_retryOne ht) (State.wf_mapNode h)

theorem wf_pageReturn {b : Bank} {id : Nat} {pte : Option Word} {s : State} (h : s.Wf) :
    (pageReturn b id pte s).Wf := by
  unfold pageReturn
  split
  · exact h
  · split
    · split
      · exact wf_retryWaits h
      · exact wf_ite (wf_retryWaits (State.wf_addTrans h)) (wf_retryWaits h)
    · exact h

theorem wf_execPageTableReadDone {d : Side} {id : Nat} {r : ReadResult} {s : State} (h : s.Wf) :
    ResWf (execPageTableReadDone d id r s) := by
  unfold execPageTableReadDone
  refine resWf_next ?_
  split
  · exact wf_pageReturn h
  · exact wf_pageReturn (State.wf_mapSv h (fun _ => rfl))

theorem wf_finishInbound {i : Inbound} {s : State} (h : s.Wf) : (finishInbound i s).Wf := by
  unfold finishInbound
  split
  · exact h
  · refine wf_ite (wf_failPkt (State.wf_dropTile (wf_ite (State.wf_svEvent h) h))) ?_
    dsimp only
    split
    · exact wf_foldl (fun _ _ ht => wf_reply ht) (State.wf_partDone h)
    · exact wf_reply (State.wf_partDone h)

theorem wf_finishLocked {i : Inbound} {s : State} (h : s.Wf) : (finishLocked i s).Wf := by
  unfold finishLocked
  split
  · exact h
  · refine wf_ite (wf_ite (State.wf_addReplay (wf_draw (wf_emits h))) (wf_emits h)) ?_
    exact wf_reply (wf_ite (State.wf_addReplay (wf_draw (wf_emits h))) (wf_emits h))

theorem State.wf_setInbound {s : State} {no : Nat} {r : Option Inbound} (h : s.Wf) : (s.setInbound no r).Wf :=
  State.wf_mapSv h (fun _ => rfl)

theorem wf_rsiAnswer {i : Inbound} {t : BitVec 12 × Nat × Nat} {st : BitVec 7} {data : List Byte} {s : State}
    (h : s.Wf) : (rsiAnswer i t st data s).Wf := by
  unfold rsiAnswer
  refine wf_ite (wf_pageReturn (State.wf_setInbound h)) ?_
  refine wf_ite ?_ ?_
  · refine wf_ite ?_ ?_
    · split
      · exact h
      · exact wf_retryWaits (wf_failPkt (wf_emits (State.wf_setInbound h)))
    · dsimp only
      split
      · exact wf_emit (State.wf_setInbound h)
      · exact wf_retryWaits (wf_finishLocked (State.wf_setInbound h))
  · exact wf_ite (wf_retryWaits (wf_finishInbound (State.wf_setInbound h))) (State.wf_setInbound h)

theorem wf_execRsiResponse {tag : BitVec 12} {st : BitVec 7} {data : List Byte} {s : State} (h : s.Wf) :
    ResWf (execRsiResponse tag st data s) := by
  unfold execRsiResponse
  refine resWf_next ?_
  split
  · exact h
  · split
    · exact h
    · exact wf_rsiAnswer h

theorem wf_fenceArrive {v : Via} {p : Packet} {s : State} (h : s.Wf) : (fenceArrive v p s).Wf := by
  unfold fenceArrive
  refine wf_ite h ?_
  split
  · exact wf_rxFail h
  · split
    · exact wf_failPkt h
    · exact wf_ite (State.wf_wait (State.wf_nextNo h)) (wf_reply h)

theorem wf_fenceAnswer {b : Bank} {v : Via} {src : BitVec 14} {que : BitVec 10} {cls : BitVec 2} {s : State}
    (h : s.Wf) : (fenceAnswer b v src que cls s).Wf := by
  unfold fenceAnswer
  dsimp only
  split
  · exact h
  · split
    · split
      · exact wf_ite h (wf_reply (State.wf_mapNode h))
      · exact h
    · exact h

theorem wf_memOp {opc : Nat} {v : Via} {pkts : List Packet} {s : State} (h : s.Wf) : (memOp opc v pkts s).Wf := by
  unfold memOp
  split
  · exact h
  · exact wf_ite h (wf_request h)

theorem wf_execTileRegistrationLapse {d : Side} {src : BitVec 14} {que : BitVec 10} {tag : BitVec 9} {s : State}
    (h : s.Wf) : ResWf (execTileRegistrationLapse d src que tag s) := by
  unfold execTileRegistrationLapse
  refine resWf_next ?_
  dsimp only
  split
  · exact State.wf_mapNode h
  · exact State.wf_mapNode (State.wf_mapNode h)

theorem wf_execReplayEntryExpire {d : Side} {k : ReplayKey} {s : State} (h : s.Wf) :
    ResWf (execReplayEntryExpire d k s) := by
  unfold execReplayEntryExpire
  refine resWf_next ?_
  dsimp only
  split
  · exact wf_retryWaits (State.wf_mapNode h)
  · exact wf_retryWaits (wf_retryWaits (State.wf_mapNode h))

theorem wf_raiseCount {k : Nat} {ridx : BitVec 32} {n : Nat} {s : State} (h : s.Wf) :
    (raiseCount k ridx n s).Wf :=
  State.wf_mapRings h

theorem wf_descDone {k : Nat} {ridx : BitVec 32} {st : BitVec 7} {result : Word} {s : State} (h : s.Wf) :
    (descDone k ridx st result s).Wf :=
  State.wf_mapRings h

theorem wf_descEnd {k : Nat} {ridx : BitVec 32} {st : BitVec 7} {s : State} (h : s.Wf) :
    (descEnd k ridx st s).Wf :=
  wf_descDone (wf_draw h)

theorem wf_mirrorSettle {m : MirrorPend} {acked : Bool} {s : State} (h : s.Wf) :
    (mirrorSettle m acked s).Wf := by
  unfold mirrorSettle
  refine wf_answers ?_
  split
  · exact wf_ite (State.wf_applyWrite h) (State.wf_addResync (State.wf_applyWrite h))
  · exact wf_ite (State.wf_setWtSts (State.wf_setWte h)) (State.wf_setWtSts h)
  · exact wf_ite (State.wf_setFl (State.wf_mapRings h)) (State.wf_setFl h)
  · exact wf_raiseCount h
  · extract_lets _ s1
    have ht : State.Wf s1 := wf_ite (State.wf_pokes h) (State.wf_addResync (State.wf_pokes h))
    split
    · exact wf_descDone ht
    · exact ht
  · exact h

/-! ### The operations of Machine/Switch -/

theorem State.wf_tel {s : State} {off n : Nat} (h : s.Wf) : (s.tel off n).Wf :=
  State.wf_setRg h

theorem State.wf_peak {s : State} {e c : Nat} (h : s.Wf) : (s.peak e c).Wf :=
  wf_ite (State.wf_setRg h) h

theorem wf_refusePkt {p : Packet} {st : BitVec 7} {s : State} (h : s.Wf) : (refusePkt p st s).Wf :=
  wf_ite h (wf_emit h)

theorem State.wf_setRoute {s : State} {i v : Nat} (h : s.Wf) : (s.setRoute i v).Wf :=
  State.wf_mapSw (State.wf_setRg h)

theorem State.wf_setRouteState {s : State} {i st : Nat} (h : s.Wf) : (s.setRouteState i st).Wf :=
  State.wf_setRoute h

theorem State.wf_breakRoute {s : State} {i : Nat} (h : s.Wf) : (s.breakRoute i).Wf :=
  State.wf_mapSw (State.wf_score (State.wf_event h))

theorem wf_meter {ing len : Nat} {s : State} (h : s.Wf) : PairWf (meter ing len s) :=
  wf_ite h (wf_ite (wf_pair (State.wf_mapSw h)) (wf_pair (State.wf_mapSw (State.wf_mapSw h))))

theorem wf_dropCell {ing egr len : Nat} {s : State} (h : s.Wf) : PairWf (dropCell ing egr len s) := by
  unfold dropCell
  refine wf_pair ?_
  refine wf_ite ?_ (wf_ite (wf_draw (wf_meter h)) (wf_meter h))
  split <;> exact State.wf_count (wf_ite (wf_draw (wf_meter h)) (wf_meter h))

theorem wf_takeCredit {ing c : Nat} {mgmt : Bool} {s : State} (h : s.Wf) : PairWf (takeCredit ing c mgmt s) :=
  wf_ite h (wf_ite h (wf_ite (wf_pair (State.wf_mapSw h)) (wf_ite (wf_pair (State.wf_mapSw h)) h)))

theorem wf_takeIn {ing egr idx : Nat} {held : Bool} {p : Packet} {s : State} (h : s.Wf) :
    (takeIn ing egr idx held p s).Wf := by
  unfold takeIn
  refine State.wf_peak ?_
  refine wf_foldl (fun _ _ h1 => ?_) ?_
  · exact wf_ite (wf_takeCredit h1) (State.wf_tel (State.wf_mapSw (wf_takeCredit h1)))
  · exact wf_ite (wf_foldl (p := PairWf) (fun _ _ h2 => wf_ite h2 (wf_dropCell h2)) h) h

theorem wf_execIngressPacket {i : Ingress} {p : Packet} {s : State} (h : s.Wf) :
    ResWf (execIngressPacket i p s) := by
  unfold execIngressPacket
  refine resWf_next ?_
  refine wf_ite h ?_
  refine wf_ite (wf_ite (wf_refusePkt (wf_pktEvent h)) (wf_pktEvent h)) ?_
  refine wf_ite (wf_refusePkt (wf_pktEvent h)) ?_
  split
  · exact wf_takeIn h
  · exact wf_emit h
  · exact wf_ite (wf_refusePkt (State.wf_breakRoute h)) (State.wf_breakRoute h)
  · exact wf_refusePkt (wf_ite (State.wf_count h) h)

theorem wf_trackHot {e : Nat} {p : Packet} {s : State} (h : s.Wf) : (trackHot e p s).Wf := by
  unfold trackHot
  refine wf_ite h ?_
  split
  · exact h
  · refine wf_ite (State.wf_mapSw h) ?_
    refine wf_ite (wf_ite (State.wf_count (State.wf_mapSw h)) (State.wf_mapSw h)) ?_
    split
    · exact State.wf_mapSw h
    · exact State.wf_count (State.wf_mapSw (State.wf_mapSw h))

theorem wf_toStage {e : Nat} {p : Packet} {s : State} (h : s.Wf) : (toStage e p s).Wf :=
  State.wf_mapSw h

theorem State.wf_setUpdate {s : State} {k : Nat} {u : Option Update} (h : s.Wf) : (s.setUpdate k u).Wf :=
  State.wf_mapSw h

theorem wf_egressIn {e : Nat} {p : Packet} {s : State} (h : s.Wf) : (egressIn e p s).Wf := by
  unfold egressIn
  refine wf_ite (wf_toStage h) ?_
  dsimp only
  split
  · exact wf_ite (wf_toStage h) (State.wf_mapSw h)
  · split
    · exact wf_ite (State.wf_mapSw h) (wf_ite (State.wf_setUpdate (State.wf_mapSw h)) (wf_toStage h))
    · refine wf_ite (wf_emit h) ?_
      refine wf_ite (State.wf_setUpdate h) ?_
      refine State.wf_mapSw ?_
      refine wf_foldl (fun _ _ ht => ?_) h
      split
      · exact State.wf_setUpdate ht
      · exact ht

theorem wf_releaseHeld {done : Nat × Byte} {s : State} (h : s.Wf) : (releaseHeld done s).Wf :=
  wf_foldl (fun _ _ ht => wf_ite (wf_egressIn ht) (State.wf_mapSw ht)) (State.wf_mapSw h)

theorem wf_sendUpdate {k : Nat} {s : State} (h : s.Wf) : (sendUpdate k s).Wf := by
  unfold sendUpdate
  split
  · exact h
  · split
    · exact h
    · refine wf_releaseHeld ?_
      refine wf_ite ?_ (wf_foldl (fun _ _ ht => wf_toStage ht) (State.wf_mapSw (State.wf_setUpdate h)))
      exact State.wf_journal (wf_foldl (fun _ _ ht => wf_toStage ht) (State.wf_mapSw (State.wf_setUpdate h)))

theorem wf_execMergeUpdateSend {e : Fin 512} {s : State} (h : s.Wf) : ResWf (execMergeUpdateSend e s) := by
  unfold execMergeUpdateSend
  refine resWf_next ?_
  split
  · exact h
  · split
    · exact h
    · exact wf_ite (wf_ite h (wf_emit (State.wf_setUpdate h))) (wf_sendUpdate h)

theorem wf_execCombineRecordAck {e : Fin 512} {s : State} (h : s.Wf) : ResWf (execCombineRecordAck e s) := by
  unfold execCombineRecordAck
  refine resWf_next ?_
  split
  · exact h
  · split
    · exact h
    · exact wf_ite (wf_sendUpdate (State.wf_setUpdate h)) h

theorem wf_retireRecord {k : Nat} {t : Byte} {s : State} (h : s.Wf) : (retireRecord k t s).Wf :=
  wf_emit h

theorem wf_settleUpdate {k : Nat} {u : Update} {st : BitVec 7} {old : Nat} {s : State} (h : s.Wf) :
    (settleUpdate k u st old s).Wf :=
  wf_ite (wf_retireRecord (wf_emits (State.wf_mapSw h))) (wf_emits (State.wf_mapSw h))

theorem wf_mergeResponse {p : Packet} {s : State} (h : s.Wf) : (mergeResponse p s).Wf := by
  unfold mergeResponse
  split
  · exact h
  · exact wf_ite (wf_settleUpdate h) (State.wf_mapSw h)

theorem wf_mergeTimeout {tag : Nat} {s : State} (h : s.Wf) : (mergeTimeout tag s).Wf := by
  unfold mergeTimeout
  refine wf_foldl (fun _ _ h1 => ?_) h
  refine wf_ite (wf_settleUpdate h1) ?_
  refine wf_ite ?_ (wf_settleUpdate h1)
  exact wf_ite (wf_foldl (fun _ _ h2 => wf_toStage h2) (State.wf_mapSw h1)) (wf_emit (State.wf_mapSw h1))

theorem wf_markCe {c : Cell} {s : State} (h : s.Wf) : PairWf (markCe c s) :=
  wf_ite h (wf_ite (wf_pair (State.wf_count (wf_ite (wf_draw h) h))) (wf_pair (wf_ite (wf_draw h) h)))

theorem wf_ferryGather {p : Packet} {s : State} (h : s.Wf) : (ferryGather p s).Wf :=
  wf_ite (wf_emit h) (wf_ite (wf_emit h) (State.wf_mapQd h (fun _ => rfl)))

theorem wf_moveCell {v : Nat × Nat × Nat} {s : State} (h : s.Wf) : (moveCell v s).Wf := by
  unfold moveCell
  split
  · exact h
  · split
    · exact h
    · refine wf_ite ?_ ?_
      · refine wf_ite (State.wf_tel (State.wf_mapSw h)) ?_
        refine wf_ite (wf_ferryGather (State.wf_tel (State.wf_mapSw h))) ?_
        exact wf_emit (State.wf_tel (State.wf_mapSw h))
      · refine wf_ite ?_ (State.wf_mapSw (State.wf_mapSw h))
        refine wf_ite ?_ ?_
        · refine wf_egressIn ?_
          refine wf_ite ?_ ?_
          · exact wf_ite (wf_trackHot (wf_markCe (State.wf_mapSw h))) (wf_markCe (State.wf_mapSw h))
          · refine State.wf_mapSw ?_
            exact wf_ite (wf_trackHot (wf_markCe (State.wf_mapSw h))) (wf_markCe (State.wf_mapSw h))
        · refine State.wf_mapSw ?_
          exact wf_ite (wf_trackHot (wf_markCe (State.wf_mapSw h))) (wf_markCe (State.wf_mapSw h))

theorem wf_returnCredits {i c fuel : Nat} {s : State} (h : s.Wf) : (returnCredits i c fuel s).Wf := by
  induction fuel generalizing s with
  | zero => exact h
  | succ fuel ih =>
    unfold returnCredits
    refine wf_ite h (wf_ite h (wf_ite ?_ (wf_ite ?_ h)))
    · exact ih (State.wf_mapQd (State.wf_mapSw h) fun _ => rfl)
    · exact ih (State.wf_mapQd (State.wf_mapSw h) fun _ => rfl)

theorem wf_execCellTimeMatch {s : State} (h : s.Wf) : ResWf (execCellTimeMatch s) := by
  unfold execCellTimeMatch
  refine resWf_next ?_
  refine wf_foldl (fun _ _ h1 => wf_ite (wf_returnCredits h1) h1) ?_
  refine wf_foldl (fun _ _ h2 => wf_moveCell h2) ?_
  refine State.wf_mapSw ?_
  refine wf_foldl (fun _ _ h3 => wf_moveCell h3) ?_
  refine State.wf_mapSw ?_
  refine wf_foldl (fun _ _ h4 => wf_moveCell h4) ?_
  refine State.wf_mapSw ?_
  exact State.wf_mapSw (wf_foldl (fun _ _ h5 => State.wf_tel h5) (wf_foldl (fun _ _ h6 => State.wf_tel h6) h))

theorem wf_flushPkt {n : Nat} {st : BitVec 7} {p : Packet} {s : State} (h : s.Wf) : (flushPkt n st p s).Wf :=
  wf_ite (State.wf_count h) (wf_emit (State.wf_count h))

theorem wf_flushPort {n : Nat} {s : State} (h : s.Wf) : (flushPort n s).Wf := by
  unfold flushPort
  refine wf_foldl (fun _ _ h1 => wf_settleUpdate h1) ?_
  refine wf_foldl (fun _ _ h2 => wf_ite h2 (wf_flushPkt h2)) ?_
  refine wf_foldl (fun _ _ h3 => ?_) ?_
  · split
    · refine wf_ite (wf_retireRecord (wf_foldl (fun _ _ h4 => wf_flushPkt h4) h3)) ?_
      exact wf_foldl (fun _ _ h4 => wf_flushPkt h4) h3
    · exact h3
  · refine wf_foldl (fun _ _ h5 => wf_flushPkt h5) ?_
    exact wf_foldl (fun _ _ h6 => wf_ite h6 (wf_flushPkt h6)) (State.wf_mapSw h)

theorem wf_routeHold {v : Word} {ans : BitVec 7 → List Out} {s : State} (h : s.Wf) : (routeHold v ans s).Wf := by
  unfold routeHold
  dsimp only
  split
  · exact wf_emits (State.wf_refused h)
  · refine wf_emits ?_
    exact State.wf_setFl (State.wf_setFl (State.wf_setFl (State.wf_mapSw (State.wf_setRouteState h))))

theorem wf_execRouteDrained {s : State} (h : s.Wf) : ResWf (execRouteDrained s) := by
  unfold execRouteDrained
  refine resWf_next ?_
  split
  · exact wf_ite h (State.wf_setFl (State.wf_setFl (State.wf_mapSw h)))
  · exact h

theorem wf_execRouteDrainTimeout {s : State} (h : s.Wf) : ResWf (execRouteDrainTimeout s) := by
  unfold execRouteDrainTimeout
  refine resWf_next ?_
  split
  · exact State.wf_event h
  · exact h

theorem wf_routeUpdate {v : Word} {ans : BitVec 7 → List Out} {s : State} (h : s.Wf) :
    (routeUpdate v ans s).Wf := by
  unfold routeUpdate
  dsimp only
  split
  · refine wf_ite (wf_emits (State.wf_setFl (State.wf_mapSw (State.wf_setRoute h)))) ?_
    exact wf_emits (State.wf_setFl h)
  · exact wf_emits (State.wf_setFl h)

theorem wf_reroute {i : Nat} {s : State} (h : s.Wf) : (reroute i s).Wf := by
  unfold reroute
  refine State.wf_mapSw ?_
  refine wf_foldl (fun _ _ ht => ?_) h
  split
  · exact ht
  · exact wf_ite (wf_refusePkt ht) ht

theorem wf_routeRelease {v : Word} {ans : BitVec 7 → List Out} {s : State} (h : s.Wf) :
    (routeRelease v ans s).Wf := by
  unfold routeRelease
  split
  · refine wf_ite ?_ (wf_emits (State.wf_setFl h))
    refine wf_emits ?_
    exact State.wf_setFl (State.wf_setFl (State.wf_setFl (wf_reroute (State.wf_mapSw (State.wf_setRoute h)))))
  · exact wf_emits (State.wf_setFl h)

theorem wf_rtLoad {v : Word} {ans : BitVec 7 → List Out} {s : State} (h : s.Wf) : (rtLoad v ans s).Wf :=
  wf_ite (wf_emits (State.wf_setRoute h)) (wf_emits (State.wf_refused h))

/-! ### The operations of Machine/Links -/

theorem State.wf_portEvent {s : State} {p : PortSel} {e : Ev} (h : s.Wf) : (s.portEvent p e).Wf := by
  unfold State.portEvent
  split
  · exact State.wf_event h
  · exact State.wf_svEvent h

theorem State.wf_setPst {s : State} {p : PortSel} {v : Nat} (h : s.Wf) : (s.setPst p v).Wf := by
  unfold State.setPst
  extract_lets _ _ s1
  have ht : State.Wf s1 := by
    unfold s1
    split
    · exact State.wf_setFl h
    · exact State.wf_setSrf h
  exact wf_ite ht (State.wf_portEvent ht)

theorem State.wf_setPstep {s : State} {p : PortSel} {v : Nat} (h : s.Wf) : (s.setPstep p v).Wf := by
  unfold State.setPstep
  split
  · exact State.wf_setFl h
  · exact State.wf_mapLink h

theorem State.wf_setPfailed {s : State} {p : PortSel} {v : Nat} (h : s.Wf) : (s.setPfailed p v).Wf := by
  unfold State.setPfailed
  split
  · exact State.wf_setFl h
  · exact State.wf_mapLink h

theorem State.wf_portCount {s : State} {p : PortSel} {f : Nat → Fld} {n : Nat} (h : s.Wf) :
    (s.portCount p f n).Wf := by
  unfold State.portCount
  split
  · exact State.wf_count h
  · exact h

theorem wf_segDrop {ing egr : Nat} {g : Segment} {s : State} (h : s.Wf) : PairWf (segDrop ing egr g s) :=
  wf_foldl (p := PairWf) (fun _ _ ht => wf_ite ht (wf_dropCell ht)) h

theorem wf_ferryOut {n : Nat} {g : Segment} {s : State} (h : s.Wf) : (ferryOut n g s).Wf :=
  wf_ite (wf_segDrop h) (State.wf_mapQd (State.wf_tel (wf_segDrop h)) (fun _ => rfl))

theorem wf_ferryArrive {n : Fin 160} {g : Segment} {s : State} (h : s.Wf) : (ferryArrive n g s).Wf := by
  unfold ferryArrive
  refine wf_ite (State.wf_event h) ?_
  refine wf_ite (wf_segDrop (wf_foldl (fun _ _ ht => wf_takeCredit ht) h)) ?_
  exact wf_emit (State.wf_tel (State.wf_tel (wf_segDrop (wf_foldl (fun _ _ ht => wf_takeCredit ht) h))))

theorem wf_portRoute {p : PortSel} {from_ : Nat → Bool} {st : Nat} {s : State} (h : s.Wf) :
    (portRoute p from_ st s).Wf := by
  unfold portRoute
  split
  · exact h
  · split
    · exact wf_ite (wf_ite (State.wf_mapSw h) h) (wf_ite (State.wf_setRouteState h) h)
    · exact wf_ite (State.wf_setRouteState h) h

theorem wf_keepMirrored {on : Bool} {which : ReplayEnt → Bool} {s : State} (h : s.Wf) :
    (keepMirrored on which s).Wf :=
  State.wf_mapNode h

theorem wf_plinkNow {s : State} (h : s.Wf) : (plinkNow s).Wf :=
  wf_ite (State.wf_setFl h) (wf_keepMirrored (State.wf_setFl h))

theorem wf_portDown {p : PortSel} {s : State} (h : s.Wf) : (portDown p s).Wf := by
  have hend : ∀ (f : Nat) (t : State), t.Wf →
      (if pairsFailed f then (t.setPfailed p 0).mapLink p (fun l => { l with narrow := false }) else t).Wf :=
    fun f t ht => wf_ite (State.wf_mapLink (State.wf_setPfailed ht)) ht
  have hlast : ∀ t : State, t.Wf → (if portNo p / 2 = 72 then plinkNow t else t).Wf :=
    fun t ht => wf_ite (wf_plinkNow ht) ht
  unfold portDown
  refine hlast _ (hend _ _ (State.wf_setPstep (State.wf_setPst (wf_portRoute ?_))))
  have hcount : (s.portCount p F.LN_ERR10_DOWN).Wf := State.wf_portCount h
  cases p with
  | qd n => exact State.wf_mapSw (State.wf_mapLink (wf_flushPort hcount))
  | sv n => exact State.wf_mapLink (State.wf_mapNode (State.wf_mapSv hcount fun _ => rfl))

theorem wf_portComesUp {p : PortSel} {s : State} (h : s.Wf) : (portComesUp p s).Wf := by
  unfold portComesUp
  extract_lets _ _ _ _ s1 _ s3
  have h1 : State.Wf s1 := by
    unfold s1
    split
    · exact wf_ite (State.wf_mapLink h) (wf_foldl (fun _ _ h2 => State.wf_mapSw h2) (State.wf_mapLink h))
    · exact State.wf_mapLink h
  have h3 : State.Wf s3 := State.wf_setPstep (State.wf_setPst (wf_ite (wf_portRoute h1) h1))
  exact wf_ite (wf_plinkNow h3) h3

theorem wf_startRetrain {p : PortSel} {s : State} (h : s.Wf) : (startRetrain p s).Wf :=
  State.wf_setPstep (State.wf_setPst (State.wf_mapLink (State.wf_portCount h)))

theorem wf_sendFlit {p : PortSel} {seq : BitVec 12} {ctrl : Bool} {fields : Word} {slots : List Byte}
    {again : Bool} {s : State} (h : s.Wf) : (sendFlit p seq ctrl fields slots again s).Wf := by
  unfold sendFlit
  refine State.wf_mapLink ?_
  split
  · refine wf_ite (State.wf_count (wf_ite (State.wf_count (wf_emit h)) (wf_emit h))) ?_
    exact State.wf_tel (wf_ite (State.wf_count (wf_emit h)) (wf_emit h))
  · exact wf_emit h

theorem wf_takePacket {p : PortSel} {s : State} (h : s.Wf) : OptWf PairWf (takePacket p s) := by
  unfold takePacket
  dsimp only
  split
  · exact optWf_none
  · split
    · exact optWf_none
    · refine optWf_some ?_
      refine wf_pair ?_
      refine State.wf_mapLink ?_
      split
      · exact State.wf_tel (State.wf_mapSw h)
      · exact State.wf_mapLink h

theorem wf_takeItem {p : PortSel} {s : State} (h : s.Wf) : OptWf (fun x => x.2.2.Wf) (takeItem p s) := by
  unfold takeItem
  refine wf_ite ?_ (optWf_map (wf_takePacket h) fun _ hx => hx)
  split
  · exact optWf_none
  · refine wf_ite (optWf_some ?_) optWf_none
    dsimp only
    split
    · exact State.wf_tel (State.wf_mapLink h)
    · exact State.wf_mapLink h

theorem wf_fillSlots {p : PortSel} {fuel i : Nat} {m : Word} {b : List Byte} {ps : List Packet} {s : State}
    (h : s.Wf) : (fillSlots p fuel i m b ps s).2.2.2.Wf := by
  induction fuel generalizing i m b ps s with
  | zero => exact h
  | succ fuel ih =>
    unfold fillSlots
    refine wf_ite (p := fun x : Word × List Byte × List Packet × State => x.2.2.2.Wf) h ?_
    dsimp only
    split
    · exact ih (State.wf_mapLink h)
    · refine wf_ite (p := fun x : Word × List Byte × List Packet × State => x.2.2.2.Wf) h ?_
      split
      · exact h
      · next e => exact ih (State.wf_mapLink (wf_takeItem h _ e))

theorem wf_pmEnter {p : PortSel} {s : State} (h : s.Wf) : (pmEnter p s).Wf :=
  wf_ite h (wf_emit (State.wf_setPst (State.wf_mapLink h)))

theorem wf_sendControl {p : PortSel} {s : State} (h : s.Wf) : (sendControl p s).Wf :=
  wf_pmEnter (wf_sendFlit (State.wf_mapLink h))

theorem wf_sendData {p : PortSel} {s : State} (h : s.Wf) : (sendData p s).Wf := by
  unfold sendData
  dsimp only
  split
  · split
    · exact State.wf_mapLink h
    · exact wf_ite (wf_startRetrain (State.wf_mapLink h)) (wf_sendFlit (State.wf_mapLink h))
  · refine wf_ite (wf_sendFlit h) ?_
    exact wf_ite (wf_sendFlit (wf_fillSlots h)) (wf_sendFlit (State.wf_mapLink (wf_fillSlots h)))

theorem wf_execFlitSend {p : PortSel} {s : State} (h : s.Wf) : ResWf (execFlitSend p s) := by
  unfold execFlitSend
  refine resWf_next ?_
  refine wf_ite h ?_
  refine wf_ite (wf_ite (wf_sendControl h) (wf_sendData h)) ?_
  exact wf_ite (wf_ite (wf_sendControl h) (wf_ite (wf_sendFlit h) h)) h

theorem wf_fecCount {p : PortSel} {r : Option (List Byte × List Nat)} {s : State} (h : s.Wf) :
    (fecCount p r s).Wf := by
  unfold fecCount
  split
  · exact h
  · split
    · exact State.wf_count h
    · exact h
    · exact wf_foldl (fun _ _ ht => State.wf_count ht) (State.wf_count h)

theorem wf_blockLock {p : PortSel} {r : Option (List Byte × List Nat)} {s : State} (h : s.Wf) :
    (blockLock p r s).Wf := by
  unfold blockLock
  refine wf_ite (State.wf_mapLink h) ?_
  exact wf_ite (wf_startRetrain (State.wf_mapLink (State.wf_mapLink h))) (State.wf_mapLink h)

theorem wf_askRetry {p : PortSel} {s : State} (h : s.Wf) : (askRetry p s).Wf :=
  State.wf_mapLink h

theorem wf_deliver {p : PortSel} {bs : List Byte} {s : State} (h : s.Wf) : (deliver p bs s).Wf := by
  unfold deliver
  split
  · exact wf_ite (wf_ferryArrive h) (wf_emit (wf_ite (State.wf_mapLink h) h))
  · exact wf_emit (State.wf_mapLink h)

theorem wf_takeSlot {p : PortSel} {hdr : Bool} {slot : List Byte} {s : State} (h : s.Wf) :
    (takeSlot p hdr slot s).Wf :=
  wf_ite h (wf_ite (wf_deliver (State.wf_mapLink h)) (State.wf_mapLink h))

theorem wf_takeCredits {p : PortSel} {w : Word} {s : State} (h : s.Wf) : OptWf State.Wf (takeCredits p w s) :=
  wf_ite (optWf_some (State.wf_mapLink h)) optWf_none

theorem wf_rxData {p : PortSel} {w : Word} {slots : List Byte} {s : State} (h : s.Wf) :
    (rxData p w slots s).Wf := by
  unfold rxData
  refine wf_ite h ?_
  refine wf_ite ?_ (wf_ite (wf_askRetry h) h)
  dsimp only
  split
  · exact wf_portDown (State.wf_mapLink h)
  next e =>
    exact wf_foldl (fun _ _ ht => wf_takeSlot ht) (wf_of_some (wf_takeCredits (State.wf_mapLink h)) e)

theorem wf_rxFlit {p : PortSel} {f : List Byte} {s : State} (h : s.Wf) : (rxFlit p f s).Wf := by
  unfold rxFlit
  extract_lets _ _ s1
  have h1 : State.Wf s1 := by
    unfold s1
    split
    · exact State.wf_tel h
    · exact h
  refine wf_ite (wf_portDown h1) ?_
  refine wf_ite ?_ (wf_ite (wf_rxData (wf_ite (State.wf_mapLink h1) h1)) (wf_ite (State.wf_mapLink h1) h1))
  refine wf_ite ?_ (wf_foldl (fun _ _ h2 => wf_ite h2 (wf_emit h2)) (wf_ite (State.wf_mapLink h1) h1))
  exact wf_askRetry (wf_foldl (fun _ _ h2 => wf_ite h2 (wf_emit h2)) (wf_ite (State.wf_mapLink h1) h1))

theorem wf_execFlitReceive {p : PortSel} {u : RxUnit} {s : State} (h : s.Wf) : ResWf (execFlitReceive p u s) := by
  unfold execFlitReceive
  refine resWf_next (wf_ite h (wf_ite h ?_))
  dsimp only
  split
  · exact wf_ite (wf_askRetry (wf_blockLock (wf_fecCount h))) (wf_blockLock (wf_fecCount h))
  · refine wf_ite (wf_rxFlit (wf_blockLock (wf_fecCount h))) ?_
    exact wf_ite (wf_askRetry (wf_blockLock (wf_fecCount h))) (wf_blockLock (wf_fecCount h))

theorem wf_startExit {p : PortSel} {s : State} (h : s.Wf) : (startExit p s).Wf := by
  unfold startExit
  refine State.wf_setPstep ?_
  exact State.wf_setPst (wf_ite (State.wf_mapLink h) (State.wf_setPfailed (State.wf_mapLink h)))

theorem wf_execSignalEnergyDetect {p : PortSel} {lanes : BitVec 4} {s : State} (h : s.Wf) :
    ResWf (execSignalEnergyDetect p lanes s) := by
  unfold execSignalEnergyDetect
  refine resWf_next ?_
  exact wf_ite h (wf_ite (wf_startExit h) (wf_ite (State.wf_setPstep (State.wf_setPst (State.wf_mapLink h))) h))

theorem wf_execTrainingStepFail {p : PortSel} {lanes : BitVec 4} {s : State} (h : s.Wf) :
    ResWf (execTrainingStepFail p lanes s) := by
  unfold execTrainingStepFail
  refine resWf_next ?_
  refine wf_ite h ?_
  refine wf_ite (wf_ite (wf_portDown (State.wf_setPfailed h)) (State.wf_setPst (State.wf_setPfailed h))) ?_
  exact State.wf_mapLink (State.wf_setPfailed h)

theorem wf_execIdent {p : PortSel} {node : BitVec 16} {plane port role : Byte} {s : State} (h : s.Wf) :
    ResWf (execIdent p node plane port role s) := by
  unfold execIdent
  refine resWf_next (wf_ite h ?_)
  cases p with
  | qd n =>
    have hfar := State.wf_setFl (f := F.LN_PORT_STS_FAR_PORT n) (v := port.toNat)
      (State.wf_setFl (f := F.LN_PORT_STS_FAR_NODE n) (v := node.toNat) h)
    exact wf_ite (State.wf_mapLink hfar) (wf_ite (wf_portDown hfar) (State.wf_setPst (State.wf_portEvent hfar)))
  | sv n =>
    exact wf_ite (State.wf_mapLink (State.wf_setSrf h))
      (wf_ite (wf_portDown h) (State.wf_setPst (State.wf_portEvent h)))

theorem wf_execLaneFail {p : PortSel} {lanes : BitVec 4} {s : State} (h : s.Wf) :
    ResWf (execLaneFail p lanes s) := by
  unfold execLaneFail
  refine resWf_next ?_
  refine wf_ite h ?_
  extract_lets _ _ _ s1
  have h1 : State.Wf s1 := wf_foldl (fun _ _ h2 => wf_ite (State.wf_portEvent h2) h2) (State.wf_setPfailed h)
  refine wf_ite (wf_portDown h1) ?_
  exact wf_ite h1 (wf_startRetrain (State.wf_mapLink (wf_ite h1 (State.wf_portCount h1))))

theorem wf_portReset {p : PortSel} {s : State} (h : s.Wf) : (portReset p s).Wf :=
  State.wf_mapLink (State.wf_setPfailed (State.wf_setPstep (State.wf_setPst (wf_ite (wf_portDown h) h))))

theorem wf_pmAsk {p : PortSel} {st : Byte} {s : State} (h : s.Wf) : (pmAsk p st s).Wf :=
  wf_ite (State.wf_mapLink h) h

theorem State.wf_setReq {s : State} {p : PortSel} {bit : Nat} (h : s.Wf) : (s.setReq p bit).Wf := by
  unfold State.setReq
  split
  · exact State.wf_setFl h
  · exact State.wf_setSrf h

theorem wf_execLqAutoTimeout {p : PortSel} {s : State} (h : s.Wf) : ResWf (execLqAutoTimeout p s) := by
  unfold execLqAutoTimeout
  refine resWf_next ?_
  split
  · exact wf_ite (wf_pmAsk h) h
  · exact h

theorem wf_holdForTest {n : Fin 160} {s : State} (h : s.Wf) : (holdForTest n s).Wf := by
  unfold holdForTest
  refine State.wf_setPstep ?_
  exact State.wf_setPst (State.wf_mapLink (wf_ite (wf_portDown (State.wf_setFl h)) (State.wf_setFl h)))

theorem wf_execTest {p : PortSel} {pat : Byte} {errs : BitVec 32} {s : State} (h : s.Wf) :
    ResWf (execTest p pat errs s) := by
  unfold execTest
  refine resWf_next ?_
  refine wf_ite h ?_
  split
  · exact State.wf_mapLink (wf_draw h)
  · exact wf_ite (State.wf_mapLink h) h

/-! ### The operations of Machine/Svapo -/

theorem State.wf_mapEq {s : State} {q : Nat} {f : EngQ → EngQ} (h : s.Wf) : (s.mapEq q f).Wf :=
  State.wf_mapSv h (fun _ => rfl)

theorem wf_rso {r : Rqo} {st : BitVec 7} {woff : BitVec 50} {data : List Byte} {s : State} (h : s.Wf) :
    (rso r st woff data s).Wf :=
  wf_emit h

theorem wf_setSticky {q : Nat} {st : BitVec 7} {woff : BitVec 50} {s : State} (h : s.Wf) :
    (setSticky q st woff s).Wf :=
  State.wf_mapEq h

theorem wf_srcFail {r : Rqo} {st : BitVec 7} {woff : BitVec 50} {s : State} (h : s.Wf) :
    (srcFail r st woff s).Wf :=
  wf_ite (wf_setSticky h) (wf_rso h)

theorem wf_svSendAll {plane : Nat} {ps : List Packet} {s : State} (h : s.Wf) : (svSendAll plane ps s).Wf :=
  wf_foldl (fun _ _ ht => wf_ite (wf_emit ht) (wf_svTx ht)) h

theorem wf_useTag {d : Side} {q tag : Nat} {s : State} (h : s.Wf) : PairWf (useTag d q tag s) :=
  wf_pair (State.wf_mapSrcs h)

theorem State.wf_freeTag {s : State} {q : Nat} (h : s.Wf) : OptWf PairWf (s.freeTag q) := by
  unfold State.freeTag
  dsimp only
  split
  · exact optWf_none
  · exact optWf_some (wf_pair (wf_pickMany h))

theorem wf_noteDest {q : Nat} {dst : BitVec 14} {cls : BitVec 2} {plane : Nat} {s : State} (h : s.Wf) :
    (noteDest q dst cls plane s).Wf :=
  State.wf_mapEq h

theorem wf_issueReq {r : Rqo} {x : Prep} {plane : Nat → Nat} {s : State} (h : s.Wf) :
    OptWf State.Wf (issueReq r x plane s) := by
  unfold issueReq
  refine wf_ite (optWf_some (wf_svSendAll (State.wf_mapEq (wf_noteDest (State.wf_mapEq h))))) ?_
  split
  · exact optWf_none
  next e =>
    refine wf_ite ?_ ?_
    · refine optWf_some ?_
      refine State.wf_mapSrcs ?_
      exact State.wf_mapEq (wf_useTag (State.wf_mapEq (wf_of_some_pair (State.wf_freeTag h) e)))
    · refine optWf_some ?_
      refine wf_foldl (fun _ _ ht => wf_svSendAll ht) ?_
      refine State.wf_mapSrcs ?_
      exact State.wf_mapEq (wf_useTag (State.wf_mapEq (wf_of_some_pair (State.wf_freeTag h) e)))

theorem wf_fenceDone {q : Nat} {f : FenceRun} {s : State} (h : s.Wf) : (fenceDone q f s).Wf := by
  unfold fenceDone
  refine State.wf_mapEq ?_
  split
  · exact wf_ite (wf_rso (State.wf_mapEq h)) (wf_rso h)
  · exact wf_ite (wf_setSticky h) h

theorem wf_fenceStep {q : Nat} {s : State} (h : s.Wf) : (fenceStep q s).Wf := by
  unfold fenceStep
  split
  · exact h
  · refine wf_ite h ?_
    refine wf_ite h ?_
    refine wf_ite (wf_fenceDone h) ?_
    split
    · exact h
    next e =>
      refine wf_foldl (fun _ _ ht => wf_svSendAll ht) ?_
      exact State.wf_mapSrcs (State.wf_mapEq (wf_useTag (wf_of_some_pair (State.wf_freeTag h) e)))

theorem wf_pumpHead {q : Nat} {s : State} (h : s.Wf) : (pumpHead q s).Wf := by
  unfold pumpHead
  dsimp only
  split
  · exact wf_stop h
  · refine wf_ite (wf_stop h) ?_
    refine wf_ite ?_ ?_
    · refine wf_ite (wf_again (wf_rso (State.wf_mapEq h))) ?_
      exact wf_again (wf_fenceStep (State.wf_mapEq (State.wf_mapEq h)))
    · split
      · exact wf_again (wf_srcFail (State.wf_mapEq h))
      · refine wf_ite (wf_again (wf_fenceStep (State.wf_mapEq h))) ?_
        split
        · exact wf_stop h
        · exact wf_again (wf_srcFail (State.wf_mapEq h))
        · refine wf_ite (wf_stop (State.wf_mapSv h (fun _ => rfl))) ?_
          split
          · exact wf_stop h
          next e =>
            refine wf_again ?_
            refine wf_ite (State.wf_mapSv (wf_of_some (wf_issueReq (State.wf_mapEq h)) e) (fun _ => rfl)) ?_
            exact wf_of_some (wf_issueReq (State.wf_mapEq h)) e

theorem wf_pump {q fuel : Nat} {s : State} (h : s.Wf) : (pump q fuel s).Wf := by
  induction fuel generalizing s with
  | zero => exact h
  | succ fuel ih =>
    have hstep : (pumpHead q s).Wf := wf_pumpHead h
    unfold pump
    cases hp : pumpHead q s with
    | stop t => exact (hp ▸ hstep : PumpStep.Wf (.stop t))
    | again t => exact ih (hp ▸ hstep : PumpStep.Wf (.again t))

theorem wf_pumpQ {q : Nat} {s : State} (h : s.Wf) : (pumpQ q s).Wf :=
  wf_pump (wf_fenceStep h)

theorem wf_pumpAll {s : State} (h : s.Wf) : (pumpAll s).Wf :=
  wf_foldl (fun _ _ ht => wf_pumpQ ht) h

theorem wf_execRqoRequest {berth : Fin 16} {r : Rqo} {s : State} (h : s.Wf) :
    ResWf (execRqoRequest berth r s) := by
  unfold execRqoRequest
  refine resWf_next ?_
  refine wf_ite h ?_
  exact wf_ite (wf_emit h) (wf_ite (wf_srcFail h) (wf_ite (wf_srcFail h) (wf_pumpQ (State.wf_mapEq h))))

theorem State.wf_setReqOf {s : State} {d : Side} {o : OutReq} {n : Option OutReq} (h : s.Wf) :
    (s.setReqOf d o n).Wf :=
  State.wf_mapSrcs h

theorem wf_resendPart {o : OutReq} {x : Part} {s : State} (h : s.Wf) : (resendPart o x s).Wf :=
  wf_svSendAll (State.wf_setReqOf h)

theorem wf_endAcquire {q tag : Nat} {s : State} (h : s.Wf) : (endAcquire q tag s).Wf :=
  State.wf_mapEq h

theorem wf_finishReq {o : OutReq} {r : Rqo} {st : BitVec 7} {woff : BitVec 50} {data : List Byte} {s : State}
    (h : s.Wf) : (finishReq o r st woff data s).Wf :=
  wf_pumpQ (wf_rso (wf_endAcquire (State.wf_setReqOf h)))

theorem wf_partAnswered {o : OutReq} {x : Part} {st : BitVec 7} {woff : BitVec 50} {s : State} (h : s.Wf) :
    (partAnswered o x st woff s).Wf := by
  unfold partAnswered
  dsimp only
  split
  · split
    · exact State.wf_setReqOf h
    · exact wf_ite (State.wf_mapEq (State.wf_setReqOf h)) (wf_pumpQ (wf_fenceDone (State.wf_setReqOf h)))
  · exact wf_ite (wf_finishReq h) (wf_ite (State.wf_setReqOf h) (wf_finishReq h))
  · exact State.wf_setReqOf h

theorem wf_engineResponse {o : OutReq} {plane : Option Nat} {p : Packet} {s : State} (h : s.Wf) :
    (engineResponse o plane p s).Wf := by
  unfold engineResponse
  split
  · exact h
  · refine wf_ite (wf_resendPart (State.wf_setReqOf h)) ?_
    refine wf_ite (wf_partAnswered h) ?_
    extract_lets s1
    have ht : State.Wf s1 := wf_ite (State.wf_mapEq (wf_noteDest h)) h
    split
    · refine wf_ite (wf_ite ht (wf_ite (State.wf_setReqOf (wf_emit ht)) (wf_partAnswered (wf_emit ht)))) ?_
      exact wf_ite (wf_partAnswered ht) (wf_finishReq ht)
    · exact wf_partAnswered ht

theorem wf_limMark {p : Packet} {s : State} (h : s.Wf) : (limMark p s).Wf :=
  wf_ite (State.wf_mapSv h (fun _ => rfl)) h

theorem wf_svResponse {v : Via} {p : Packet} {s : State} (h : s.Wf) : (svResponse v p s).Wf := by
  unfold svResponse
  refine wf_ite (wf_pktEvent h) ?_
  refine wf_ite h ?_
  dsimp only
  split
  · exact wf_limMark h
  · split
    · exact wf_engineResponse (wf_limMark h)
    · exact wf_engineResponse (wf_limMark h)
    · exact State.wf_setReqOf (wf_limMark h)
    · exact wf_limMark h

theorem wf_svNotice {v : Via} {p : Packet} {s : State} (h : s.Wf) : (svNotice v p s).Wf :=
  wf_ite (wf_pktEvent h) (wf_ite h (wf_setSticky (wf_limMark h)))

theorem wf_timeoutPart {o : OutReq} {i : Nat} {s : State} (h : s.Wf) : (timeoutPart o i s).Wf := by
  unfold timeoutPart
  split
  · exact h
  · split
    · exact h
    · exact wf_ite (wf_resendPart (State.wf_setReqOf h)) (wf_partAnswered h)

theorem wf_svTimeout {que tag : Nat} {s : State} (h : s.Wf) : (svTimeout que tag s).Wf := by
  unfold svTimeout
  split
  · exact h
  · split
    · exact wf_foldl (fun _ _ h1 => wf_timeoutPart h1) h
    · exact wf_foldl (fun _ _ h2 => wf_timeoutPart h2) h
    · exact State.wf_setReqOf h
    · exact h

theorem wf_limEvent {k old new rmin : Nat} {s : State} (h : s.Wf) : (limEvent k old new rmin s).Wf :=
  wf_ite (State.wf_svEvent h) h

theorem wf_execLimiterPeriod {s : State} (h : s.Wf) : ResWf (execLimiterPeriod s) := by
  unfold execLimiterPeriod
  refine resWf_next ?_
  exact wf_ite h (wf_pumpAll (wf_foldl (fun _ _ ht => wf_limEvent ht) (State.wf_mapSv h (fun _ => rfl))))

theorem wf_svRelease {pl : Nat} {s : State} (h : s.Wf) : (svRelease pl s).Wf :=
  wf_foldl (fun _ _ ht => wf_svTx ht) (State.wf_mapSv h (fun _ => rfl))

theorem State.wf_setMap {s : State} {reg : Nat → Nat} {l : List Nat} (h : s.Wf) : (s.setMap reg l).Wf :=
  wf_foldl (fun _ _ ht => State.wf_setSr ht) h

theorem wf_liveNotices {s : State} (h : s.Wf) : (liveNotices s).Wf :=
  wf_foldl (fun _ _ ht => wf_svTx (State.wf_mapSrcs (wf_useTag ht))) h

theorem wf_movePlane {d : Nat} {s : State} (h : s.Wf) : (movePlane d s).Wf := by
  unfold movePlane
  refine wf_foldl (fun _ _ h1 => ?_) ?_
  · dsimp only
    split
    · exact wf_svTx h1
    · split
      · exact wf_svTx h1
      · exact wf_ite h1 (wf_setSticky h1)
  · refine wf_foldl (fun _ _ h2 => ?_) (State.wf_mapSv h (fun _ => rfl))
    refine wf_foldl (fun _ _ h3 => ?_) h2
    refine wf_ite h3 ?_
    split
    · split
      · exact wf_ite (State.wf_setReqOf h3) (wf_resendPart (State.wf_setReqOf h3))
      · split
        · exact wf_partAnswered h3
        · exact wf_partAnswered h3
        · exact State.wf_setReqOf h3
    · exact h3

theorem wf_svLiveWrite {p : Nat} {v : Word} {s : State} (h : s.Wf) : (svLiveWrite p v s).Wf := by
  unfold svLiveWrite
  extract_lets old new gone come s1 s2 live s3 s4
  have h2 : s2.Wf := State.wf_mapSv (State.wf_setSr h) fun _ => rfl
  clear_value gone s2
  have h3 : s3.Wf := wf_foldl (fun _ _ ht => State.wf_setMap (State.wf_setMap ht)) h2
  have h4 : s4.Wf := wf_foldl (fun _ _ ht => wf_movePlane (State.wf_mapNode
    (wf_foldl (fun _ _ hu => wf_ite (wf_setSticky (State.wf_mapEq hu)) hu) ht))) h3
  exact wf_pumpAll (wf_ite h4 (wf_liveNotices h4))

theorem wf_execMapRestore {s : State} (h : s.Wf) : ResWf (execMapRestore s) := by
  unfold execMapRestore
  refine resWf_next ?_
  refine wf_ite h ?_
  refine wf_ite (wf_foldl (fun _ _ ht => wf_fenceStep (State.wf_mapEq ht)) h) ?_
  exact wf_pumpAll (wf_liveNotices (State.wf_mapSv (State.wf_setMap (State.wf_setMap h)) (fun _ => rfl)))

/-! ### The operations of Machine/Units -/

theorem wf_unitIssue {w : TagWait} {s : State} (h : s.Wf) : (unitIssue w s).Wf :=
  wf_emits (State.wf_mapSrcs (wf_useTag (wf_pickMany h)))

theorem wf_unitReq {w : TagWait} {s : State} (h : s.Wf) : (unitReq w s).Wf :=
  wf_ite (wf_unitIssue h) (State.wf_mapSrcs h)

theorem wf_unitPump {que : Nat} {s : State} (h : s.Wf) : (unitPump que s).Wf := by
  unfold unitPump
  split
  · exact h
  · split
    · exact h
    · exact wf_ite (wf_unitIssue (State.wf_mapSrcs h)) h

theorem wf_unitResend {o : OutReq} {x : Part} {s : State} (h : s.Wf) : (unitResend o x s).Wf :=
  wf_emits (State.wf_setReqOf h)

theorem wf_unitPartDone {done : OutReq → State → State} {o : OutReq} {x : Part} {st : BitVec 7}
    {woff : BitVec 50} {d : List (Nat × List Byte)} {s : State} (hdone : ∀ z0 z1, z1.Wf → (done z0 z1).Wf)
    (h : s.Wf) : (unitPartDone done o x st woff d s).Wf :=
  wf_ite (State.wf_setReqOf h) (hdone _ _ (wf_unitPump (State.wf_setReqOf h)))

theorem wf_unitResponse {done : OutReq → State → State} {o : OutReq} {p : Packet} {s : State}
    (hdone : ∀ z0 z1, z1.Wf → (done z0 z1).Wf) (h : s.Wf) : (unitResponse done o p s).Wf := by
  unfold unitResponse
  split
  · exact h
  · refine wf_ite (wf_unitResend (State.wf_setReqOf h)) ?_
    refine wf_ite (wf_unitPartDone (fun _ _ h1 => hdone _ _ h1) h) ?_
    refine wf_ite ?_ (wf_unitPartDone (fun _ _ h2 => hdone _ _ h2) h)
    exact wf_ite h (wf_ite (State.wf_setReqOf h) (wf_unitPartDone (fun _ _ h3 => hdone _ _ h3) h))

theorem wf_unitTimeout {done : OutReq → State → State} {o : OutReq} {s : State}
    (hdone : ∀ z0 z1, z1.Wf → (done z0 z1).Wf) (h : s.Wf) : (unitTimeout done o s).Wf := by
  unfold unitTimeout
  refine wf_foldl (fun _ _ h1 => ?_) h
  split
  · exact h1
  · exact wf_ite (wf_unitResend (State.wf_setReqOf h1)) (wf_unitPartDone (fun _ _ h2 => hdone _ _ h2) h1)

theorem State.wf_syncEnd {s : State} {w : SyncWait} (h : s.Wf) : (s.syncEnd w).Wf :=
  wf_ite (State.wf_toRegion h) h

/-! ### The operations of Machine/Directory -/

theorem wf_hamWrite {h w : Nat} {v : Word} {ans : BitVec 7 → List Out} {s : State} (hs : s.Wf) :
    (hamWrite h w v ans s).Wf :=
  wf_ite (wf_emits hs) (wf_ite (wf_emits (State.wf_refused hs)) (wf_emits (State.wf_setRg hs)))

theorem wf_cohWinWrite {i : Nat} {v : Word} {ans : BitVec 7 → List Out} {s : State} (h : s.Wf) :
    (cohWinWrite i v ans s).Wf :=
  wf_ite (wf_emits (State.wf_refused h)) (wf_emits (State.wf_setRg h))

theorem State.wf_setDent {s : State} {k : Nat} {e : DirEnt} (h : s.Wf) : (s.setDent k e).Wf :=
  State.wf_mapDir h

theorem State.wf_mapDent {s : State} {l : BitVec 57} {f : DirEnt → DirEnt} (h : s.Wf) : (s.mapDent l f).Wf := by
  unfold State.mapDent
  split
  · exact State.wf_setDent h
  · exact h

theorem wf_lwbRecord {l : BitVec 57} {e : DirEnt} {slot reason : Nat} {s : State} (h : s.Wf) :
    (lwbRecord l e slot reason s).Wf :=
  wf_ite (State.wf_count h) (State.wf_setFl (State.wf_mapDir h))

theorem State.wf_putTxn {s : State} {t : DirTxn} (h : s.Wf) : (s.putTxn t).Wf :=
  State.wf_mapDent (State.wf_mapDir h)

theorem State.wf_txnStart {s : State} {l : BitVec 57} {kind : BitVec 4} {cw : Word} {f : DirTxn → DirTxn}
    (h : s.Wf) : OptWf PairWf (s.txnStart l kind cw f) :=
  wf_ite optWf_none (optWf_some (wf_pair (State.wf_mapDent (State.wf_mapDir (wf_pickMany h)))))

theorem wf_sendSnoops {t : DirTxn} {s : State} (h : s.Wf) : (sendSnoops t s).Wf :=
  wf_emits h

theorem wf_cnack {v : Via} {p : Packet} {reason : Nat} {s : State} (h : s.Wf) : (cnack v p reason s).Wf :=
  wf_reply h

theorem wf_cack {v : Via} {p : Packet} {kind : Nat} {s : State} (h : s.Wf) : (cack v p kind s).Wf :=
  wf_reply h

theorem wf_dirFail {v : Via} {p : Packet} {st : BitVec 7} {s : State} (h : s.Wf) : (dirFail v p st s).Wf :=
  wf_reply h

theorem wf_nackBusy {v : Via} {p : Packet} {r : Option Nat} {s : State} (h : s.Wf) : (nackBusy v p r s).Wf := by
  unfold nackBusy
  refine wf_cnack ?_
  split
  · exact State.wf_mapDent h
  · exact h

theorem wf_serveTxn {v : Via} {p : Packet} {cw : Word} {kind : BitVec 4} {snpOpc snpAux : Nat} {snoops : List Nat}
    {mem : Bool} {grant : Nat} {upok : Bool} {s : State} (h : s.Wf) :
    (serveTxn v p cw kind snpOpc snpAux snoops mem grant upok s).Wf := by
  unfold serveTxn
  split
  · exact wf_cnack h
  next e =>
    refine wf_ite (wf_emit (wf_sendSnoops (wf_of_some_pair (State.wf_txnStart h) e))) ?_
    exact wf_sendSnoops (wf_of_some_pair (State.wf_txnStart h) e)

theorem wf_evictEntry {k : Nat} {cw : Word} {kind : BitVec 4} {req : Option (Via × Packet)} {s : State}
    (h : s.Wf) : OptWf State.Wf (evictEntry k cw kind req s) := by
  unfold evictEntry
  dsimp only
  split
  · exact optWf_none
  next e =>
    exact optWf_some (wf_sendSnoops (wf_of_some_pair (State.wf_txnStart h) e))

theorem wf_serveGet {v : Via} {p : Packet} {cw : Word} {r : Option Nat} {s : State} (h : s.Wf) :
    (serveGet v p cw r s).Wf := by
  unfold serveGet
  refine wf_ite (wf_ite (wf_cack (State.wf_mapDent h)) (wf_serveTxn h)) ?_
  refine wf_ite (wf_ite (wf_cack (State.wf_mapDent h)) (wf_serveTxn h)) ?_
  refine wf_ite (wf_cack (State.wf_event h)) ?_
  refine wf_ite (wf_serveTxn (wf_ite (State.wf_mapDent h) h)) ?_
  refine wf_ite ?_ ?_
  · exact wf_ite (wf_serveTxn (wf_ite (State.wf_mapDent h) h)) (wf_serveTxn (wf_ite (State.wf_mapDent h) h))
  · refine wf_ite (wf_serveTxn (wf_ite (State.wf_mapDent h) h)) ?_
    exact wf_ite (wf_serveTxn (wf_ite (State.wf_mapDent h) h)) (wf_serveTxn (wf_ite (State.wf_mapDent h) h))

theorem wf_serve {v : Via} {p : Packet} {cw : Word} {r : Option Nat} {s : State} (h : s.Wf) :
    (serve v p cw r s).Wf := by
  unfold serve
  refine wf_ite ?_ ?_
  · dsimp only
    split
    · exact wf_cnack (State.wf_mapDir (State.wf_mapDent h))
    next e1 =>
      exact wf_sendSnoops (wf_of_some_pair (State.wf_txnStart (State.wf_mapDir (State.wf_mapDent h))) e1)
  · refine wf_ite ?_ ?_
    · refine wf_ite ?_ (wf_cack (State.wf_mapDent (State.wf_mapDir (State.wf_mapDent h))))
      dsimp only
      split
      · exact wf_cnack (State.wf_mapDent (State.wf_mapDir (State.wf_mapDent h)))
      next e2 =>
        refine wf_emit ?_
        exact wf_of_some_pair (State.wf_txnStart (State.wf_mapDent (State.wf_mapDir (State.wf_mapDent h)))) e2
    · refine wf_ite ?_ ?_
      · refine wf_ite ?_ (wf_cack (State.wf_mapDent (State.wf_mapDir (State.wf_mapDent h))))
        exact wf_cack (State.wf_mapDent (State.wf_mapDent (State.wf_mapDir (State.wf_mapDent h))))
      · refine wf_ite (wf_serveGet (State.wf_mapDent (State.wf_mapDir (State.wf_mapDent h)))) ?_
        dsimp only
        split
        · exact wf_serveGet (State.wf_mapDent (State.wf_mapDir (State.wf_mapDent h)))
        · exact wf_serveGet (State.wf_setDent (State.wf_mapDent (State.wf_mapDir (State.wf_mapDent h))))
        · exact wf_cnack (State.wf_mapDent (State.wf_mapDir (State.wf_mapDent h)))
        · split
          · exact wf_serveGet (State.wf_setDent (State.wf_mapDent (State.wf_mapDir (State.wf_mapDent h))))
          · refine wf_ite ?_ ?_
            · exact wf_serveGet (State.wf_setDent (State.wf_mapDent (State.wf_mapDir (State.wf_mapDent h))))
            · split
              · exact wf_cnack (State.wf_mapDent (State.wf_mapDir (State.wf_mapDent h)))
              next e3 =>
                exact wf_of_some (wf_evictEntry (State.wf_mapDent (State.wf_mapDir (State.wf_mapDent h)))) e3

theorem wf_cohWalk {s : State} (h : s.Wf) : (cohWalk s).Wf := by
  unfold cohWalk
  split
  · exact h
  · refine wf_ite h ?_
    refine wf_foldl (fun _ _ ht => ?_) h
    refine wf_ite ht ?_
    refine wf_ite ?_ ?_
    · refine wf_ite (State.wf_count (State.wf_setDent ht)) ?_
      split
      · exact ht
      next e1 =>
        exact State.wf_count (wf_of_some (wf_evictEntry ht) e1)
    · refine wf_ite ?_ (State.wf_count (State.wf_setDent ht))
      split
      · exact ht
      next e2 =>
        exact State.wf_count (wf_sendSnoops (wf_of_some_pair (State.wf_txnStart ht) e2))

theorem wf_cohCmd {op : Nat} {v : Word} {ans : BitVec 7 → List Out} {s : State} (h : s.Wf) :
    (cohCmd op v ans s).Wf := by
  unfold cohCmd
  refine wf_ite (wf_emits (State.wf_refused h)) ?_
  refine wf_ite (wf_emits (State.wf_setFl (State.wf_setFl h))) ?_
  refine wf_emits ?_
  refine wf_cohWalk ?_
  refine State.wf_mapDir ?_
  refine wf_ite (State.wf_setFl (State.wf_setFl (State.wf_setFl h))) ?_
  exact State.wf_setFl (State.wf_setFl (State.wf_setFl (State.wf_setFl h)))

theorem wf_execCohCmdDone {s : State} (h : s.Wf) : ResWf (execCohCmdDone s) := by
  unfold execCohCmdDone
  refine resWf_next ?_
  dsimp only
  split
  · exact wf_cohWalk h
  · refine wf_ite (wf_cohWalk h) ?_
    refine wf_ite (State.wf_setFl (State.wf_setFl (State.wf_mapDir (wf_cohWalk h)))) ?_
    exact State.wf_setFl (State.wf_mapDir (wf_cohWalk h))

theorem wf_finishTxn {t : DirTxn} {s : State} (h : s.Wf) : (finishTxn t s).Wf := by
  unfold finishTxn
  extract_lets s1 m s2 s3 s4
  have h2 : s2.Wf := wf_ite (State.wf_mapDent (State.wf_mapDir h)) (State.wf_mapDent (State.wf_mapDir h))
  have h3 : s3.Wf := wf_ite (State.wf_mapDir h2) h2
  refine wf_cohWalk ?_
  unfold s4
  split
  · refine wf_ite ?_ h3
    split
    · exact wf_dirFail h3
    · exact wf_ite (wf_nackBusy h3) (wf_serve h3)
  · exact h3

theorem wf_tryGrant {t : DirTxn} {s : State} (h : s.Wf) : PairWf (tryGrant t s) := by
  unfold tryGrant
  split
  · exact h
  · refine wf_ite h ?_
    refine wf_ite (wf_pair (wf_cack h)) ?_
    split
    · exact wf_pair (wf_reply h)
    · exact wf_ite h (wf_ite (wf_pair (wf_dirFail h)) (wf_pair (wf_emit h)))

theorem wf_advance {t : DirTxn} {s : State} (h : s.Wf) : (advance t s).Wf :=
  wf_ite (wf_finishTxn (wf_tryGrant h)) (State.wf_putTxn (wf_tryGrant h))

theorem wf_startWb {t : DirTxn} {r : Nat} {d : List Byte} {s : State} (h : s.Wf) : PairWf (startWb t r d s) :=
  wf_pair (wf_emit h)

theorem wf_dirRequest {opc : Nat} {v : Via} {p : Packet} {s : State} (h : s.Wf) : (dirRequest opc v p s).Wf := by
  unfold dirRequest
  refine wf_ite h ?_
  generalize rxForm [p] = form
  generalize dirCheck s v p = check
  cases form with
  | some st => exact wf_dirFail (wf_ite h (wf_pktEvent h))
  | none =>
    cases check with
    | error st => exact wf_dirFail h
    | ok x =>
      obtain ⟨i, w, r⟩ := x
      refine wf_ite (wf_cnack h) (wf_ite (wf_nackBusy h) ?_)
      split
      · exact wf_ite h (wf_ite (wf_advance (wf_startWb h)) (wf_ite (wf_advance (wf_cack h)) (wf_nackBusy h)))
      · refine wf_ite (wf_ite ?_ (wf_ite (wf_nackBusy h) (wf_cnack h))) ?_
        · split
          · exact wf_cnack h
          · next e => exact wf_emit (wf_of_some_pair (State.wf_txnStart h) e)
        · exact wf_ite (wf_ite h (wf_nackBusy h)) (wf_ite (wf_cnack h) (wf_ite (wf_dirFail h) (wf_serve h)))

theorem wf_dirCdata {p : Packet} {s : State} (h : s.Wf) : (dirCdata p s).Wf := by
  unfold dirCdata
  split
  · exact h
  · split
    · exact h
    · refine wf_ite (wf_advance h) ?_
      refine wf_ite h ?_
      refine wf_ite (wf_advance h) ?_
      refine wf_ite (wf_ite (State.wf_putTxn (wf_emit h)) (wf_advance h)) ?_
      exact wf_ite (wf_advance (wf_startWb h)) (wf_advance h)

theorem wf_dirCack {p : Packet} {s : State} (h : s.Wf) : (dirCack p s).Wf := by
  unfold dirCack
  split
  · exact h
  · split
    · exact h
    · exact wf_ite (wf_ite (wf_advance h) h) (wf_ite (wf_ite (wf_advance h) (wf_ite (wf_advance h) h)) h)

theorem wf_dirMemReply {sl tag : Nat} {st : BitVec 7} {d : List Byte} {s : State} (h : s.Wf) :
    (dirMemReply sl tag st d s).Wf := by
  unfold dirMemReply
  split
  · exact h
  · refine wf_ite h ?_
    refine wf_ite (State.wf_putTxn (wf_emit h)) ?_
    refine wf_ite ?_ (State.wf_putTxn (wf_emit (wf_ite h (wf_lwbRecord h))))
    refine wf_ite (wf_advance h) ?_
    refine wf_advance ?_
    split
    · exact wf_ite h (wf_dirFail h)
    · exact h

theorem wf_dirMemTimeout {sl tag : Nat} {s : State} (h : s.Wf) : (dirMemTimeout sl tag s).Wf := by
  unfold dirMemTimeout
  split
  · exact h
  · refine wf_ite h ?_
    refine wf_ite (State.wf_putTxn (wf_emit h)) ?_
    refine wf_ite ?_ (State.wf_putTxn (wf_emit (wf_lwbRecord h)))
    refine wf_advance ?_
    split
    · exact wf_ite h (wf_dirFail h)
    · exact h

theorem wf_lostInTxn {t : DirTxn} {m reason : Nat} {s : State} (h : s.Wf) : (lostInTxn t m reason s).Wf := by
  unfold lostInTxn
  refine wf_ite (wf_advance h) ?_
  refine wf_ite (wf_advance h) ?_
  exact wf_ite (wf_advance (wf_ite (wf_lwbRecord h) h)) (wf_ite (wf_advance h) (State.wf_putTxn h))

theorem wf_looseInv {l : BitVec 57} {cw : Word} {ms : List Nat} {s : State} (h : s.Wf) :
    (looseInv l cw ms s).Wf := by
  unfold looseInv
  split
  · exact h
  next e =>
    exact State.wf_mapDir (wf_sendSnoops (wf_of_some_pair (State.wf_txnStart h) e))

theorem wf_lostInEntry {k m reason : Nat} {s : State} (h : s.Wf) : (lostInEntry k m reason s).Wf := by
  unfold lostInEntry
  refine wf_ite h ?_
  split
  · exact h
  · refine wf_ite (State.wf_setDent h) ?_
    refine wf_ite (State.wf_setDent (wf_ite (wf_lwbRecord h) (wf_looseInv (wf_lwbRecord h)))) ?_
    exact wf_ite (State.wf_setDent h) h

theorem wf_lostHome {slot : Nat} {s : State} (h : s.Wf) : (lostHome slot s).Wf := by
  unfold lostHome
  refine wf_foldl (fun _ _ h1 => wf_ite (State.wf_event h1) h1) ?_
  refine wf_foldl (fun _ _ h2 => ?_) ?_
  · refine wf_ite h2 ?_
    split
    · exact State.wf_setDent h2
    · exact State.wf_setDent (wf_looseInv h2)
  · refine wf_foldl (fun _ _ h3 => ?_) h
    refine wf_ite h3 ?_
    refine State.wf_mapDent ?_
    refine State.wf_mapDir ?_
    refine wf_looseInv ?_
    split
    · exact wf_ite h3 (wf_dirFail h3)
    · exact h3

theorem wf_memberLost {slot : Nat} {s : State} (h : s.Wf) : (memberLost slot s).Wf := by
  unfold memberLost
  refine wf_foldl (fun _ _ h1 => ?_) (wf_lostHome h)
  split
  · exact h1
  · refine wf_foldl (fun _ _ h2 => wf_lostInEntry h2) ?_
    refine wf_foldl (fun _ _ h3 => ?_) h1
    split
    · exact wf_lostInTxn h3
    · exact h3

theorem wf_dirTimeout {que tag : Nat} {s : State} (h : s.Wf) : (dirTimeout que tag s).Wf := by
  unfold dirTimeout
  split
  · exact h
  · refine wf_ite h ?_
    refine wf_ite (State.wf_putTxn (wf_ite (wf_emit (wf_emits h)) (wf_emits h))) ?_
    refine wf_foldl (fun _ _ ht => ?_) h
    split
    · exact wf_lostInTxn ht
    · exact ht

theorem wf_execDirectoryScrub {f : EccFinding} {s : State} (h : s.Wf) : ResWf (execDirectoryScrub f s) := by
  unfold execDirectoryScrub
  refine resWf_next ?_
  refine wf_ite h ?_
  refine wf_ite (State.wf_score (State.wf_event h)) ?_
  refine wf_ite (State.wf_score (State.wf_event h)) ?_
  split
  · refine wf_foldl (fun _ _ h1 => ?_) (State.wf_score (State.wf_event h))
    split
    · exact wf_lostInTxn h1
    · exact wf_lostInEntry h1
  · exact wf_foldl (fun _ _ h2 => wf_lostInEntry h2) (State.wf_score (State.wf_event h))

theorem wf_buildLine {l : BitVec 57} {rs : List (Nat × Nat)} {s : State} (h : s.Wf) : (buildLine l rs s).Wf := by
  unfold buildLine
  split
  · exact h
  · dsimp only
    split
    · split
      · split
        · exact wf_getD (wf_evictEntry (State.wf_mapDir h)) (State.wf_mapDir h)
        · exact State.wf_mapDir h
      · exact State.wf_mapDir h
    · split
      · exact wf_foldl (fun _ _ ht => wf_looseInv (wf_lwbRecord ht)) (State.wf_setDent h)
      · split
        · exact State.wf_setDent h
        · exact wf_ite h (State.wf_setDent h)

theorem wf_censusEnd {s : State} (h : s.Wf) : (censusEnd s).Wf := by
  unfold censusEnd
  split
  · exact h
  · refine wf_ite h ?_
    refine wf_foldl (fun _ _ ht => ?_) (State.wf_mapDir h)
    split
    · exact ht
    · exact wf_buildLine ht

theorem wf_startCensus {lost : Nat} {mask : BitVec 144} {s : State} (h : s.Wf) : (startCensus lost mask s).Wf :=
  wf_ite h (wf_censusEnd (wf_emits (State.wf_mapDir h)))

theorem wf_censusReport {p : Packet} {s : State} (h : s.Wf) : (censusReport p s).Wf := by
  unfold censusReport
  split
  · exact h
  · exact wf_ite h (wf_censusEnd (State.wf_mapDir h))

theorem wf_execCensusTimeout {slot : Fin 144} {s : State} (h : s.Wf) : ResWf (execCensusTimeout slot s) := by
  unfold execCensusTimeout
  refine resWf_next ?_
  split
  · exact h
  · exact wf_ite h (wf_censusEnd (State.wf_mapDir (State.wf_event h)))

theorem wf_execWay11Migrate {s : State} (h : s.Wf) : ResWf (execWay11Migrate s) := by
  unfold execWay11Migrate
  refine resWf_next ?_
  refine wf_foldl (fun _ _ h1 => wf_buildLine (State.wf_mapDir h1)) ?_
  refine wf_ite ?_ h
  refine wf_foldl (fun _ _ h2 => ?_) h
  split
  · exact State.wf_setDent (State.wf_setDent h2)
  · exact h2

theorem wf_homeLeave {d : Nat} {s : State} (h : s.Wf) : PairWf (homeLeave d s) :=
  wf_pair (State.wf_mapDir h)

theorem wf_homeReturn {d : Nat} {s : State} (h : s.Wf) : (homeReturn d s).Wf :=
  wf_ite (State.wf_mapDir h) (State.wf_mapDir (State.wf_mapDir h))

/-! ### The operations of Machine/Agent -/

theorem State.wf_mapAg {s : State} {l : BitVec 57} {f : AgLine → AgLine} (h : s.Wf) : (s.mapAg l f).Wf :=
  State.wf_mapSv h (fun _ => rfl)

theorem wf_agSend {l : BitVec 57} {x : AgLine} {opc aux : Nat} {s : State} (h : s.Wf) :
    OptWf State.Wf (agSend l x opc aux s) := by
  unfold agSend
  refine wf_ite optWf_none ?_
  split
  · exact optWf_none
  next e =>
    exact optWf_some (wf_svTx (State.wf_mapSrcs (wf_useTag (wf_of_some_pair (State.wf_freeTag h) e))))

theorem wf_agReplace {l : BitVec 57} {s : State} (h : s.Wf) : (agReplace l s).Wf := by
  unfold agReplace
  dsimp only
  split
  · split
    next e1 =>
      exact State.wf_mapAg (wf_of_some (wf_agSend h) e1)
    · exact h
  · split
    next e2 =>
      exact State.wf_mapAg (wf_of_some (wf_agSend h) e2)
    · exact h
  · split
    next e3 =>
      exact State.wf_mapAg (wf_of_some (wf_agSend h) e3)
    · exact h
  · split
    next e4 =>
      exact State.wf_mapAg (wf_of_some (wf_agSend h) e4)
    · exact h
  · exact h

theorem wf_accDone {o : OutReq} {r : Rqo} {st : BitVec 7} {data : List Byte} {s : State} (h : s.Wf) :
    (accDone o r st data s).Wf := by
  unfold accDone
  refine wf_pumpQ ?_
  refine wf_ite ?_ (wf_rso (State.wf_mapSv (wf_endAcquire (State.wf_setReqOf h)) (fun _ => rfl)))
  refine wf_ite (State.wf_mapSv (wf_endAcquire (State.wf_setReqOf h)) (fun _ => rfl)) ?_
  exact wf_setSticky (State.wf_mapSv (wf_endAcquire (State.wf_setReqOf h)) (fun _ => rfl))

theorem wf_accPerform {o : OutReq} {r : Rqo} {fa : Word} {s : State} (h : s.Wf) : (accPerform o r fa s).Wf := by
  unfold accPerform
  refine wf_accDone ?_
  refine wf_ite (wf_foldl (fun _ _ h1 => State.wf_mapAg h1) (State.wf_mapSv h (fun _ => rfl))) ?_
  exact wf_foldl (fun _ _ h2 => State.wf_mapAg h2) (State.wf_mapSv h (fun _ => rfl))

theorem wf_accMiss {r : Rqo} {q : Nat} {l : BitVec 57} {s : State} (h : s.Wf) : (accMiss r q l s).Wf := by
  unfold accMiss
  refine wf_ite h ?_
  split
  · refine wf_ite h ?_
    dsimp only
    split
    next e1 =>
      exact State.wf_mapAg (wf_of_some (wf_agSend h) e1)
    · exact h
  · refine wf_ite ?_ h
    split
    next e2 =>
      exact State.wf_mapAg (wf_of_some (wf_agSend h) e2)
    · exact h
  · refine wf_ite ?_ h
    split
    next e3 =>
      exact State.wf_mapAg (wf_of_some (wf_agSend h) e3)
    · exact h
  · exact h

theorem wf_accTry {q tag : Nat} {s : State} (h : s.Wf) : (accTry q tag s).Wf := by
  unfold accTry
  split
  · exact h
  · split
    · exact h
    · exact wf_ite h (wf_ite (wf_accPerform h) (wf_foldl (fun _ _ ht => wf_ite ht (wf_accMiss ht)) h))

theorem wf_flushStep {s : State} (h : s.Wf) : (flushStep s).Wf := by
  unfold flushStep
  refine wf_ite h ?_
  exact wf_ite (State.wf_setSrf (State.wf_mapSv h (fun _ => rfl))) (wf_foldl (fun _ _ ht => wf_agReplace ht) h)

theorem wf_owedWbs {s : State} (h : s.Wf) : (owedWbs s).Wf := by
  unfold owedWbs
  refine wf_foldl (fun _ _ ht => ?_) h
  refine wf_ite (State.wf_mapAg ht) ?_
  split
  next e =>
    exact State.wf_mapAg (wf_of_some (wf_agSend ht) e)
  · exact ht

theorem wf_agPump {s : State} (h : s.Wf) : (agPump s).Wf :=
  wf_foldl (fun _ _ ht => wf_accTry ht) (wf_flushStep (wf_owedWbs h))

theorem wf_accArrive {write : Bool} {q tag : Nat} {s : State} (h : s.Wf) : (accArrive write q tag s).Wf := by
  unfold accArrive
  split
  · exact h
  · split
    · exact h
    · exact wf_ite h (wf_ite (wf_accTry h) (wf_accTry (State.wf_mapSv h (fun _ => rfl))))

theorem wf_caFlush {s : State} (h : s.Wf) : (caFlush s).Wf :=
  wf_ite h (wf_flushStep (State.wf_setSrf (State.wf_mapSv h (fun _ => rfl))))

theorem wf_agDiscard {p : Packet} {s : State} (h : s.Wf) : (agDiscard p s).Wf :=
  State.wf_svEvent h

theorem wf_failAccess {l : BitVec 57} {st : BitVec 7} {s : State} (h : s.Wf) : (failAccess l st s).Wf := by
  unfold failAccess
  split
  · exact wf_accDone h
  · exact h

theorem wf_agError {o : OutReq} {l : BitVec 57} {st : BitVec 7} {s : State} (h : s.Wf) :
    (agError o l st s).Wf := by
  unfold agError
  refine wf_agPump ?_
  refine wf_ite (wf_failAccess (State.wf_mapAg (State.wf_setReqOf h))) ?_
  split
  · exact wf_failAccess (State.wf_mapAg (State.wf_setReqOf h))
  · exact wf_failAccess (State.wf_mapAg (State.wf_setReqOf h))
  · exact wf_failAccess (State.wf_mapAg (State.wf_setReqOf h))
  · exact wf_failAccess (State.wf_mapAg (State.wf_setReqOf h))
  · exact State.wf_mapAg (State.wf_setReqOf h)

theorem wf_agResend {o : OutReq} {f : Part → Part} {s : State} (h : s.Wf) : (agResend o f s).Wf :=
  wf_foldl (fun _ _ h1 => wf_foldl (fun _ _ h2 => wf_svTx h2) h1) (State.wf_setReqOf h)

theorem wf_agCdata {o : OutReq} {l : BitVec 57} {p : Packet} {s : State} (h : s.Wf) : (agCdata o l p s).Wf := by
  unfold agCdata
  refine wf_ite (wf_agResend h) ?_
  refine wf_ite (wf_agError h) ?_
  dsimp only
  split
  · exact wf_agPump (State.wf_mapAg (State.wf_setReqOf h))
  · exact wf_agPump (State.wf_mapAg (State.wf_setReqOf h))
  · exact wf_agPump (State.wf_mapAg (State.wf_setReqOf h))
  · exact wf_agPump (State.wf_mapAg (State.wf_setReqOf h))
  · exact wf_agPump (State.wf_mapAg (State.wf_setReqOf h))
  · exact wf_agDiscard h

theorem wf_agResolve {pl : Nat} {p : Packet} {f : AgLine → Bool} {s : State} (h : s.Wf) :
    PairWf (agResolve pl p f s) := by
  unfold agResolve
  dsimp only
  split
  · exact h
  · exact h
  · exact wf_pair (wf_pickMany h)

theorem wf_agCack {plane : Fin 18} {p : Packet} {s : State} (h : s.Wf) : (agCack plane p s).Wf := by
  unfold agCack
  refine wf_ite ?_ ?_
  · refine wf_ite h ?_
    dsimp only
    split
    · exact wf_agPump (wf_svTx (State.wf_mapAg (State.wf_mapSrcs (wf_agResolve h))))
    · exact wf_ite (wf_svTx h) (wf_agDiscard h)
  · split
    · exact h
    · split
      · refine wf_ite (wf_agError h) ?_
        split
        · exact wf_agPump (State.wf_mapAg (State.wf_setReqOf h))
        · exact wf_agPump (State.wf_mapAg (State.wf_setReqOf h))
        · exact wf_agPump (State.wf_mapAg (State.wf_setReqOf h))
        · exact wf_agPump (State.wf_mapAg (State.wf_setReqOf h))
        · exact wf_agPump (State.wf_mapAg (State.wf_setReqOf h))
        · exact wf_agPump (State.wf_mapAg (State.wf_setReqOf h))
        · exact wf_agPump (State.wf_mapAg (State.wf_setReqOf h))
        · exact wf_agDiscard h
      · exact h

theorem wf_relayDone {o : OutReq} {pl : Nat} {req p : Packet} {s : State} (h : s.Wf) :
    (relayDone o pl req p s).Wf :=
  wf_svTx (State.wf_setReqOf h)

theorem wf_execCnack {plane : Fin 18} {p : Packet} {s : State} (h : s.Wf) : ResWf (execCnack plane p s) := by
  unfold execCnack
  refine resWf_next ?_
  refine wf_ite h ?_
  refine wf_ite (wf_pktEvent h) ?_
  split
  · exact h
  · exact State.wf_setReqOf h

theorem wf_execAgentNackResend {line : BitVec 57} {s : State} (h : s.Wf) :
    ResWf (execAgentNackResend line s) := by
  unfold execAgentNackResend
  refine resWf_next ?_
  refine wf_foldl (fun _ _ ht => ?_) h
  split
  · exact wf_ite ht (wf_agResend ht)
  · exact wf_ite ht (wf_agResend ht)
  · exact ht

theorem wf_snoop {opc : Nat} {plane : Fin 18} {p : Packet} {s : State} (h : s.Wf) : (snoop opc plane p s).Wf := by
  unfold snoop
  refine wf_ite h ?_
  split
  · exact wf_reply (wf_ite h (wf_pktEvent h))
  · refine wf_ite (wf_reply h) ?_
    dsimp only
    split
    · exact wf_reply (wf_agResolve h)
    · exact wf_agPump (wf_reply (State.wf_mapAg (wf_agResolve h)))

theorem wf_execSnpcen {plane : Fin 18} {p : Packet} {s : State} (h : s.Wf) : ResWf (execSnpcen plane p s) := by
  unfold execSnpcen
  refine resWf_next ?_
  refine wf_ite h ?_
  split
  · exact wf_reply (wf_ite h (wf_pktEvent h))
  · refine wf_ite (wf_reply h) ?_
    refine wf_foldl (fun _ _ h1 => ?_) (wf_foldl (fun _ _ h2 => wf_reply h2) h)
    refine wf_ite h1 ?_
    dsimp only
    split
    next e =>
      exact wf_of_some (wf_agSend (State.wf_mapSrcs h1)) e
    · exact State.wf_mapAg (State.wf_mapSrcs h1)

theorem wf_execRelayedRdna {plane : Fin 18} {p : Packet} {s : State} (h : s.Wf) :
    ResWf (execRelayedRdna plane p s) := by
  unfold execRelayedRdna
  refine resWf_next ?_
  refine wf_ite h ?_
  split
  · exact wf_reply (wf_ite h (wf_pktEvent h))
  · refine wf_ite (wf_reply h) ?_
    refine wf_ite (wf_reply h) ?_
    split
    · exact wf_reply h
    next e =>
      exact wf_svTx (State.wf_mapSrcs (wf_useTag (wf_of_some_pair (State.wf_freeTag h) e)))

theorem wf_svCohTimeout {que tag : Nat} {s : State} (h : s.Wf) : (svCohTimeout que tag s).Wf := by
  unfold svCohTimeout
  split
  · exact h
  · refine wf_ite h ?_
    split
    · exact wf_ite (wf_agResend (wf_ite (State.wf_svEvent h) h)) (wf_ite (wf_agResend h) (wf_agError h))
    · exact wf_ite (wf_agResend h) (wf_svTx (State.wf_setReqOf h))
    · exact h

theorem wf_execCoherenceTimeout {d : Side} {que : BitVec 10} {tag : BitVec 9} {s : State} (h : s.Wf) :
    ResWf (execCoherenceTimeout d que tag s) := by
  unfold execCoherenceTimeout
  refine resWf_next ?_
  split
  · exact wf_ite h (wf_dirTimeout h)
  · exact wf_svCohTimeout h

/-! ### The operations of Machine/Mill -/

theorem State.wf_mapGrid {s : State} {f : Grid → Grid} (h : s.Wf) : (s.mapGrid f).Wf :=
  State.wf_mapQd h (fun _ => rfl)

theorem State.wf_mapMill {s : State} {m : Nat} {f : Mill → Mill} (h : s.Wf) : (s.mapMill m f).Wf :=
  State.wf_mapGrid h

theorem State.wf_mapAllot {s : State} {a : Nat} {f : Allot → Allot} (h : s.Wf) : (s.mapAllot a f).Wf :=
  State.wf_mapGrid h

theorem State.wf_setScratch {s : State} {m off : Nat} {d : List Byte} (h : s.Wf) : (s.setScratch m off d).Wf :=
  State.wf_mapGrid h

theorem State.wf_setCommon {s : State} {off : Nat} {d : List Byte} (h : s.Wf) : (s.setCommon off d).Wf :=
  State.wf_mapGrid h

theorem wf_mixRows {base : Nat} {cap : List Byte} {off : Nat} {d : List Byte} {s : State} (h : s.Wf) :
    PairWf (mixRows base cap off d s) :=
  wf_foldl (p := PairWf) (fun _ _ ht => wf_ite (wf_ite (wf_pair (wf_draw ht)) (wf_pair (wf_draw ht))) ht) h

theorem State.wf_extScratch {s : State} {m off : Nat} {d : List Byte} (h : s.Wf) : (s.extScratch m off d).Wf := by
  unfold State.extScratch
  refine State.wf_setScratch ?_
  exact State.wf_mapMill (wf_foldl (p := PairWf) (fun _ _ ht => wf_pair (wf_mixRows (wf_mixRows ht))) h)

theorem State.wf_gridWrite {s : State} {ext : Bool} {t : Target} {d : List Byte} (h : s.Wf) :
    (s.gridWrite ext t d).Wf := by
  unfold State.gridWrite
  split
  · exact wf_ite (State.wf_extScratch h) (State.wf_setScratch h)
  · exact State.wf_setCommon h
  · exact State.wf_setCommon h
  · exact State.wf_setCommon h
  · exact h

theorem wf_clearLeases {cat arg1 : Nat} {p : Nat → Lease → Bool} {s : State} (h : s.Wf) :
    (clearLeases cat arg1 p s).Wf :=
  wf_foldl (fun _ _ ht => State.wf_event (State.wf_count (State.wf_mapGrid ht))) h

theorem wf_millSync {m kind wsub q obj : Nat} {node : BitVec 14} {s : State} (h : s.Wf) :
    (millSync m kind wsub q obj node s).Wf :=
  State.wf_syncEnd h

theorem wf_millBoundary {m : Nat} {s : State} (h : s.Wf) : (millBoundary m s).Wf :=
  wf_ite h (wf_ite (State.wf_mapMill h) (wf_ite (State.wf_mapMill h) h))

theorem wf_millNext {m : Nat} {pc : BitVec 21} {s : State} (h : s.Wf) : (millNext m pc s).Wf :=
  wf_millBoundary (State.wf_mapMill h)

theorem wf_releaseBar {a ans last : Nat} {s : State} (h : s.Wf) : (releaseBar a ans last s).Wf := by
  unfold releaseBar
  refine wf_foldl (fun _ _ ht => ?_) (State.wf_mapAllot h)
  split
  · exact wf_millNext (State.wf_mapMill (wf_millSync ht))
  · exact ht

theorem wf_millStop {m : Nat} {how : MRun} {s : State} (h : s.Wf) : (millStop m how s).Wf := by
  unfold millStop
  dsimp only
  split
  · exact wf_clearLeases (State.wf_mapMill h)
  · exact wf_releaseBar (State.wf_mapAllot (wf_clearLeases (State.wf_mapMill h)))

theorem wf_millFault {m : Nat} {s : State} (h : s.Wf) : (millFault m s).Wf := by
  unfold millFault
  refine wf_millStop ?_
  split
  · exact h
  · exact State.wf_mapAllot (State.wf_count h)

theorem wf_millExc {m code : Nat} {eaddr : Word} {estat : BitVec 7} {s : State} (h : s.Wf) :
    (millExc m code eaddr estat s).Wf :=
  wf_ite (wf_millBoundary (State.wf_mapMill (State.wf_mapMill h))) (wf_millFault (State.wf_mapMill h))

theorem wf_finishInstr {a m : Nat} {s : State} {r : MRes} (h : s.Wf) (hr : r.Wf) : (finishInstr a m s r).Wf := by
  cases r with
  | done t => exact wf_millNext hr
  | jump t target => exact wf_ite (wf_millBoundary (State.wf_mapMill hr)) (wf_millExc (State.wf_mapMill hr))
  | exc code eaddr estat => exact wf_millExc h
  | observed addr => exact wf_millExc (State.wf_mapMill h)
  | wait w t => exact State.wf_mapMill hr
  | stopped t => exact hr
  | stall => exact h

theorem wf_runInstr {m : Nat} {w : BitVec 32} {body : Nat → State → MRes} {s : State}
    (hbody : ∀ z0 z1, z1.Wf → (body z0 z1).Wf) (h : s.Wf) : (runInstr m w body s).Wf := by
  unfold runInstr
  dsimp only
  split
  · exact h
  · refine wf_ite h ?_
    refine wf_ite (State.wf_mapMill h) ?_
    exact wf_ite (wf_millExc h) (wf_ite (wf_finishInstr h (hbody _ _ h)) (wf_ite h (wf_millExc h)))

theorem wf_putS {m da : Nat} {v : Word} {s : State} (h : s.Wf) : (putS m da v s).Wf :=
  wf_done (State.wf_mapMill h)

theorem wf_needZero {ok : Bool} {r : MRes} (h : r.Wf) : (needZero ok r).Wf :=
  wf_ite h trivial

theorem wf_sendVq0 {m : Nat} {r : MeshReq} {s : State} (h : s.Wf) : (sendVq0 m r s).Wf :=
  State.wf_mapMill h

theorem wf_observe {m : Nat} {s : State} {f : Unit → MRes} (hf : ∀ z0, (f z0).Wf) :
    (observe m s f).Wf := by
  unfold observe
  split
  · exact trivial
  · exact hf _

theorem wf_loadAt {a m : Nat} {addr : Word} {n align : Nat} {w : MWait} {use : List Byte → State → State}
    {s : State} (huse : ∀ z0 z1, z1.Wf → (use z0 z1).Wf) (h : s.Wf) : (loadAt a m addr n align w use s).Wf := by
  unfold loadAt
  refine wf_ite trivial ?_
  split
  · exact trivial
  · split
    · exact wf_done (huse _ _ h)
    · exact wf_observe (fun _ => wf_waits (wf_sendVq0 h))

theorem wf_storeAt {a m : Nat} {addr : Word} {d : List Byte} {align : Nat} {s : State} (h : s.Wf) :
    (storeAt a m addr d align s).Wf := by
  unfold storeAt
  refine wf_ite trivial ?_
  split
  · exact trivial
  · split
    · exact trivial
    · exact wf_ite (wf_done (State.wf_gridWrite h)) trivial
    · exact wf_observe (fun _ => wf_done (wf_sendVq0 h))

theorem wf_atomAt {a m da : Nat} {addr : Word} {op : MeshOp} {n : Nat} {v : Word} {s : State} (h : s.Wf) :
    (atomAt a m da addr op n v s).Wf := by
  unfold atomAt
  refine wf_ite trivial ?_
  split
  · exact trivial
  · dsimp only
    split
    · exact wf_ite (wf_observe (fun _ => wf_waits (wf_sendVq0 h))) trivial
    · exact trivial
    · exact trivial
    · exact wf_ite (wf_putS (State.wf_gridWrite h)) trivial
    · exact wf_observe (fun _ => wf_waits (wf_sendVq0 h))

/-! ### The operations of Machine/MillTensor -/

theorem wf_execTmma {m : Fin 256} {f : FmtT} {s : State} (h : s.Wf) : ResWf (execTmma m f s) := by
  unfold execTmma
  refine resWf_next ?_
  refine wf_runInstr (fun _ _ ht => ?_) h
  refine wf_ite trivial ?_
  refine wf_ite trivial ?_
  refine wf_ite trivial ?_
  split
  · exact trivial
  · exact trivial
  · exact wf_ite trivial (wf_ite trivial (wf_done (State.wf_mapMill ht)))

theorem wf_tfenceTry {m : Nat} {s : State} (h : s.Wf) : (tfenceTry m s).Wf :=
  wf_ite (wf_done h) (wf_waits h)

theorem wf_execTmmaComplete {m : Fin 256} {s : State} (h : s.Wf) : ResWf (execTmmaComplete m s) := by
  unfold execTmmaComplete
  refine resWf_next ?_
  split
  · exact h
  · exact wf_ite (wf_millNext (State.wf_mapMill h)) (State.wf_mapMill h)

theorem wf_tmov {m : Nat} {f : FmtT} {op : Nat} {body : Nat → State → MRes} {s : State}
    (hbody : ∀ z0 z1, z1.Wf → (body z0 z1).Wf) (h : s.Wf) : (tmov m f op body s).Wf :=
  wf_runInstr (fun _ _ ht => wf_needZero (wf_ite trivial (hbody _ _ ht))) h

theorem wf_tmovAddr {m a n : Nat} {f : FmtT} {write : Bool} {s : State} {use : Nat → MRes}
    (huse : ∀ z0, (use z0).Wf) : (tmovAddr m a n f write s use).Wf := by
  unfold tmovAddr
  refine wf_ite trivial ?_
  split
  · exact trivial
  · exact wf_ite trivial (huse _)

theorem wf_execTstb {m : Fin 256} {f : FmtT} {s : State} (h : s.Wf) : ResWf (execTstb m f s) := by
  unfold execTstb
  refine resWf_next ?_
  exact wf_tmov (fun _ _ ht => wf_ite trivial (wf_tmovAddr (fun _ => wf_done (State.wf_setScratch ht)))) h

/-! ### The operations of Machine/MillQueue -/

theorem wf_fabricMsg {s : State} {m : Nat} {e : QEnd} {d : List Byte} (h : s.Wf) : PairWf (fabricMsg s m e d) :=
  wf_pair (wf_draw (wf_draw h))

theorem wf_sendTry {a m ep sa sb : Nat} {s : State} (h : s.Wf) : (sendTry a m ep sa sb s).Wf := by
  unfold sendTry
  refine wf_ite trivial ?_
  split
  · exact trivial
  · refine wf_ite ?_ (wf_ite (wf_waits h) (wf_done (wf_unitReq (State.wf_mapMill (wf_fabricMsg h)))))
    exact wf_ite (wf_waits h) (wf_done (wf_sendVq0 (State.wf_mapMill (wf_ite (wf_millSync h) h))))

theorem wf_postCompletion {m ep epoch : Nat} {st : BitVec 7} {s : State} (h : s.Wf) :
    (postCompletion m ep epoch st s).Wf :=
  State.wf_mapMill h

theorem wf_recvTry {a m ep sa da : Nat} {s : State} (h : s.Wf) : (recvTry a m ep sa da s).Wf := by
  unfold recvTry
  refine wf_ite trivial ?_
  refine wf_ite trivial ?_
  split
  · split
    · exact trivial
    · exact wf_waits h
  · split
    · exact trivial
    · refine wf_ite trivial ?_
      refine wf_done ?_
      refine wf_ite (State.wf_mapMill (State.wf_mapMill (State.wf_setScratch (wf_ite (wf_millSync h) h)))) ?_
      exact State.wf_mapMill (State.wf_setScratch (wf_ite (wf_millSync h) h))

theorem wf_execQpoll {m : Fin 256} {f : FmtA} {ep : Fin 8} {s : State} (h : s.Wf) :
    ResWf (execQpoll m f ep s) := by
  unfold execQpoll
  refine resWf_next ?_
  exact wf_runInstr (fun _ _ ht => wf_ite (wf_putS ht) (wf_ite (wf_putS ht) (wf_ite (wf_putS ht) trivial))) h

theorem wf_execQstat {m : Fin 256} {f : FmtA} {ep : Fin 8} {s : State} (h : s.Wf) :
    ResWf (execQstat m f ep s) := by
  unfold execQstat
  refine resWf_next ?_
  refine wf_runInstr (fun _ _ ht => ?_) h
  refine wf_ite trivial ?_
  split
  · exact wf_putS ht
  · exact wf_putS (State.wf_mapMill ht)

theorem wf_execDmaq {m : Fin 256} {f : FmtA} {c : Fin 16} {s : State} (h : s.Wf) : ResWf (execDmaq m f c s) := by
  unfold execDmaq
  refine resWf_next ?_
  refine wf_runInstr (fun _ _ ht => ?_) h
  refine wf_needZero ?_
  refine wf_ite trivial ?_
  split
  · exact trivial
  · exact wf_ite trivial (wf_done (State.wf_mapMill ht))

theorem wf_dwaitTry {m c sb da : Nat} {raise : Bool} {s : State} (h : s.Wf) : (dwaitTry m c sb da raise s).Wf :=
  wf_ite (wf_waits h) (wf_ite trivial (wf_putS (wf_ite (wf_millSync h) h)))

theorem wf_execDlog {m : Fin 256} {f : FmtA} {c : Fin 16} {s : State} (h : s.Wf) : ResWf (execDlog m f c s) := by
  unfold execDlog
  refine resWf_next ?_
  refine wf_runInstr (fun _ _ ht => ?_) h
  dsimp only
  split
  · exact wf_putS ht
  · split
    · exact trivial
    · exact wf_ite trivial (wf_putS (State.wf_mapMill (State.wf_setScratch ht)))

theorem wf_controlWord {s : State} {a m k : Nat} (h : s.Wf) : OptWf PairWf (controlWord s a m k) := by
  unfold controlWord
  dsimp only
  split
  · exact optWf_some h
  · exact optWf_some h
  · exact optWf_some h
  · exact optWf_some h
  · exact optWf_some h
  · exact optWf_some h
  · exact optWf_some h
  · exact optWf_some h
  · exact optWf_some h
  · exact optWf_some h
  · exact optWf_some h
  · exact optWf_some (wf_draw h)
  · exact optWf_some h
  · exact optWf_some h
  · exact wf_ite (optWf_some h) optWf_none

theorem wf_setControl {m k : Nat} {v : Word} {s : State} (h : s.Wf) : OptWf State.Wf (setControl m k v s) := by
  unfold setControl
  refine wf_ite ?_ optWf_none
  exact wf_ite (optWf_some (State.wf_mapMill h)) (wf_ite (optWf_some (State.wf_mapMill h)) optWf_none)

theorem wf_csr {m : Nat} {f : FmtI} {op : Nat} {new : Option (Word → Word → Word)} {s : State} (h : s.Wf) :
    (csr m f op new s).Wf := by
  unfold csr
  refine wf_runInstr (fun _ _ ht => ?_) h
  refine wf_needZero ?_
  split
  · exact trivial
  next e1 =>
    dsimp only
    split
    · refine wf_ite (wf_done (wf_of_some_pair (wf_controlWord ht) e1)) ?_
      exact wf_putS (wf_of_some_pair (wf_controlWord ht) e1)
    · split
      · exact trivial
      next e2 =>
        refine wf_ite (wf_done (wf_of_some (wf_setControl (wf_of_some_pair (wf_controlWord ht) e1)) e2)) ?_
        exact wf_putS (wf_of_some (wf_setControl (wf_of_some_pair (wf_controlWord ht) e1)) e2)

theorem wf_sys {m : Nat} {f : FmtA} {fn : Nat} {ok : Bool} {body : Nat → State → MRes} {s : State}
    (hbody : ∀ z0 z1, z1.Wf → (body z0 z1).Wf) (h : s.Wf) : (sys m f fn ok body s).Wf :=
  wf_runInstr (fun _ _ ht => wf_needZero (hbody _ _ ht)) h

theorem wf_fenceTry {m : Nat} {s : State} (h : s.Wf) : (fenceTry m s).Wf :=
  wf_ite (wf_waits h) (wf_observe (fun _ => wf_done h))

theorem wf_execBar {m : Fin 256} {f : FmtA} {s : State} (h : s.Wf) : ResWf (execBar m f s) := by
  unfold execBar
  refine resWf_next ?_
  refine wf_sys (fun _ _ ht => ?_) h
  refine wf_ite (wf_putS ht) ?_
  refine wf_ite (wf_putS (wf_releaseBar (State.wf_mapMill (State.wf_mapAllot ht)))) ?_
  exact wf_waits (State.wf_mapAllot ht)

theorem wf_waittTry {m sa : Nat} {s : State} (h : s.Wf) : (waittTry m sa s).Wf :=
  wf_ite (wf_done h) (wf_waits h)

theorem wf_millRetry {m : Nat} {s : State} (h : s.Wf) : (millRetry m s).Wf := by
  unfold millRetry
  dsimp only
  split
  · exact h
  · refine wf_ite h ?_
    split
    · exact wf_finishInstr h (wf_sendTry h)
    · exact wf_finishInstr h (wf_recvTry h)
    · exact wf_finishInstr h (wf_dwaitTry h)
    · exact wf_finishInstr h (wf_waittTry h)
    · exact wf_finishInstr h (wf_fenceTry h)
    · exact wf_finishInstr h (wf_tfenceTry h)
    · exact h

theorem wf_execWaittExpire {m : Fin 256} {s : State} (h : s.Wf) : ResWf (execWaittExpire m s) := by
  unfold execWaittExpire
  refine resWf_next ?_
  split
  · exact wf_millRetry h
  · exact h

theorem wf_meshPerform {a m : Nat} {r : MeshReq} {s : State} (h : s.Wf) : (meshPerform a m r s).2.2.Wf := by
  unfold meshPerform
  split
  · exact h
  · split
    · exact h
    · exact wf_ite (p := fun x : Bool × List Byte × State => x.2.2.Wf) (State.wf_gridWrite h) h
    · exact h
    · split
      · exact State.wf_mapGrid h
      · exact wf_ite (p := fun x : Bool × List Byte × State => x.2.2.Wf) (State.wf_gridWrite h) h

theorem wf_execMeshRequest {src : Fin 256} {s : State} (h : s.Wf) : ResWf (execMeshRequest src s) := by
  unfold execMeshRequest
  refine resWf_next ?_
  dsimp only
  split
  · split
    · exact h
    · exact State.wf_mapMill (wf_meshPerform h)
  · exact h

theorem wf_endRemote {m : Nat} {r : MeshRsp} {use : Mill → Mill} {s : State} (h : s.Wf) :
    (endRemote m r use s).Wf :=
  wf_ite (wf_millExc h) (wf_millNext (State.wf_mapMill h))

theorem wf_execMeshResponse {m : Fin 256} {s : State} (h : s.Wf) : ResWf (execMeshResponse m s) := by
  unfold execMeshResponse
  refine resWf_next ?_
  split
  · exact h
  · refine wf_ite (wf_millRetry (wf_ite (State.wf_mapMill (State.wf_mapMill h)) (State.wf_mapMill h))) ?_
    split
    · exact wf_endRemote (State.wf_mapMill h)
    · exact wf_endRemote (State.wf_mapMill h)
    · exact wf_endRemote (State.wf_mapMill h)
    · exact State.wf_mapMill h

theorem wf_enqueueMsg {m ep : Nat} {k : MsgEnt} {s : State} (h : s.Wf) : (enqueueMsg m ep k s).Wf :=
  wf_millRetry (State.wf_mapMill h)

theorem wf_execMeshMessage {src : Fin 256} {s : State} (h : s.Wf) : ResWf (execMeshMessage src s) := by
  unfold execMeshMessage
  refine resWf_next ?_
  dsimp only
  split
  · split
    · exact h
    · split
      · exact wf_ite h (wf_ite (wf_enqueueMsg (State.wf_mapMill h)) (State.wf_mapMill h))
      · exact h
  · exact h

theorem wf_execMillMsgReceive {v : Via} {p : Packet} {s : State} (h : s.Wf) :
    ResWf (execMillMsgReceive v p s) := by
  unfold execMillMsgReceive
  refine resWf_next ?_
  refine wf_ite h ?_
  split
  · exact wf_rxFail h
  · refine wf_ite (wf_failPkt h) ?_
    dsimp only
    split
    · exact wf_failPkt (wf_ite (State.wf_mapMill (State.wf_event h)) h)
    · exact wf_reply (wf_enqueueMsg (State.wf_journal h))

/-! ### The operations of Machine/Watch -/

theorem wf_watchNumbers {w : WatchItem} {s : State} (h : s.Wf) : PairWf (watchNumbers w s) :=
  wf_ite h (wf_ite (wf_foldl (p := PairWf) (fun _ _ ht => wf_pair (wf_draw ht)) h) h)

theorem wf_watchBy {w : WatchItem} {i : Nat} {s : State} (h : s.Wf) : (watchBy w i s).Wf := by
  unfold watchBy
  refine wf_ite h ?_
  refine wf_ite (State.wf_count (wf_draw h)) ?_
  refine wf_ite ?_ ?_
  · refine State.wf_lgWrite ?_
    exact State.wf_compare (wf_foldl (fun _ _ ht => State.wf_setRg ht) (wf_watchNumbers (wf_draw h)))
  · exact State.wf_compare (wf_foldl (fun _ _ ht => State.wf_setRg ht) (wf_watchNumbers (wf_draw h)))

theorem State.wf_watch {s : State} {w : WatchItem} (h : s.Wf) : (s.watch w).Wf :=
  wf_ite h (wf_foldl (fun _ _ ht => wf_watchBy ht) h)

/-! ### The operations of Machine/Dma -/

theorem wf_dmaBegin {m : Nat} {w : List Word} {waits : Nat} {st : BitVec 7} {data : List Byte} {s : State}
    (h : s.Wf) : PairWf (dmaBegin m w waits st data s) :=
  wf_pair (State.wf_mapMill h)

theorem wf_dmaSend {m id : Nat} {parts : List (List Packet)} {s : State} (h : s.Wf) :
    (dmaSend m id parts s).Wf :=
  State.wf_mapMill (wf_unitReq h)

theorem wf_declareStream {m : Nat} {w : List Word} {s : State} (h : s.Wf) : (declareStream m w s).Wf :=
  wf_ite h (State.wf_mapNode h)

theorem wf_writeRows {ts : List Target} {rowLen : Nat} {d : List Byte} {s : State} (h : s.Wf) :
    (writeRows ts rowLen d s).Wf :=
  wf_foldl (p := PairWf) (fun _ _ ht => wf_pair (State.wf_gridWrite ht)) h

theorem wf_dmaStart {m kind : Nat}
    {act : Nat → List Word → List Target × List Target → State → State} {s : State}
    (hact : ∀ z0 z1 z2 z3, z3.Wf → (act z0 z1 z2 z3).Wf) (h : s.Wf) : (dmaStart m kind act s).Wf := by
  unfold dmaStart
  dsimp only
  split
  · refine wf_ite h ?_
    split
    · exact wf_dmaBegin h
    · exact wf_ite (wf_dmaBegin h) (wf_ite h (hact _ _ _ _ h))
  · exact h

theorem wf_dmaLand {a m : Nat} {w : List Word} {o : OutReq} {s : State} (h : s.Wf) : (dmaLand a m w o s).Wf := by
  unfold dmaLand
  extract_lets _ _ _ _ _ _ _ _ s1
  have ht : State.Wf s1 := wf_ite (State.wf_indig h) h
  split
  · exact ht
  · exact wf_writeRows ht

theorem wf_dmaDone {m id : Nat} {o : OutReq} {s : State} (h : s.Wf) : (dmaDone m id o s).Wf := by
  unfold dmaDone
  dsimp only
  split
  · exact State.wf_mapMill h
  · split
    · exact wf_ite (wf_dmaLand (State.wf_mapMill (State.wf_mapMill h))) (State.wf_mapMill (State.wf_mapMill h))
    · exact State.wf_mapMill (State.wf_mapMill h)

theorem wf_execDmaDescriptorComplete {m : Fin 256} {id : Nat} {s : State} (h : s.Wf) :
    ResWf (execDmaDescriptorComplete m id s) := by
  unfold execDmaDescriptorComplete
  refine resWf_next ?_
  split
  · exact h
  · refine wf_ite h ?_
    refine wf_millRetry ?_
    split
    · exact wf_ite (State.wf_watch (State.wf_mapMill h)) (State.wf_mapMill h)
    · exact State.wf_mapMill h

/-! ### The operations of Machine/MillDebug -/

theorem wf_debugHalt {m : Nat} {s : State} (h : s.Wf) : (debugHalt m s).Wf :=
  wf_ite h (wf_ite (State.wf_mapMill h) (State.wf_mapMill h))

theorem wf_debugGo {step : Bool} {m : Nat} {s : State} (h : s.Wf) : (debugGo step m s).Wf :=
  wf_ite (wf_millRetry (State.wf_mapMill h)) h

theorem wf_debugPoke {m off : Nat} {v : Word} {s : State} (h : s.Wf) : OptWf State.Wf (debugPoke m off v s) := by
  unfold debugPoke
  refine wf_ite optWf_none ?_
  refine wf_ite (optWf_some (State.wf_mapMill h)) ?_
  refine wf_ite (optWf_some (State.wf_mapMill h)) ?_
  refine wf_ite (optWf_some (State.wf_mapMill h)) ?_
  refine wf_ite (optWf_some (wf_getD (wf_setControl h) h)) ?_
  exact wf_ite (optWf_some (State.wf_mapMill h)) (wf_ite (optWf_some (State.wf_mapMill h)) optWf_none)

theorem wf_debugWrite {m off : Nat} {v : Word} {s : State} (h : s.Wf) : PairWf (debugWrite m off v s) := by
  have hrefuse : (s.refused (Rg.mill m) (debugBase m + off) v).Wf := State.wf_refused h
  have hhalt : ∀ (b : Bool) (t : State), t.Wf → (if b then debugHalt m t else t).Wf :=
    fun b t ht => wf_ite (wf_debugHalt ht) ht
  have hgo : ∀ (b step : Bool) (t : State), t.Wf → (if b then debugGo step m t else t).Wf :=
    fun b step t ht => wf_ite (wf_debugGo ht) ht
  unfold debugWrite
  refine wf_ite h (wf_ite ?_ (wf_ite h ?_))
  · exact wf_pair (hgo _ _ _ (hgo _ _ _ (hhalt _ _ (State.wf_mapMill h))))
  · refine wf_ite (wf_pair (State.wf_mapMill h)) (wf_ite (wf_pair (State.wf_mapMill h)) ?_)
    split
    · exact hrefuse
    · next e => exact wf_ite (wf_pair (wf_of_some (wf_debugPoke h) e)) (wf_pair hrefuse)

theorem wf_debugRead {s : State} {m off : Nat} (h : s.Wf) : OptWf PairWf (debugRead s m off) := by
  unfold debugRead
  refine wf_ite optWf_none ?_
  refine wf_ite (optWf_some h) ?_
  refine wf_ite (optWf_some h) ?_
  refine wf_ite (optWf_some h) ?_
  refine wf_ite (optWf_some h) ?_
  refine wf_ite (optWf_some h) ?_
  refine wf_ite (optWf_some h) ?_
  refine wf_ite (optWf_some h) ?_
  refine wf_ite (optWf_some h) ?_
  refine wf_ite ?_ (wf_ite (optWf_some h) (wf_ite (optWf_some h) optWf_none))
  split
  · exact optWf_some h
  · split
    · exact optWf_some h
    next e =>
      exact optWf_some (wf_pair (wf_of_some_pair (wf_controlWord h) e))

theorem wf_millTelemetry {s : State} {m w : Nat} (h : s.Wf) : PairWf (millTelemetry s m w) := by
  unfold millTelemetry
  dsimp only
  split
  · exact wf_draw h
  · exact wf_draw h
  · exact wf_draw h
  · exact h
  · exact h
  · exact h
  · exact h

/-! ### The operations of Machine/Rings -/

theorem State.wf_mapSq {s : State} {k : Nat} {f : SQ → SQ} (h : s.Wf) : (s.mapSq k f).Wf :=
  State.wf_mapRings h

theorem State.wf_setQstate {s : State} {k n : Nat} (h : s.Wf) : (s.setQstate k n).Wf :=
  State.wf_mapRings h

theorem State.wf_mapDesc {s : State} {k : Nat} {ridx : BitVec 32} {f : Desc → Desc} (h : s.Wf) :
    (s.mapDesc k ridx f).Wf :=
  State.wf_mapSq h

theorem wf_mirrorQueue {k : Nat} {s : State} (h : s.Wf) : (mirrorQueue k s).Wf :=
  wf_ite (State.wf_mirror h) h

theorem wf_mirrorBinding {k : Nat} {s : State} (h : s.Wf) : (mirrorBinding k s).Wf :=
  wf_ite (State.wf_mirror h) h

theorem wf_writeStatus {k rstate : Nat} {s : State} (h : s.Wf) : (writeStatus k rstate s).Wf :=
  State.wf_mapSq (wf_unitReq h)

theorem wf_queueFail {k : Nat} {st : BitVec 7} {s : State} (h : s.Wf) : (queueFail k st s).Wf := by
  unfold queueFail
  refine wf_ite h ?_
  refine wf_ite (State.wf_mapSq (State.wf_event h)) ?_
  exact wf_mirrorBinding (wf_writeStatus (State.wf_setQstate (State.wf_mapSq (State.wf_event h))))

theorem State.wf_setSqSts {s : State} {q : Nat} {st : BitVec 7} (h : s.Wf) : (s.setSqSts q st).Wf :=
  State.wf_setFl (State.wf_setFl h)

theorem wf_sqLoad {src : RegSrc} {v : Word} {ans : BitVec 7 → List Out} {s : State} (h : s.Wf) :
    (sqLoad src v ans s).Wf := by
  unfold sqLoad
  refine wf_ite (wf_emits (State.wf_setSqSts (State.wf_event h))) ?_
  refine wf_ite (State.wf_mirror (State.wf_setSqSts (State.wf_mapSq h))) ?_
  exact wf_emits (State.wf_mapRings (State.wf_setSqSts (State.wf_mapSq h)))

theorem wf_dropCreates {k : Nat} {s : State} (h : s.Wf) : (dropCreates k s).Wf :=
  State.wf_setFl (wf_foldl (fun _ _ ht => wf_descDone ht) (State.wf_mapQd h (fun _ => rfl)))

theorem wf_sqUnbind {v : Word} {ans : BitVec 7 → List Out} {s : State} (h : s.Wf) : (sqUnbind v ans s).Wf := by
  unfold sqUnbind
  refine wf_ite (wf_emits (State.wf_refused h)) ?_
  exact wf_emits (wf_mirrorBinding (State.wf_mapSq (wf_dropCreates (State.wf_setQstate h))))

theorem wf_execUnbindComplete {q : Fin 4096} {s : State} (h : s.Wf) : ResWf (execUnbindComplete q s) := by
  unfold execUnbindComplete
  refine resWf_next ?_
  refine wf_ite ?_ (wf_ite (wf_mirrorBinding (State.wf_mapSq (State.wf_setQstate (wf_writeStatus h)))) h)
  refine wf_ite ?_ (wf_ite (wf_mirrorBinding (State.wf_mapSq (State.wf_setQstate (wf_writeStatus h)))) h)
  refine wf_mirrorBinding ?_
  refine State.wf_mapSq ?_
  refine State.wf_setQstate ?_
  exact wf_writeStatus (wf_ite (wf_mirrorBinding (State.wf_mapSq (State.wf_setQstate (wf_writeStatus h)))) h)

theorem wf_execSqBindingScrub {s : State} (h : s.Wf) : ResWf (execSqBindingScrub s) := by
  unfold execSqBindingScrub
  refine resWf_next ?_
  exact wf_foldl (fun _ _ ht => wf_queueFail (State.wf_mapRings (State.wf_score (State.wf_event ht)))) h

theorem wf_takeBell {k : Nat} {v : BitVec 32} {s : State} (h : s.Wf) : (takeBell k v s).Wf :=
  wf_ite (wf_mirrorQueue (State.wf_mapSq h)) h

theorem wf_execBell {v : Via} {p : Packet} {s : State} (h : s.Wf) : ResWf (execBell v p s) := by
  unfold execBell
  refine resWf_next ?_
  refine wf_ite (wf_ite (wf_request h) h) ?_
  refine wf_ite h ?_
  split
  · exact wf_rxFail h
  · refine wf_ite (wf_failPkt h) ?_
    split
    · exact wf_failPkt h
    · exact wf_takeBell h

theorem wf_sendFetch {k : Nat} {f : FetchRun} {s : State} (h : s.Wf) : (sendFetch k f s).Wf :=
  wf_unitReq (State.wf_mapSq h)

theorem wf_execDescriptorFetch {q : Fin 4096} {s : State} (h : s.Wf) : ResWf (execDescriptorFetch q s) := by
  unfold execDescriptorFetch
  refine resWf_next ?_
  split
  · exact h
  · refine wf_ite h ?_
    dsimp only
    split <;> exact wf_sendFetch (State.wf_mapSq (State.wf_mapRings h))

theorem wf_execDescriptorStart {q : Fin 4096} {ridx : BitVec 32} {s : State} (h : s.Wf) :
    ResWf (execDescriptorStart q ridx s) := by
  unfold execDescriptorStart
  refine resWf_next ?_
  dsimp only
  split
  · exact wf_ite (wf_mirrorQueue (State.wf_mapDesc h)) h
  · exact h

theorem wf_execDescriptorNop {q : Fin 4096} {ridx : BitVec 32} {s : State} (h : s.Wf) :
    ResWf (execDescriptorNop q ridx s) := by
  unfold execDescriptorNop
  refine resWf_next ?_
  dsimp only
  split
  · exact wf_ite (wf_descEnd h) h
  · exact h

theorem wf_writeSignal {k : Nat} {d : Desc} {s : State} (h : s.Wf) : (writeSignal k d s).Wf :=
  wf_unitReq (State.wf_mapDesc h)

theorem wf_execChunkSignalWrite {q : Fin 4096} {ridx : BitVec 32} {s : State} (h : s.Wf) :
    ResWf (execChunkSignalWrite q ridx s) := by
  unfold execChunkSignalWrite
  refine resWf_next ?_
  dsimp only
  split
  · exact wf_ite (wf_writeSignal h) h
  · exact h

theorem wf_dropDesc {k : Nat} {ridx : BitVec 32} {s : State} (h : s.Wf) : (dropDesc k ridx s).Wf :=
  wf_mirrorQueue (State.wf_mapSq h)

theorem wf_sendNotice {k : Nat} {c : Word × Word × Word} {s : State} (h : s.Wf) : (sendNotice k c s).Wf :=
  wf_unitReq h

theorem wf_execCompletionWrite {q : Fin 4096} {ridx : BitVec 32} {s : State} (h : s.Wf) :
    ResWf (execCompletionWrite q ridx s) := by
  unfold execCompletionWrite
  refine resWf_next ?_
  dsimp only
  split
  · exact h
  · refine wf_ite h ?_
    refine wf_ite (wf_dropDesc h) ?_
    exact wf_ite (wf_sendNotice (wf_unitReq (State.wf_mapDesc h))) (wf_unitReq (State.wf_mapDesc h))

theorem wf_queueAnswer {u k ridx : Nat} {st : BitVec 7} {s : State} (h : s.Wf) :
    (queueAnswer u k ridx st s).Wf := by
  unfold queueAnswer
  refine wf_ite (wf_ite (wf_dropDesc h) (wf_ite (State.wf_mapDesc h) h)) ?_
  refine wf_ite (State.wf_event (wf_ite (wf_dropDesc h) (wf_ite (State.wf_mapDesc h) h))) ?_
  exact wf_queueFail (wf_ite (wf_dropDesc h) (wf_ite (State.wf_mapDesc h) h))

/-! ### The operations of Machine/Allots -/

theorem wf_freeErr {s : State} (h : s.Wf) : PairWf (freeErr s) :=
  wf_pair (wf_pickMany h)

theorem wf_descTake {k : Nat} {ridx : BitVec 32} {s : State} (h : s.Wf) : (descTake k ridx s).Wf :=
  State.wf_mapDesc h

theorem State.wf_gridCounts {s : State} (h : s.Wf) : s.gridCounts.Wf :=
  State.wf_setFl (State.wf_setFl h)

theorem wf_placeAllot {a x y w h : Nat} {ctx : BitVec 16} {kslot : Nat} {prot res : Bool} {cbase csize : Nat}
    {s : State} (hs : s.Wf) : (placeAllot a x y w h ctx kslot prot res cbase csize s).Wf :=
  State.wf_gridCounts (State.wf_journal (State.wf_mapAllot (State.wf_setRg (State.wf_setRg hs))))

theorem wf_placeServices {s : State} (h : s.Wf) : (placeServices s).Wf := by
  unfold placeServices
  refine wf_foldl (fun _ _ ht => ?_) h
  refine wf_ite ht ?_
  dsimp only
  split
  · exact State.wf_setFl (State.wf_setFl (State.wf_setFl (wf_placeAllot ht)))
  · exact State.wf_event (State.wf_setFl ht)

theorem wf_allotDesc {q : Nat} {ridx : BitVec 32} {opc : Nat} {act : Nat → Desc → State → State} {s : State}
    (hact : ∀ z0 z1 z2, z2.Wf → (act z0 z1 z2).Wf) (h : s.Wf) : (allotDesc q ridx opc act s).Wf := by
  unfold allotDesc
  split
  · exact h
  · exact wf_ite (wf_descEnd h) (hact _ _ _ h)

theorem wf_execCreate {q : Fin 4096} {ridx : BitVec 32} {s : State} (h : s.Wf) :
    ResWf (execCreate q ridx s) := by
  unfold execCreate
  refine resWf_next ?_
  refine wf_allotDesc (fun _ _ _ ht => ?_) h
  refine wf_ite (wf_descDone ht) ?_
  exact wf_ite (wf_descDone ht) (State.wf_gridCounts (wf_descTake (State.wf_mapGrid ht)))

theorem wf_forcedPlace {s : State} {d : Desc} (h : s.Wf) : OptWf PairWf (forcedPlace s d) := by
  unfold forcedPlace
  split
  · exact optWf_some (State.wf_mapLedger h)
  · intro x e
    obtain ⟨p, _, rfl⟩ := Option.map_eq_some_iff.1 e
    exact h

theorem wf_execAllotPlace {s : State} (h : s.Wf) : ResWf (execAllotPlace s) := by
  unfold execAllotPlace
  refine resWf_next ?_
  split
  · exact h
  · split
    · exact State.wf_gridCounts (State.wf_mapGrid h)
    · split
      · exact h
      next e =>
        exact wf_descDone (wf_placeAllot (State.wf_mapGrid (wf_of_some_pair (wf_forcedPlace h) e)))

theorem wf_allotNamed {q : Nat} {ridx : BitVec 32} {opc : Nat}
    {act : Nat → Desc → Nat → State → State} {s : State}
    (hact : ∀ z0 z1 z2 z3, z3.Wf → (act z0 z1 z2 z3).Wf) (h : s.Wf) : (allotNamed q ridx opc act s).Wf :=
  wf_allotDesc (fun _ _ _ ht => wf_ite (wf_descEnd ht) (hact _ _ _ _ ht)) h

theorem wf_allotRefuse {k : Nat} {ridx : BitVec 32} {s : State} (h : s.Wf) : (allotRefuse k ridx s).Wf :=
  wf_descDone (wf_freeErr h)

theorem wf_loadScratch {m : Nat} {b : List Byte} {s : State} (h : s.Wf) : (loadScratch m b s).Wf :=
  State.wf_setScratch (State.wf_mapGrid h)

theorem wf_execAllotLoad {q : Fin 4096} {ridx : BitVec 32} {d : InData} {s : State} (h : s.Wf) :
    ResWf (execAllotLoad q ridx d s) := by
  unfold execAllotLoad
  refine resWf_next ?_
  refine wf_allotNamed (fun _ _ _ _ h1 => ?_) h
  refine wf_ite h1 ?_
  refine wf_ite (wf_allotRefuse h1) ?_
  refine wf_ite (wf_descEnd h1) ?_
  refine wf_ite (wf_descDone h1) ?_
  refine wf_ite (wf_descDone (State.wf_setFl (State.wf_indig h1))) ?_
  refine wf_descTake ?_
  exact State.wf_mapAllot (wf_foldl (fun _ _ h2 => wf_loadScratch h2) (State.wf_setFl (State.wf_indig h1)))

theorem wf_execAllotLoadDone {q : Fin 4096} {ridx : BitVec 32} {s : State} (h : s.Wf) :
    ResWf (execAllotLoadDone q ridx s) := by
  unfold execAllotLoadDone
  refine resWf_next ?_
  dsimp only
  split
  · exact h
  · exact wf_descEnd (State.wf_setFl (State.wf_mapAllot h))

theorem wf_startMill {a m : Nat} {arg : Word} {entry : BitVec 21} {n : Nat} {s : State} (h : s.Wf) :
    (startMill a m arg entry n s).Wf :=
  wf_millBoundary (State.wf_mapMill h)

theorem wf_execAllotStart {q : Fin 4096} {ridx : BitVec 32} {s : State} (h : s.Wf) :
    ResWf (execAllotStart q ridx s) := by
  unfold execAllotStart
  refine resWf_next ?_
  refine wf_allotNamed (fun _ _ _ _ h1 => ?_) h
  refine wf_ite h1 ?_
  refine wf_ite (wf_allotRefuse h1) ?_
  refine wf_ite (wf_descDone h1) ?_
  refine wf_descTake ?_
  refine wf_foldl (fun _ _ h2 => wf_startMill h2) ?_
  exact State.wf_setFl (State.wf_mapAllot (State.wf_setFl (State.wf_mapQd h1 (fun _ => rfl))))

theorem wf_endStart {a : Nat} {s : State} (h : s.Wf) : (endStart a s).Wf := by
  unfold endStart
  split
  · exact h
  · exact wf_descDone (State.wf_mapAllot h)

theorem wf_haltMill {m : Nat} {s : State} (h : s.Wf) : (haltMill m s).Wf :=
  wf_ite (State.wf_mapMill (wf_millStop h)) h

theorem wf_haltAllot {a st : Nat} {s : State} (h : s.Wf) : (haltAllot a st s).Wf :=
  wf_foldl (fun _ _ ht => wf_haltMill ht) (State.wf_setFl h)

theorem wf_execAllotHalt {q : Fin 4096} {ridx : BitVec 32} {s : State} (h : s.Wf) :
    ResWf (execAllotHalt q ridx s) := by
  unfold execAllotHalt
  refine resWf_next ?_
  refine wf_allotNamed (fun _ _ _ _ ht => ?_) h
  refine wf_ite ht ?_
  exact wf_ite (wf_haltAllot (wf_descTake (State.wf_mapAllot ht))) (wf_descTake (State.wf_mapAllot ht))

theorem wf_execAllotHaltDone {a : Fin 64} {s : State} (h : s.Wf) : ResWf (execAllotHaltDone a s) := by
  unfold execAllotHaltDone
  refine resWf_next ?_
  split
  · exact h
  · refine wf_ite (wf_ite (wf_foldl (fun _ _ ht => wf_haltMill ht) h) h) ?_
    refine wf_ite ?_ ?_
    · refine State.wf_setFl ?_
      exact wf_descEnd (State.wf_mapAllot (wf_endStart (wf_ite (wf_foldl (fun _ _ ht => wf_haltMill ht) h) h)))
    · exact wf_descEnd (State.wf_mapAllot (wf_endStart (wf_ite (wf_foldl (fun _ _ ht => wf_haltMill ht) h) h)))

theorem wf_freeAllot {a : Nat} {s : State} (h : s.Wf) : (freeAllot a s).Wf :=
  wf_haltAllot h

theorem wf_execFree {q : Fin 4096} {ridx : BitVec 32} {s : State} (h : s.Wf) : ResWf (execFree q ridx s) := by
  unfold execFree
  refine resWf_next ?_
  exact wf_allotNamed (fun _ _ _ _ ht => wf_ite ht (wf_freeAllot (wf_descTake (State.wf_mapAllot ht)))) h

theorem wf_clearAllot {a : Nat} {s : State} (h : s.Wf) : (clearAllot a s).Wf := by
  unfold clearAllot
  refine State.wf_gridCounts ?_
  refine State.wf_setRg ?_
  exact State.wf_setRg (State.wf_mapGrid (wf_foldl (fun _ _ ht => State.wf_mapMill ht) (wf_clearLeases h)))

theorem wf_execAllotFreeDone {a : Fin 64} {s : State} (h : s.Wf) : ResWf (execAllotFreeDone a s) := by
  have hhalt : ((s.millsOf a.val).foldl (fun s m => haltMill m s) s).Wf := wf_foldl (fun _ _ ht => wf_haltMill ht) h
  unfold execAllotFreeDone
  refine resWf_next (wf_ite h (wf_ite hhalt (wf_clearAllot ?_)))
  split
  · refine wf_descEnd ?_
    split
    · exact wf_descEnd (wf_endStart hhalt)
    · exact wf_endStart hhalt
  · split
    · exact wf_descEnd (wf_endStart hhalt)
    · exact wf_endStart hhalt

/-! ### The operations of Machine/Region -/

theorem wf_svcCommit {b : Bank} {ws : List (Nat × List Byte)} {ended : Option (Nat × BitVec 32 × BitVec 7 × Word)}
    {commit : Option (Nat × Nat)} {after : State → State} {s : State} (hafter : ∀ z0, z0.Wf → (after z0).Wf)
    (h : s.Wf) : (svcCommit b ws ended commit after s).Wf := by
  unfold svcCommit
  refine wf_ite (State.wf_mirror h) ?_
  extract_lets s1
  have ht : State.Wf s1 := State.wf_addResync (State.wf_pokes h)
  refine hafter _ ?_
  split
  · exact wf_descDone ht
  · exact ht

theorem wf_headEvent {k : Nat} {o : OptRegion} {b : Nat} {st : BitVec 7} {s : State} (h : s.Wf) :
    (headEvent k o b st s).Wf :=
  wf_ite (State.wf_event h) h

/-! ### The operations of Machine/Green -/

theorem State.wf_mapGreen {s : State} {f : Green → Green} (h : s.Wf) : (s.mapGreen f).Wf :=
  State.wf_mapQd h (fun _ => rfl)

theorem wf_greenDesc {q : Nat} {ridx : BitVec 32} {opc : Nat} {act : Nat → Desc → State → State} {s : State}
    (hact : ∀ z0 z1 z2, z2.Wf → (act z0 z1 z2).Wf) (h : s.Wf) : (greenDesc q ridx opc act s).Wf := by
  unfold greenDesc
  split
  · exact h
  · exact hact _ _ _ h

theorem wf_execSeed {q : Fin 4096} {ridx : BitVec 32} {s : State} (h : s.Wf) : ResWf (execSeed q ridx s) := by
  unfold execSeed
  refine resWf_next ?_
  refine wf_greenDesc (fun _ _ _ ht => ?_) h
  refine wf_ite (wf_descEnd ht) ?_
  refine wf_ite (wf_descDone ht) ?_
  exact wf_ite (State.wf_mirror (wf_descEnd (State.wf_mapGreen ht))) (wf_descEnd (State.wf_mapGreen ht))

theorem State.wf_mapColl {s : State} {no : Nat} {f : Coll → Coll} (h : s.Wf) : (s.mapColl no f).Wf :=
  State.wf_mapGreen h

theorem wf_ringSend {s : State} {c : Coll} {kind chunk : Nat} {d : List Byte} (h : s.Wf) :
    (ringSend s c kind chunk d).Wf :=
  wf_emit h

theorem wf_collEnd {no : Nat} {st : BitVec 7} {result : Word} {forward : Bool} {s : State} (h : s.Wf) :
    (collEnd no st result forward s).Wf := by
  unfold collEnd
  split
  · exact h
  · refine wf_ite h ?_
    refine wf_ite (wf_ringSend (State.wf_mapColl (wf_foldl (fun _ _ ht => wf_descDone ht) h))) ?_
    exact State.wf_mapColl (wf_foldl (fun _ _ ht => wf_descDone ht) h)

theorem wf_collAbort {no node cause : Nat} {s : State} (h : s.Wf) : (collAbort no node cause s).Wf :=
  wf_collEnd (State.wf_event h)

theorem wf_memberEnd {no slot : Nat} {st : BitVec 7} {result : Word} {s : State} (h : s.Wf) :
    (memberEnd no slot st result s).Wf := by
  unfold memberEnd
  split
  · exact h
  · exact wf_descDone h

theorem wf_memberFail {no slot : Nat} {st : BitVec 7} {result : Word} {s : State} (h : s.Wf) :
    (memberFail no slot st result s).Wf :=
  wf_collAbort (wf_memberEnd h)

theorem wf_greenCount {no slot : Nat} {s : State} (h : s.Wf) : (greenCount no slot s).Wf := by
  unfold greenCount
  split
  · exact h
  · split
    · exact h
    · split
      · exact h
      · exact wf_ite h (wf_ite (State.wf_mirror h) (wf_raiseCount h))

theorem wf_collCheck {no : Nat} {s : State} (h : s.Wf) : (collCheck no s).Wf := by
  unfold collCheck
  split
  · exact h
  · exact wf_ite (State.wf_mapColl h) h

theorem wf_chunkAt {no slot chunk n : Nat} {s : State} (h : s.Wf) : (chunkAt no slot chunk n s).Wf :=
  wf_ite (wf_collCheck (wf_greenCount (State.wf_mapColl h))) (State.wf_mapColl h)

theorem wf_descWrites {k : Nat} {ridx : BitVec 32} {f : Nat → Nat} {s : State} (h : s.Wf) :
    (descWrites k ridx f s).Wf :=
  State.wf_mapDesc h

theorem wf_greenDone {no b : Nat} {o : OutReq} {s : State} (h : s.Wf) : (greenDone no b o s).Wf := by
  unfold greenDone
  dsimp only
  split
  · exact h
  · split
    · exact h
    · refine wf_ite (wf_memberFail (wf_descWrites h)) ?_
      refine wf_ite (wf_collCheck (wf_memberEnd (wf_descWrites h))) ?_
      exact wf_collCheck (wf_greenCount (State.wf_mapColl (wf_descWrites h)))

theorem wf_takeDigest {no : Nat} {fromPrev : Bool} {d : BitVec 128} {s : State} (h : s.Wf) :
    (takeDigest no fromPrev d s).Wf := by
  unfold takeDigest
  split
  · exact h
  · exact wf_ite (wf_collAbort h) (State.wf_mapColl h)

theorem wf_ringHello {no : Nat} {s : State} (h : s.Wf) : (ringHello no s).Wf := by
  unfold ringHello
  split
  · exact h
  · exact wf_ite h (wf_foldl (fun _ _ ht => wf_takeDigest ht) (State.wf_mapGreen (wf_emits h)))

theorem wf_greenEnter {k : Nat} {d : Desc} {s : State} (h : s.Wf) : (greenEnter k d s).Wf := by
  unfold greenEnter
  refine wf_ite (wf_descEnd h) ?_
  split
  · split
    · exact wf_descDone h
    · exact wf_ite (wf_descDone h) (wf_descTake (State.wf_mapColl h))
  · split
    · exact h
    · exact wf_ringHello (wf_descTake (State.wf_mapGreen h))

theorem wf_collStart {c : Coll} {s : State} (h : s.Wf) : (collStart c s).Wf := by
  unfold collStart
  extract_lets share lead last s1 s2 s3
  have h1 : s1.Wf := by
    unfold s1
    clear_value last
    cases last with
    | none => exact h
    | some m => exact State.wf_syncEnd h
  have h3 : s3.Wf := wf_foldl (fun _ _ ht => State.wf_mapDesc ht) (State.wf_mapColl h1)
  refine wf_ite (State.wf_mapColl (wf_foldl (fun _ _ ht => wf_descEnd ht) h3)) ?_
  exact wf_foldl (fun _ _ ht => wf_greenCount ht) h3

theorem wf_collBegin {c : Coll} {s : State} (h : s.Wf) : (collBegin c s).Wf := by
  unfold collBegin
  refine wf_ite (wf_collStart h) ?_
  dsimp only
  split
  · exact wf_collEnd (wf_headEvent h)
  · exact wf_collStart h

theorem wf_execRingDigest {ctx : BitVec 16} {coll : BitVec 32} {fromPrev : Bool} {digest : BitVec 128}
    {s : State} (h : s.Wf) : ResWf (execRingDigest ctx coll fromPrev digest s) := by
  unfold execRingDigest
  refine resWf_next ?_
  split
  · exact State.wf_mapGreen h
  · exact wf_foldl (fun _ _ ht => wf_takeDigest ht) h

/-! ### The operations of Machine/GreenChunk -/

theorem wf_greenWrite {no chunk slot : Nat} {c : Coll} {gen : Byte} {a : Word} {d : List Byte} {s : State}
    (h : s.Wf) : (greenWrite no chunk slot c gen a d s).Wf := by
  unfold greenWrite
  split
  · exact h
  · exact wf_unitReq (wf_descWrites h)

theorem wf_greenWrites {no chunk slot : Nat} {ws : List (Word × List Byte)} {s : State} (h : s.Wf) :
    (greenWrites no chunk slot ws s).Wf := by
  unfold greenWrites
  split
  · exact h
  · exact wf_ite h (wf_foldl (fun _ _ ht => wf_greenWrite ht) (wf_chunkAt h))

theorem wf_writePiece {no chunk slot first : Nat} {icrc : Option (BitVec 32)} {p : Piece} {s : State} (h : s.Wf) :
    (writePiece no chunk slot first icrc p s).Wf := by
  unfold writePiece
  split
  · exact h
  · refine wf_ite (wf_greenWrites h) ?_
    refine wf_greenWrites ?_
    refine wf_ite h ?_
    split
    · exact h
    · exact wf_draw h

theorem wf_writeSum {no c : Nat} {p : Piece} {icrc : Nat → Option (BitVec 32)} {s : State} (h : s.Wf) :
    (writeSum no c p icrc s).Wf := by
  unfold writeSum
  split
  · exact h
  · exact wf_foldl (fun _ _ ht => wf_writePiece ht) h

theorem wf_finishSum {no c : Nat} {as : List Acc} {icrc : Nat → Option (BitVec 32)} {s : State} (h : s.Wf) :
    (finishSum no c as icrc s).Wf := by
  unfold finishSum
  split
  · exact h
  · refine wf_ite (wf_ite (State.wf_mapColl h) (wf_ringSend (State.wf_mapColl h))) ?_
    exact wf_ite (wf_writeSum (State.wf_watch h)) (wf_ringSend (wf_writeSum (State.wf_watch h)))

theorem wf_ringMerge {no c : Nat} {icrc : Nat → Option (BitVec 32)} {s : State} (h : s.Wf) :
    (ringMerge no c icrc s).Wf := by
  unfold ringMerge
  split
  · exact h
  · dsimp only
    split
    · exact h
    · refine wf_ite (wf_ite (wf_finishSum (State.wf_mapColl h)) (wf_ringSend (State.wf_mapColl h))) ?_
      split
      · exact h
      · split
        · exact h
        · exact wf_ite (wf_finishSum (State.wf_mapColl h)) (wf_ringSend (State.wf_mapColl h))

theorem wf_gatherDone {no c : Nat} {s : State} (h : s.Wf) : (gatherDone no c s).Wf := by
  unfold gatherDone
  split
  · exact h
  · exact wf_ite h (wf_foldl (fun _ _ ht => wf_writePiece ht) (State.wf_mapColl h))

theorem wf_gatherTake {no c pos : Nat} {d : List Byte} {s : State} (h : s.Wf) : (gatherTake no c pos d s).Wf :=
  wf_gatherDone (State.wf_mapColl h)

theorem wf_execRingChunk {ctx : BitVec 16} {coll : BitVec 32} {c : Nat} {gather : Bool} {d : List Byte}
    {s : State} (h : s.Wf) : ResWf (execRingChunk ctx coll c gather d s) := by
  unfold execRingChunk
  refine resWf_next ?_
  refine wf_foldl (fun _ _ ht => ?_) h
  refine wf_ite (wf_ringMerge (State.wf_mapColl ht)) ?_
  refine wf_ite (State.wf_mapColl (wf_ite ht (wf_ringSend ht))) ?_
  exact wf_ite (wf_writeSum (wf_ite ht (wf_ringSend ht))) (wf_gatherTake (wf_ite ht (wf_ringSend ht)))

theorem wf_expertChunk {e : Coll} {c : Nat} {d : GreenIn} {s : State} (h : s.Wf) : (expertChunk e c d s).Wf := by
  unfold expertChunk
  dsimp only
  split
  · exact h
  · refine wf_ite (wf_collEnd h) ?_
    refine wf_foldl (fun _ _ ht => ?_) h
    refine wf_greenWrites ?_
    split
    · exact wf_ite (State.wf_mapDesc ht) ht
    · exact ht

theorem wf_sentinel {e : Coll} {c : Nat} {as : List Acc} {d : GreenIn} {s : State} (h : s.Wf) :
    PairWf (sentinel e c as d s) := by
  unfold sentinel
  refine wf_ite h ?_
  refine wf_ite (wf_pair (State.wf_count h)) ?_
  refine wf_ite ?_ ?_
  · exact wf_pair (State.wf_score (State.wf_event (State.wf_setRg (State.wf_count (State.wf_count h)))))
  · refine wf_ite ?_ ?_
    · exact wf_pair (State.wf_score (State.wf_event (State.wf_setRg (State.wf_count (State.wf_count h)))))
    · refine wf_pair ?_
      refine State.wf_count ?_
      refine State.wf_score ?_
      refine State.wf_score ?_
      exact State.wf_score (State.wf_event (State.wf_setRg (State.wf_count (State.wf_count h))))

theorem wf_chunkGo {e : Coll} {c : Nat} {d : GreenIn} {s : State} (h : s.Wf) : (chunkGo e c d s).Wf := by
  unfold chunkGo
  refine wf_ite (wf_expertChunk h) ?_
  refine wf_ite ?_ (wf_ite (wf_foldl (fun _ _ ht => wf_writePiece ht) h) (wf_gatherTake (wf_ringSend h)))
  split
  next e1 =>
    exact wf_ite (wf_collEnd (wf_of_pair (wf_sentinel h) e1)) (State.wf_mapColl (wf_of_pair (wf_sentinel h) e1))
  next e2 =>
    refine wf_ite (wf_finishSum (wf_of_pair (wf_sentinel h) e2)) ?_
    exact wf_ringMerge (State.wf_mapColl (wf_of_pair (wf_sentinel h) e2))

theorem wf_execGreenChunk {ctx : BitVec 16} {coll : BitVec 32} {c : Nat} {d : GreenIn} {s : State} (h : s.Wf) :
    ResWf (execGreenChunk ctx coll c d s) := by
  unfold execGreenChunk
  refine resWf_next ?_
  split
  · exact h
  · refine wf_ite h ?_
    extract_lets _ _ _ s1 _
    have h1 : State.Wf s1 := wf_foldl (fun _ _ h2 => wf_ite (State.wf_indig h2) h2) h
    split
    · exact wf_memberFail (State.wf_mapColl h1)
    · exact wf_chunkGo (State.wf_mapColl h1)

/-! ### The operations of Machine/Ferry -/

theorem State.wf_mapFerry {s : State} {f : Ferry → Ferry} (h : s.Wf) : (s.mapFerry f).Wf :=
  State.wf_mapQd h (fun _ => rfl)

theorem wf_sealSegment {rack xid segi nseg kind : Nat} {d : List Byte} {s : State} (h : s.Wf) :
    PairWf (sealSegment rack xid segi nseg kind d s) :=
  wf_pair (State.wf_mapFerry h)

theorem wf_sendSegment {rack : Nat} {g : Segment} {s : State} (h : s.Wf) : (sendSegment rack g s).Wf :=
  wf_ite h (wf_ferryOut h)

theorem wf_sendPart {t : FerryTx} {i : Nat} {s : State} (h : s.Wf) : (sendPart t i s).Wf :=
  wf_ite h (wf_sendSegment (wf_sealSegment h))

theorem wf_openTransfer {t : FerryTx} {s : State} (h : s.Wf) : (openTransfer t s).Wf :=
  wf_foldl (fun _ _ ht => wf_sendPart ht) (State.wf_mapFerry h)

theorem State.wf_mapTx {s : State} {p : FerryTx → Bool} {f : FerryTx → FerryTx} (h : s.Wf) :
    (s.mapTx p f).Wf :=
  State.wf_mapFerry h

theorem State.wf_mapRx {s : State} {p : FerryRx → Bool} {f : FerryRx → FerryRx} (h : s.Wf) :
    (s.mapRx p f).Wf :=
  State.wf_mapFerry h

theorem wf_issueRecords {rack xid : Nat} {ps : List Packet} {s : State} (h : s.Wf) :
    (issueRecords rack xid ps s).Wf :=
  wf_foldl (fun _ _ ht => wf_ite (State.wf_mapFerry ht) (wf_unitReq (State.wf_mapFerry ht))) h

theorem wf_answerFences {s : State} (h : s.Wf) : (answerFences s).Wf :=
  State.wf_mapFerry h

theorem wf_nextResp {rack xid : Nat} {s : State} (h : s.Wf) : (nextResp rack xid s).Wf := by
  unfold nextResp
  split
  · exact h
  · split
    · exact State.wf_mapFerry h
    · exact wf_openTransfer (State.wf_mapRx h)

theorem wf_ferrySettle {s : State} (h : s.Wf) : (ferrySettle s).Wf := by
  unfold ferrySettle
  refine wf_foldl (fun _ _ ht => ?_) (wf_answerFences h)
  exact wf_ite ht (wf_nextResp (State.wf_mapRx (State.wf_mapFerry ht)))

theorem wf_relayAnswered {o : OutReq} {no : Nat} {s : State} (h : s.Wf) : (relayAnswered o no s).Wf :=
  wf_ferrySettle (State.wf_mapFerry h)

theorem wf_forwardSegment {g : Segment} {s : State} (h : s.Wf) : (forwardSegment g s).Wf :=
  wf_ite h (wf_sendSegment h)

theorem wf_takeSegment {g : Segment} {d : List Byte} {s : State} (h : s.Wf) : PairWf (takeSegment g d s) :=
  wf_pair (State.wf_mapFerry h)

theorem wf_ferrySegment {kind : Nat} {g : Segment} {f : List Byte → State → State} {s : State}
    (hf : ∀ z0 z1, z1.Wf → (f z0 z1).Wf) (h : s.Wf) : (ferrySegment kind g f s).Wf := by
  unfold ferrySegment
  refine wf_ite h ?_
  refine wf_ite (wf_forwardSegment h) ?_
  split
  · exact h
  · exact hf _ _ h

theorem wf_execFerryData (p : Fin 160) {g : Segment} {s : State} (h : s.Wf) : ResWf (execFerryData p g s) := by
  unfold execFerryData
  refine resWf_next ?_
  refine wf_ferrySegment (fun _ _ ht => ?_) h
  refine wf_ite ?_ (wf_takeSegment ht)
  split
  · exact wf_takeSegment ht
  · exact wf_ferrySettle (wf_issueRecords (wf_takeSegment ht))

theorem wf_releaseFences {s : State} (h : s.Wf) : (releaseFences s).Wf :=
  wf_foldl (fun _ _ ht => wf_ite ht (wf_emit (State.wf_mapFerry ht))) h

theorem wf_respBack {no : Nat} {p : Packet} {s : State} (h : s.Wf) : (respBack no p s).Wf :=
  wf_ite (State.wf_mapFerry (State.wf_mapTx h)) (wf_emit (State.wf_mapTx h))

theorem wf_execFerryResp (p : Fin 160) {g : Segment} {s : State} (h : s.Wf) : ResWf (execFerryResp p g s) := by
  unfold execFerryResp
  refine resWf_next ?_
  refine wf_ferrySegment (fun _ _ h1 => ?_) h
  split
  · exact State.wf_mapRx h1
  · refine wf_ite ?_ (wf_takeSegment h1)
    split
    · exact wf_takeSegment h1
    · exact wf_releaseFences (State.wf_mapFerry (wf_foldl (fun _ _ h2 => wf_respBack h2) (wf_takeSegment h1)))

theorem wf_execFerryAck (p : Fin 160) {g : Segment} {s : State} (h : s.Wf) : ResWf (execFerryAck p g s) := by
  unfold execFerryAck
  refine resWf_next ?_
  refine wf_ferrySegment (fun _ _ ht => ?_) h
  dsimp only
  split
  · exact State.wf_mapTx ht
  · exact wf_ite (wf_nextResp (State.wf_mapFerry (State.wf_mapTx ht))) (State.wf_mapTx ht)

theorem wf_rackLost {rack : Nat} {s : State} (h : s.Wf) : (rackLost rack s).Wf := by
  unfold rackLost
  refine wf_releaseFences ?_
  exact wf_foldl (fun _ _ ht => wf_collAbort ht) (State.wf_event (wf_emits (wf_emits (State.wf_mapFerry h))))

/-! ### The operations of Machine/Rsl -/

theorem State.wf_writeReg {s : State} {off : Nat} {v : Word} (h : s.Wf) : OptWf State.Wf (s.writeReg off v) := by
  unfold State.writeReg
  split
  · exact optWf_none
  · exact wf_ite optWf_none (optWf_some (State.wf_setRg h))

theorem wf_regDrop {off : Nat} {v : Word} {ans : BitVec 7 → List Out} {s : State} (h : s.Wf) :
    (regDrop off v ans s).Wf :=
  wf_emits (State.wf_refused h)

theorem State.wf_mapRsl {s : State} {l : RslLink} {f : Rsl → Rsl} (h : s.Wf) : (s.mapRsl l f).Wf := by
  unfold State.mapRsl
  split <;> exact State.wf_mapQd h (fun _ => rfl)

theorem wf_rslSend {l : RslLink} {typ : Nat} {payload : List Byte} {s : State} (h : s.Wf) :
    (rslSend l typ payload s).Wf :=
  State.wf_mapRsl (wf_emit h)

theorem wf_rslBoth {typ : Nat} {payload : List Byte} {s : State} (h : s.Wf) : (rslBoth typ payload s).Wf :=
  wf_rslSend (wf_rslSend h)

theorem wf_rslAnswer {l : RslLink} {typ seq : Byte} {payload : List Byte} {s : State} (h : s.Wf) :
    (rslAnswer l typ seq payload s).Wf :=
  State.wf_mapRsl (wf_emit h)

theorem wf_rslRequest {l : RslLink} {seq : Byte} {act : State → State} {s : State}
    (hact : ∀ z0, z0.Wf → (act z0).Wf) (h : s.Wf) : (rslRequest l seq act s).Wf := by
  unfold rslRequest
  split
  · exact wf_ite h (State.wf_count (wf_emit h))
  · exact hact _ h

theorem wf_rslPlace {l : RslLink} {typ seq : Byte} {s : State} (h : s.Wf) : (rslPlace l typ seq s).Wf :=
  State.wf_mapRsl h

theorem State.wf_eventBoth {s : State} {ring : Nat} {e : Ev} (h : s.Wf) : (s.eventBoth ring e).Wf :=
  wf_rslBoth (State.wf_event h)

theorem wf_takeRef {l : RslLink} {s : State} (h : s.Wf) : (takeRef l s).Wf :=
  State.wf_setFl (State.wf_setFl h)

theorem wf_startHoldover {s : State} (h : s.Wf) : (startHoldover s).Wf :=
  wf_ite h (State.wf_mapQd (State.wf_setFl (State.wf_score (State.wf_setFl h))) (fun _ => rfl))

theorem wf_refLost {l : RslLink} {s : State} (h : s.Wf) : (refLost l s).Wf := by
  unfold refLost
  refine wf_ite h ?_
  extract_lets s1
  have ht : State.Wf s1 := State.wf_score (State.wf_setFl h)
  split
  · exact wf_takeRef ht
  · exact wf_startHoldover ht

theorem wf_execReferenceReturn {l : RslLink} {s : State} (h : s.Wf) : ResWf (execReferenceReturn l s) := by
  unfold execReferenceReturn
  refine resWf_next ?_
  extract_lets _ s1
  have ht : State.Wf s1 := by
    unfold s1
    split
    · exact wf_takeRef (State.wf_setFl h)
    · exact State.wf_setFl h
  exact wf_ite (State.wf_setFl ht) ht

theorem wf_setLock {l : RslLink} {on : Bool} {s : State} (h : s.Wf) : (setLock l on s).Wf := by
  unfold setLock
  refine wf_ite h ?_
  extract_lets s1
  have ht : State.Wf s1 := State.wf_event (State.wf_setFl h)
  refine wf_ite ?_ (wf_refLost ht)
  split
  · exact wf_ite (wf_takeRef ht) ht
  · exact ht

theorem wf_slipLink {l : RslLink} {lock : Bool} {s : State} (h : s.Wf) : (slipLink l lock s).Wf :=
  wf_setLock (State.wf_setFl h)

theorem wf_meetMark {m : Nat} {s : State} (h : s.Wf) : (meetMark m s).Wf :=
  State.wf_mapQd h (fun _ => rfl)

theorem wf_clearHold {m : Nat} {s : State} (h : s.Wf) : (clearHold m s).Wf :=
  wf_ite (State.wf_setFl (State.wf_setFl h)) h

/-! ### The operations of Machine/SvapoRegs -/

theorem wf_svDrop {off : Nat} {v : Word} {s : State} (h : s.Wf) : PairWf (svDrop off v s) :=
  wf_pair (State.wf_svRefused h)

theorem wf_svTmoWrite {v : Word} {s : State} (h : s.Wf) : PairWf (svTmoWrite v s) :=
  wf_ite h (wf_ite (wf_svDrop h) (wf_pair (State.wf_setSr h)))

theorem wf_svCtlWrite {v : Word} {s : State} (h : s.Wf) : PairWf (svCtlWrite v s) := by
  unfold svCtlWrite
  refine wf_pair ?_
  refine wf_ite (wf_pumpAll (wf_ite (State.wf_setSr h) (wf_emit (State.wf_setSr h)))) ?_
  exact wf_ite (State.wf_setSr h) (wf_emit (State.wf_setSr h))

theorem wf_svQctlWrite {q : Nat} {v : Word} {s : State} (h : s.Wf) : PairWf (svQctlWrite q v s) :=
  wf_ite (wf_svDrop h) (wf_pair (State.wf_setSr h))

theorem wf_svLimWrite {v : Word} {s : State} (h : s.Wf) : PairWf (svLimWrite v s) :=
  wf_ite (wf_svDrop h) (wf_pair (wf_pumpAll (State.wf_setSr h)))

theorem wf_svCaWrite {v : Word} {s : State} (h : s.Wf) : PairWf (svCaWrite v s) :=
  wf_ite h (wf_ite (wf_svDrop h) (wf_pair (wf_ite (wf_caFlush (State.wf_setSrf h)) (State.wf_setSrf h))))

theorem wf_svPortWrite {n : Fin 18} {v : Word} {s : State} (h : s.Wf) : PairWf (svPortWrite n v s) := by
  unfold svPortWrite
  refine wf_pair ?_
  refine wf_ite ?_ ?_
  · refine wf_pmAsk ?_
    exact wf_ite (wf_portReset (State.wf_setSrf (State.wf_setSrf h))) (State.wf_setSrf (State.wf_setSrf h))
  · refine wf_ite ?_ ?_
    · refine wf_pmAsk ?_
      exact wf_ite (wf_portReset (State.wf_setSrf (State.wf_setSrf h))) (State.wf_setSrf (State.wf_setSrf h))
    · exact wf_ite (wf_portReset (State.wf_setSrf (State.wf_setSrf h))) (State.wf_setSrf (State.wf_setSrf h))

theorem wf_svChanWrite {off : Nat} {v : Word} {s : State} (h : s.Wf) : PairWf (svChanWrite off v s) := by
  unfold svChanWrite
  refine wf_ite h ?_
  refine wf_ite (wf_svDrop h) ?_
  refine wf_ite h ?_
  refine wf_ite (wf_svCtlWrite h) ?_
  refine wf_ite (wf_svTmoWrite h) ?_
  refine wf_ite (wf_svQctlWrite h) ?_
  refine wf_ite (wf_pair (State.wf_setSr h)) ?_
  refine wf_ite (wf_pair (State.wf_setSr h)) ?_
  refine wf_ite (wf_ite (wf_svDrop h) (wf_pair (State.wf_drain h))) ?_
  refine wf_ite (wf_svWtCmd h) ?_
  refine wf_ite (wf_pair (State.wf_setSr h)) ?_
  refine wf_ite (wf_svLimWrite h) ?_
  exact wf_ite (wf_svCaWrite h) (wf_ite (wf_svPortWrite h) (wf_ite (wf_apertureWrite h) h))

theorem State.wf_mapSvKey {s : State} {k : Nat} {f : KeySlot → KeySlot} (h : s.Wf) : (s.mapSvKey k f).Wf :=
  State.wf_mapSv h (fun _ => rfl)

theorem wf_keyRefused {k : Nat} {ctx : BitVec 16} {s : State} (h : s.Wf) : (keyRefused k ctx s).Wf :=
  State.wf_svEvent h

theorem wf_keyCommit {s : State} (h : s.Wf) : PairWf (keyCommit s) := by
  unfold keyCommit
  dsimp only
  split
  · exact h
  · refine wf_ite h ?_
    refine wf_ite (wf_pair (wf_keyRefused h)) ?_
    exact wf_ite (wf_pair (State.wf_mapSvKey h)) (wf_ite h (wf_pair (wf_keyRefused h)))

theorem wf_keyZeroize {k : Nat} {s : State} (h : s.Wf) : (keyZeroize k s).Wf :=
  State.wf_mapNode (State.wf_mapSvKey h)

theorem wf_keyRetireCmd {k phase : Nat} {s : State} (h : s.Wf) : PairWf (keyRetireCmd k phase s) :=
  wf_ite (wf_pair (wf_ite (State.wf_mapSvKey h) h)) (wf_pair (wf_ite (wf_keyZeroize h) h))

theorem wf_svMgmtWrite {plane off : Nat} {v : Word} {s : State} (h : s.Wf) :
    PairWf (svMgmtWrite plane off v s) := by
  unfold svMgmtWrite
  refine wf_ite h ?_
  refine wf_ite (wf_svDrop h) ?_
  refine wf_ite h ?_
  refine wf_ite h ?_
  refine wf_ite (wf_pair (wf_svLiveWrite h)) ?_
  refine wf_ite (wf_keyCommit h) ?_
  refine wf_ite (wf_keyRetireCmd h) ?_
  exact wf_ite (wf_pair (State.wf_mapSv h (fun _ => rfl))) (wf_ite h (wf_pair (State.wf_setSr h)))

theorem wf_execManagementAccess {plane : Fin 18} {p : Packet} {s : State} (h : s.Wf) :
    ResWf (execManagementAccess plane p s) := by
  unfold execManagementAccess
  refine resWf_next ?_
  refine wf_ite h ?_
  split
  · exact wf_rxFail h
  · exact wf_ite (wf_failPkt h) (wf_ite (wf_reply h) (wf_reply (wf_svMgmtWrite h)))

theorem wf_execBlockReset {s : State} (h : s.Wf) : ResWf (execBlockReset s) := by
  obtain ⟨hhbm, hmhbm, hregs, _⟩ := h
  exact resWf_next ⟨hhbm, hmhbm, hregs, Tbl.wf_nil _⟩

/-! ### The operations of Machine/Customs -/

theorem State.wf_mapCust {s : State} {f : Cust → Cust} (h : s.Wf) : (s.mapCust f).Wf :=
  State.wf_mapQd h (fun _ => rfl)

theorem State.wf_mapKs {s : State} {k : Nat} {f : KeySlot → KeySlot} (h : s.Wf) : (s.mapKs k f).Wf :=
  State.wf_mapCust h

theorem wf_ksEvent {k : Nat} {st : BitVec 7} {s : State} (h : s.Wf) : (ksEvent k st s).Wf :=
  State.wf_event h

theorem wf_newIdentity {s : State} (h : s.Wf) : (newIdentity s).Wf :=
  State.wf_mapQd (State.wf_mapCust (wf_draw (wf_draw h))) (fun _ => rfl)

theorem wf_wipeReplay {k : Nat} {s : State} (h : s.Wf) : (wipeReplay k s).Wf :=
  State.wf_mapNode (State.wf_mapNode h)

theorem wf_endSlotWork {k : Nat} {s : State} (h : s.Wf) : (endSlotWork k s).Wf := by
  unfold endSlotWork
  refine State.wf_mapGreen ?_
  exact wf_foldl (fun _ _ h1 => wf_freeAllot (State.wf_mapAllot h1)) (wf_foldl (fun _ _ h2 => wf_collEnd h2) h)

theorem wf_wipeSlot {k : Nat} {s : State} (h : s.Wf) : (wipeSlot k s).Wf :=
  wf_wipeReplay (wf_ksEvent (State.wf_mapKs h))

theorem wf_dropJobs {s : State} (h : s.Wf) : (dropJobs s).Wf := by
  unfold dropJobs
  refine wf_foldl (fun _ _ ht => ?_) (State.wf_mapSrcs (State.wf_mapCust h))
  split
  · exact wf_descEnd ht
  · exact ht

theorem wf_zeroizeAll {empty : Bool} {s : State} (h : s.Wf) : (zeroizeAll empty s).Wf := by
  unfold zeroizeAll
  refine State.wf_mapFerry ?_
  refine State.wf_mapGreen ?_
  refine State.wf_mapCust ?_
  exact wf_foldl (fun _ _ h1 => wf_wipeSlot h1) (wf_dropJobs (wf_foldl (fun _ _ h2 => wf_endSlotWork h2) h))

theorem wf_customsError {test : Nat} {s : State} (h : s.Wf) : (customsError test s).Wf :=
  State.wf_event (State.wf_setFl (State.wf_setFl (State.wf_setFl (State.wf_mapCust (wf_zeroizeAll h)))))

theorem wf_custWrite {k : Nat} {ridx : BitVec 32} {slot : Nat} {gen : Byte} {fa : Word} {data : List Byte}
    {s : State} (h : s.Wf) : (custWrite k ridx slot gen fa data s).Wf :=
  wf_foldl (fun _ _ ht => wf_unitReq (wf_descWrites ht)) h

theorem wf_custDesc {q : Nat} {ridx : BitVec 32} {opc : Nat} {act : Nat → Desc → State → State} {s : State}
    (hact : ∀ z0 z1 z2, z2.Wf → (act z0 z1 z2).Wf) (h : s.Wf) : (custDesc q ridx opc act s).Wf := by
  unfold custDesc
  split
  · exact h
  · exact wf_ite h (wf_ite (wf_descEnd h) (wf_ite (wf_descEnd h) (hact _ _ _ (wf_descTake h))))

theorem wf_custSta {k slot c off : Nat} {v : Word} {s : State} (h : s.Wf) : (custSta k slot c off v s).Wf :=
  wf_unitReq h

theorem wf_sendLoad {k slot : Nat} {s : State} (h : s.Wf) : (sendLoad k slot s).Wf :=
  wf_foldl (fun _ _ ht => wf_custSta ht) (wf_draw (wf_draw h))

theorem wf_notReached {k slot : Nat} {s : State} (h : s.Wf) : (notReached k slot s).Wf :=
  State.wf_event h

theorem State.wf_mapJob {s : State} {k : Nat} {retire : Bool} {f : CustJob → CustJob} (h : s.Wf) :
    (s.mapJob k retire f).Wf :=
  State.wf_mapCust h

theorem wf_deliverEnd {k : Nat} {s : State} (h : s.Wf) : (deliverEnd k s).Wf := by
  unfold deliverEnd
  split
  · refine wf_ite h ?_
    dsimp only
    split
    · exact wf_descDone (State.wf_mapCust h)
    · exact State.wf_mapCust h
  · exact h

theorem wf_holderDone {k slot : Nat} {retire ok : Bool} {s : State} (h : s.Wf) :
    (holderDone k slot retire ok s).Wf := by
  unfold holderDone
  split
  · exact h
  · refine wf_ite h ?_
    refine wf_ite (wf_ite (State.wf_mapJob h) (wf_notReached (State.wf_mapJob h))) ?_
    refine wf_deliverEnd ?_
    refine wf_ite (State.wf_mapCust (wf_ite (State.wf_mapJob h) (wf_notReached (State.wf_mapJob h)))) ?_
    exact wf_ite (State.wf_mapJob h) (wf_notReached (State.wf_mapJob h))

theorem wf_custDone {k slot c : Nat} {o : OutReq} {s : State} (h : s.Wf) : (custDone k slot c o s).Wf := by
  unfold custDone
  dsimp only
  split
  · refine wf_ite (wf_holderDone h) ?_
    refine wf_ite h ?_
    split
    · exact wf_ite (wf_custSta h) h
    · exact h
  · exact wf_holderDone h
  · exact wf_holderDone h
  · exact h

theorem wf_deliverKey {q : Nat} {ridx : BitVec 32} {k : Nat} {key e : List Byte} {s : State} (h : s.Wf) :
    (deliverKey q ridx k key e s).Wf := by
  unfold deliverKey
  refine wf_deliverEnd ?_
  refine wf_foldl (fun _ _ h1 => wf_sendLoad h1) ?_
  exact State.wf_mapCust (wf_foldl (fun _ _ h2 => wf_notReached h2) (wf_ksEvent (State.wf_mapKs h)))

theorem wf_deliverEnvelope {k : Nat} {d : Desc} {e : List Byte} {s : State} (h : s.Wf) :
    (deliverEnvelope k d e s).Wf := by
  unfold deliverEnvelope
  refine wf_ite (wf_descEnd h) ?_
  refine wf_ite (wf_descEnd h) ?_
  refine wf_ite (wf_descEnd h) ?_
  refine wf_ite ?_ ?_
  · split
    · exact wf_ite (wf_descDone h) (wf_descEnd h)
    · exact wf_descEnd h
  · split
    · exact wf_descEnd h
    · exact wf_ite (wf_deliverKey h) (wf_descDone (State.wf_mapFerry h))

theorem wf_startRetire {k : Nat} {desc : Option (Nat × BitVec 32)} {s : State} (h : s.Wf) :
    (startRetire k desc s).Wf := by
  unfold startRetire
  refine wf_foldl (fun _ _ ht => wf_custSta ht) ?_
  refine State.wf_mapCust ?_
  refine wf_endSlotWork ?_
  refine wf_ksEvent ?_
  refine State.wf_mapKs ?_
  split
  · split
    · exact wf_descEnd (State.wf_mapSrcs (State.wf_mapCust h))
    · exact State.wf_mapSrcs (State.wf_mapCust h)
  · exact State.wf_mapSrcs (State.wf_mapCust h)

theorem wf_execRetire {q : Fin 4096} {ridx : BitVec 32} {s : State} (h : s.Wf) :
    ResWf (execRetire q ridx s) := by
  unfold execRetire
  refine resWf_next ?_
  refine wf_custDesc (fun _ _ _ ht => ?_) h
  exact wf_ite (wf_descEnd ht) (wf_ite (wf_descEnd (wf_freeErr ht)) (wf_startRetire ht))

theorem wf_keyRetire {v : Word} {ans : BitVec 7 → List Out} {s : State} (h : s.Wf) : (keyRetire v ans s).Wf :=
  wf_ite (wf_emits (State.wf_refused h)) (wf_ite (wf_regDrop h) (wf_startRetire (wf_emits h)))

theorem wf_execRetireDrainEnd {k : Fin 64} {s : State} (h : s.Wf) : ResWf (execRetireDrainEnd k s) := by
  unfold execRetireDrainEnd
  refine resWf_next ?_
  split
  · exact h
  · exact wf_ite h (wf_foldl (fun _ _ ht => wf_custSta ht) (State.wf_mapJob (wf_wipeSlot h)))

theorem wf_execRetireComplete {k : Fin 64} {s : State} (h : s.Wf) : ResWf (execRetireComplete k s) := by
  unfold execRetireComplete
  refine resWf_next ?_
  split
  · exact h
  · refine wf_ite h ?_
    dsimp only
    split
    · exact wf_descDone (State.wf_mapKs (State.wf_mapCust h))
    · exact State.wf_mapKs (State.wf_mapCust h)

theorem wf_millBlock {m : Nat} {s : State} (h : s.Wf) : PairWf (millBlock m s) :=
  wf_foldl (p := PairWf) (fun _ _ ht => wf_pair (wf_millTelemetry ht)) h

theorem wf_execCounters {q : Fin 4096} {ridx : BitVec 32} {s : State} (h : s.Wf) :
    ResWf (execCounters q ridx s) := by
  unfold execCounters
  refine resWf_next ?_
  refine wf_custDesc (fun _ _ _ h1 => ?_) h
  refine wf_ite (wf_descEnd h1) ?_
  refine wf_ite (wf_descEnd h1) ?_
  refine wf_ite (wf_descEnd h1) ?_
  exact wf_descDone (wf_custWrite (wf_foldl (p := PairWf) (fun _ _ h2 => wf_pair (wf_millBlock h2)) h1))

theorem wf_scrubNode {b : Bank} {k : Nat} {s : State} (h : s.Wf) : (scrubNode b k s).Wf :=
  State.wf_mapHbm h fun _ hx => wf_foldl (p := fun x : Hbm => x.wf = true) (fun _ _ hy => Hbm.wf_zero hy) hx

theorem wf_custScrub {v : Word} {ans : BitVec 7 → List Out} {s : State} (h : s.Wf) : (custScrub v ans s).Wf := by
  unfold custScrub
  refine wf_ite (wf_emits (State.wf_refused h)) ?_
  exact wf_ite (wf_regDrop h) (wf_emits (State.wf_setFl (State.wf_mapCust (wf_scrubNode (wf_scrubNode h)))))

theorem wf_custCtl {v : Word} {ans : BitVec 7 → List Out} {s : State} (h : s.Wf) : (custCtl v ans s).Wf := by
  unfold custCtl
  refine wf_ite (wf_regDrop h) ?_
  refine wf_ite (wf_emits (State.wf_refused h)) ?_
  split
  · exact wf_regDrop h
  next e =>
    refine wf_emits ?_
    refine wf_ite ?_ ?_
    · refine State.wf_mapCust ?_
      exact wf_ite (wf_zeroizeAll (wf_of_some (State.wf_writeReg h) e)) (wf_of_some (State.wf_writeReg h) e)
    · exact wf_ite (wf_zeroizeAll (wf_of_some (State.wf_writeReg h) e)) (wf_of_some (State.wf_writeReg h) e)

/-! ### The operations of Machine/Power -/

theorem State.wf_mapClk {s : State} {f : Clk → Clk} (h : s.Wf) : (s.mapClk f).Wf :=
  State.wf_mapQd h (fun _ => rfl)

theorem State.wf_mapBoot {s : State} {f : Boot → Boot} (h : s.Wf) : (s.mapBoot f).Wf :=
  State.wf_mapQd h (fun _ => rfl)

theorem wf_noteBand {s : State} (h : s.Wf) : (noteBand s).Wf :=
  wf_ite h (State.wf_mapClk h)

theorem wf_setTj {t : Nat} {s : State} (h : s.Wf) : (setTj t s).Wf :=
  wf_noteBand (State.wf_setFl h)

theorem State.wf_setTrim {s : State} {f : Fld} {t : Int} (h : s.Wf) : (s.setTrim f t).Wf :=
  State.wf_setFl h

theorem wf_avsSend {bus : Nat} {mv : Int} {s : State} (h : s.Wf) : (avsSend bus mv s).Wf :=
  wf_ite (wf_emit h) h

theorem wf_avsGrid {p : Nat} {s : State} (h : s.Wf) : (avsGrid p s).Wf :=
  wf_avsSend h

theorem wf_loopRecord {loop idx sensed : Nat} {old new : Word} {s : State} (h : s.Wf) :
    (loopRecord loop idx sensed old new s).Wf :=
  wf_ite (State.wf_lgWrite h) h

theorem wf_setPoint {p sensed : Nat} {s : State} (h : s.Wf) : (setPoint p sensed s).Wf :=
  wf_ite (State.wf_setFl (State.wf_setFl h)) (wf_loopRecord (State.wf_setFl (State.wf_setFl h)))

theorem wf_moveDown {p sensed : Nat} {s : State} (h : s.Wf) : (moveDown p sensed s).Wf :=
  wf_avsGrid (wf_setPoint (State.wf_mapClk h))

theorem wf_startUp {sensed : Nat} {s : State} (h : s.Wf) : (startUp sensed s).Wf :=
  wf_ite h (wf_avsGrid (State.wf_mapClk h))

theorem wf_moveTo {t sensed : Nat} {s : State} (h : s.Wf) : (moveTo t sensed s).Wf :=
  wf_ite (wf_moveDown h) (wf_ite (wf_startUp h) (wf_ite (State.wf_setFl h) h))

theorem wf_execDvfsSettled {s : State} (h : s.Wf) : ResWf (execDvfsSettled s) := by
  unfold execDvfsSettled
  refine resWf_next ?_
  split
  · exact wf_setPoint (State.wf_mapClk h)
  · exact h

theorem wf_execDvfsUpTimeout {s : State} (h : s.Wf) : ResWf (execDvfsUpTimeout s) := by
  unfold execDvfsUpTimeout
  refine resWf_next ?_
  split
  · exact State.wf_event (State.wf_mapClk h)
  · exact h

theorem wf_trimIsland {core : Bool} {margin : Int} {s : State} (h : s.Wf) : (trimIsland core margin s).Wf := by
  unfold trimIsland
  refine wf_ite h ?_
  refine wf_ite (wf_avsSend (wf_loopRecord (State.wf_setTrim h))) ?_
  exact wf_avsGrid (wf_loopRecord (State.wf_setTrim h))

theorem wf_vfSense {v : VfSense} {s : State} (h : s.Wf) : (vfSense v s).Wf :=
  wf_foldl (fun _ _ ht => wf_ite (State.wf_setFl ht) ht) (State.wf_setFl (wf_setTj h))

theorem wf_execVfLoopTick {v : VfSense} {s : State} (h : s.Wf) : ResWf (execVfLoopTick v s) := by
  unfold execVfLoopTick
  refine resWf_next ?_
  refine wf_ite h ?_
  refine wf_ite ?_ ?_
  · refine wf_ite (State.wf_mapQd (wf_vfSense h) (fun _ => rfl)) ?_
    exact wf_moveTo (State.wf_setTrim (State.wf_setTrim (State.wf_mapQd (wf_vfSense h) (fun _ => rfl))))
  · refine wf_ite (State.wf_mapQd (wf_vfSense h) (fun _ => rfl)) ?_
    refine wf_ite (wf_trimIsland (wf_trimIsland (State.wf_mapQd (wf_vfSense h) (fun _ => rfl)))) ?_
    exact wf_moveTo (wf_trimIsland (wf_trimIsland (State.wf_mapQd (wf_vfSense h) (fun _ => rfl))))

theorem wf_execEqLoopAdapt {lane : Fin 640} {coef : BitVec 16} {s : State} (h : s.Wf) :
    ResWf (execEqLoopAdapt lane coef s) := by
  unfold execEqLoopAdapt
  refine resWf_next ?_
  exact wf_ite h (wf_ite (wf_loopRecord (State.wf_mapClk (wf_draw (State.wf_mapClk h)))) (State.wf_mapClk h))

theorem wf_bufAlpha {c : Nat} {s : State} (h : s.Wf) : (bufAlpha c s).Wf :=
  wf_ite h (wf_loopRecord (State.wf_setFl h))

theorem wf_bufMarks {c : Nat} {s : State} (h : s.Wf) : (bufMarks c s).Wf := by
  unfold bufMarks
  refine wf_ite ?_ ?_
  · exact wf_ite (wf_loopRecord (State.wf_setFl (State.wf_setFl (State.wf_mapClk h)))) (State.wf_mapClk h)
  · exact wf_ite (wf_loopRecord (State.wf_setFl (State.wf_setFl (State.wf_mapClk h)))) (State.wf_mapClk h)

theorem wf_execBufLoopTick {s : State} (h : s.Wf) : ResWf (execBufLoopTick s) := by
  unfold execBufLoopTick
  refine resWf_next ?_
  refine wf_ite h ?_
  refine wf_foldl (fun _ _ h1 => State.wf_mapClk h1) ?_
  exact wf_ite (wf_foldl (fun _ _ h2 => wf_bufMarks h2) (wf_foldl (fun _ _ h3 => wf_bufAlpha h3) h)) h

theorem wf_execPlacementLoopTick {util : List Nat} {frame : Nat} {s : State} (h : s.Wf) :
    ResWf (execPlacementLoopTick util frame s) := by
  unfold execPlacementLoopTick
  refine resWf_next ?_
  refine wf_ite h ?_
  split
  · exact wf_loopRecord (State.wf_mapClk h)
  · exact h

theorem wf_frameRetired {s : State} (h : s.Wf) : (frameRetired s).Wf := by
  unfold frameRetired
  split
  · exact h
  · refine wf_ite (State.wf_score (State.wf_event (State.wf_mapQd (wf_draw h) (fun _ => rfl)))) ?_
    refine wf_ite ?_ ?_
    · refine State.wf_score ?_
      refine State.wf_event ?_
      refine wf_loopRecord ?_
      exact State.wf_score (State.wf_setFl (State.wf_setFl (State.wf_mapQd (wf_draw h) (fun _ => rfl))))
    · refine wf_loopRecord ?_
      exact State.wf_score (State.wf_setFl (State.wf_setFl (State.wf_mapQd (wf_draw h) (fun _ => rfl))))

theorem wf_clkEnable {v : Word} {ans : BitVec 7 → List Out} {s : State} (h : s.Wf) : (clkEnable v ans s).Wf :=
  wf_ite (wf_regDrop h) (wf_emits (wf_foldl (fun _ _ ht => State.wf_setFl ht) h))

theorem wf_fmeasWrite {v : Word} {ans : BitVec 7 → List Out} {s : State} (h : s.Wf) :
    (fmeasWrite v ans s).Wf := by
  unfold fmeasWrite
  refine wf_ite (wf_regDrop h) ?_
  split
  · exact wf_regDrop h
  next e =>
    refine wf_emits ?_
    refine wf_ite (State.wf_mapClk (State.wf_setRg (wf_of_some (State.wf_writeReg h) e))) ?_
    exact wf_of_some (State.wf_writeReg h) e

theorem wf_execFmeasDone {count : BitVec 32} {s : State} (h : s.Wf) : ResWf (execFmeasDone count s) := by
  unfold execFmeasDone
  refine resWf_next ?_
  refine wf_ite h ?_
  exact wf_ite (State.wf_setFl (State.wf_setFl (State.wf_mapClk h))) (State.wf_setFl (State.wf_mapClk h))

theorem wf_enterThrottle {s : State} (h : s.Wf) : (enterThrottle s).Wf :=
  wf_ite h (State.wf_score (State.wf_setFl h))

theorem wf_execThrottleAssert {s : State} (h : s.Wf) : ResWf (execThrottleAssert s) := by
  unfold execThrottleAssert
  refine resWf_next ?_
  refine wf_ite h ?_
  refine wf_ite (State.wf_mapClk (wf_enterThrottle (State.wf_mapClk (State.wf_setFl h)))) ?_
  exact wf_moveDown (wf_enterThrottle (State.wf_mapClk (State.wf_setFl h)))

theorem wf_lanesIdle {s : State} (h : s.Wf) : (lanesIdle s).Wf := by
  unfold lanesIdle
  refine State.wf_setFl ?_
  refine State.wf_mapQd ?_ (fun _ => rfl)
  exact wf_foldl (fun _ _ ht => wf_ite (wf_emit (State.wf_setFl (State.wf_setFl ht))) ht) h

theorem wf_stopClocks {s : State} (h : s.Wf) : (stopClocks s).Wf :=
  State.wf_mapBoot (wf_lanesIdle h)

theorem wf_execThermalTrip {temp : Byte} {s : State} (h : s.Wf) : ResWf (execThermalTrip temp s) := by
  unfold execThermalTrip
  refine resWf_next ?_
  exact wf_ite h (wf_emit (State.wf_mapBoot (wf_stopClocks (wf_zeroizeAll (State.wf_eventBoth (wf_setTj h))))))

theorem wf_enterHs {pwr : Bool} {s : State} (h : s.Wf) : (enterHs pwr s).Wf :=
  State.wf_mapBoot (wf_foldl (fun _ _ ht => State.wf_setFl ht) h)

theorem wf_execPwrfail {s : State} (h : s.Wf) : ResWf (execPwrfail s) := by
  unfold execPwrfail
  refine resWf_next ?_
  refine wf_ite h ?_
  refine wf_ite (State.wf_eventBoth (State.wf_setFl h)) ?_
  split
  · exact State.wf_mapBoot (wf_ite (State.wf_lgClose (State.wf_setFl h)) (State.wf_setFl h))
  · exact State.wf_eventBoth (State.wf_mapBoot (wf_enterHs (wf_zeroizeAll (State.wf_setFl h))))
  · exact State.wf_setFl h

/-! ### The operations of Machine/MillVector -/

theorem wf_putV {m : Nat} {f : FmtV} {g : Nat → BitVec 32} {s : State} (h : s.Wf) : (putV m f g s).Wf :=
  wf_done (State.wf_mapMill h)

theorem wf_putP {m : Nat} {f : FmtV} {g : Nat → Bool} {s : State} (h : s.Wf) : (putP m f g s).Wf :=
  wf_done (State.wf_mapMill h)

theorem wf_vlane {m : Nat} {f : FmtV} {maj fn : Nat} {op : BitVec 32 → BitVec 32 → BitVec 32} {s : State}
    (h : s.Wf) : (vlane m f maj fn op s).Wf :=
  wf_runInstr (fun _ _ ht => wf_putV ht) h

theorem wf_vcmp {m : Nat} {f : FmtV} {maj fn : Nat} {ok : Bool} {op : BitVec 32 → BitVec 32 → Bool} {s : State}
    (h : s.Wf) : (vcmp m f maj fn ok op s).Wf :=
  wf_runInstr (fun _ _ ht => wf_needZero (wf_putP ht)) h

theorem wf_vfp {m : Nat} {f : FmtV} {ty : BitVec 2} {fn : Nat} {op : FpFmt → Nat → Nat → Nat → Nat} {s : State}
    (h : s.Wf) :
    (vfp m f ty fn op s).Wf :=
  wf_runInstr (fun _ _ ht => wf_needZero (wf_putV ht)) h

theorem wf_vfn {m : Nat} {f : FmtV} {ty : BitVec 2} {fn : Nat} {op : BitVec 32 → Nat} {s : State} (h : s.Wf) :
    (vfn m f ty fn op s).Wf :=
  wf_runInstr (fun _ _ ht => wf_needZero (wf_putV ht)) h

/-- The exception that a gather or scatter finds leaves no state. -/
theorem wf_vgsCheck {s : State} {a m : Nat} {write : Bool} {l : List (Nat × Word)} (_ : s.Wf) :
    OptWf MRes.Wf (vgsCheck s a m write l) := by
  have hlane : ∀ p : Nat × Word, OptWf MRes.Wf (if p.2.toNat % 4 ≠ 0 then some (.exc Exc.ALIGN p.2)
      else match ownWord s a m p.2 with
        | none => some (.exc Exc.ACCESS p.2)
        | some o => if write && decide (o < s.textEnd a) then some (.exc Exc.ACCESS p.2) else none) := by
    intro p
    refine wf_ite (optWf_some trivial) ?_
    split
    · exact optWf_some trivial
    · exact wf_ite (optWf_some trivial) optWf_none
  intro r e
  obtain ⟨p, _, hp⟩ := List.exists_of_findSome?_eq_some e
  exact hlane p r hp

theorem wf_execVgather {m : Fin 256} {f : FmtV} {s : State} (h : s.Wf) : ResWf (execVgather m f s) := by
  unfold execVgather
  refine resWf_next ?_
  refine wf_runInstr (fun _ _ ht => ?_) h
  dsimp only
  split
  next e =>
    exact OptWf.get (wf_vgsCheck ht) e
  · exact wf_putV ht

theorem wf_execVscatter {m : Fin 256} {f : FmtV} {s : State} (h : s.Wf) : ResWf (execVscatter m f s) := by
  unfold execVscatter
  refine resWf_next ?_
  refine wf_runInstr (fun _ _ h1 => ?_) h
  dsimp only
  split
  next e =>
    exact OptWf.get (wf_vgsCheck h1) e
  · exact wf_done (wf_foldl (fun _ _ h2 => State.wf_setScratch h2) h1)

theorem wf_vred {m : Nat} {f : FmtV} {fn ident : Nat} {op : Nat → Nat → Nat} {s : State} (h : s.Wf) :
    (vred m f fn ident op s).Wf :=
  wf_runInstr (fun _ _ ht => wf_putS ht) h

/-! ### The operations of Machine/Services -/

theorem wf_svcDesc {q : Nat} {ridx : BitVec 32} {ty opc : Nat} {act : Nat → Desc → State → State} {s : State}
    (hact : ∀ z0 z1 z2, z2.Wf → (act z0 z1 z2).Wf) (h : s.Wf) : (svcDesc q ridx ty opc act s).Wf := by
  unfold svcDesc
  split
  · exact h
  · extract_lets s1
    have ht : State.Wf s1 := State.wf_mapQd h (fun _ => rfl)
    split
    · exact wf_descEnd ht
    · exact hact _ _ _ (State.wf_mapDesc ht)

theorem wf_svcWrite {k : Nat} {ridx : BitVec 32} {slot : Nat} {gen : Byte} {fa : Word} {data : List Byte}
    {s : State} (h : s.Wf) : (svcWrite k ridx slot gen fa data s).Wf :=
  wf_foldl (fun _ _ ht => wf_unitReq (wf_descWrites ht)) (wf_pickMany h)

theorem wf_svcDone {k : Nat} {ridx : BitVec 32} {result : Nat} {s : State} (h : s.Wf) :
    (svcDone k ridx result s).Wf :=
  wf_descDone h

theorem wf_svcAck {k ridx : Nat} {o : OutReq} {s : State} (h : s.Wf) : (svcAck k ridx o s).Wf :=
  wf_ite (wf_descWrites h) (State.wf_mapDesc (wf_descWrites h))

theorem State.wf_mapPools {s : State} {k : Nat} {f : List Pool → List Pool} (h : s.Wf) : (s.mapPools k f).Wf :=
  State.wf_mapQd h (fun _ => rfl)

theorem wf_regionFail {k : Nat} {ridx : BitVec 32} {st : BitVec 7} {fa : Word} {s : State} (h : s.Wf) :
    (regionFail k ridx st fa s).Wf :=
  wf_descDone (wf_ite (State.wf_event h) h)

theorem wf_poolMake {k : Nat} {d : Desc} {s : State} (h : s.Wf) : (poolMake k d s).Wf := by
  unfold poolMake
  refine wf_ite (wf_descDone h) ?_
  refine wf_ite (wf_descDone h) ?_
  refine wf_ite (wf_descDone h) ?_
  split
  · exact wf_ite (wf_descDone h) (wf_descDone h)
  · refine wf_ite (wf_descDone h) ?_
    refine wf_ite (wf_descDone h) ?_
    split
    · exact wf_descDone h
    · refine wf_svcCommit (fun _ ht => ht) ?_
      exact wf_ite (State.wf_mirror (wf_descTake (State.wf_mapPools h))) (wf_descTake (State.wf_mapPools h))

theorem wf_kvSeq {q : Nat} {ridx : BitVec 32} {opc : Nat}
    {act : Nat → Desc → Pool → Option Nat → State → State}
    {s : State} (hact : ∀ z0 z1 z2 z3 z4, z4.Wf → (act z0 z1 z2 z3 z4).Wf) (h : s.Wf) :
    (kvSeq q ridx opc act s).Wf := by
  unfold kvSeq
  refine wf_svcDesc (fun _ _ _ ht => ?_) h
  refine wf_ite ht ?_
  split
  · exact wf_descEnd ht
  · refine wf_ite (wf_descDone ht) ?_
    refine wf_ite (wf_descDone ht) ?_
    split
    · exact wf_regionFail ht
    · exact hact _ _ _ _ _ ht

theorem wf_execPfree {q : Fin 4096} {ridx : BitVec 32} {s : State} (h : s.Wf) : ResWf (execPfree q ridx s) := by
  unfold execPfree
  refine resWf_next ?_
  refine wf_svcDesc (fun _ _ _ ht => ?_) h
  refine wf_ite ht ?_
  split
  · exact wf_descEnd ht
  · refine wf_ite (wf_descDone ht) ?_
    refine wf_ite (wf_descEnd ht) ?_
    exact wf_descEnd (wf_ite (State.wf_mirror (State.wf_mapPools ht)) (State.wf_mapPools ht))

theorem wf_seqOpen {k : Nat} {d : Desc} {p : Pool} {o : Option Nat} {s : State} (h : s.Wf) :
    (seqOpen k d p o s).Wf := by
  unfold seqOpen
  refine wf_ite (wf_descDone h) ?_
  split
  · exact wf_ite (wf_descDone h) (wf_descDone h)
  · split
    · exact wf_regionFail h
    · refine wf_ite (wf_descEnd h) ?_
      dsimp only
      split
      · exact wf_regionFail (wf_pickMany h)
      · exact wf_svcCommit (fun _ ht => ht) (wf_descTake (wf_pickMany h))

theorem wf_seqTrunc {k : Nat} {d : Desc} {p : Pool} {o : Option Nat} {s : State} (h : s.Wf) :
    (seqTrunc k d p o s).Wf := by
  unfold seqTrunc
  split
  · exact wf_descEnd h
  · refine wf_ite h ?_
    split
    · exact wf_regionFail h
    · dsimp only
      split
      · exact wf_regionFail h
      · exact wf_svcCommit (fun _ ht => ht) (wf_descTake (wf_draw h))

theorem wf_seqClose {k : Nat} {d : Desc} {p : Pool} {o : Option Nat} {s : State} (h : s.Wf) :
    (seqClose k d p o s).Wf := by
  unfold seqClose
  split
  · exact wf_descEnd h
  · refine wf_ite h ?_
    split
    · exact wf_regionFail h
    · split
      · exact wf_regionFail h
      · exact wf_svcCommit (fun _ ht => ht) (wf_descTake (wf_draw h))

theorem wf_kvTokens {k : Nat} {d : Desc} {p : Pool} {o : Option Nat}
    {act : List ((Nat × Nat × Nat) × PageEnt) → State → State} {s : State} (hact : ∀ z0 z1, z1.Wf → (act z0 z1).Wf)
    (h : s.Wf) : (kvTokens k d p o act s).Wf := by
  unfold kvTokens
  split
  · exact wf_descEnd h
  · refine wf_ite (wf_descEnd h) ?_
    refine wf_ite (wf_descDone h) ?_
    refine wf_ite (wf_descDone h) ?_
    refine wf_ite (wf_descEnd h) ?_
    refine wf_ite (wf_descEnd h) ?_
    split
    · exact wf_regionFail h
    · exact hact _ _ h

theorem wf_kvAppend {data : InData} {k : Nat} {d : Desc} {p : Pool} {o : Option Nat} {s : State} (h : s.Wf) :
    (kvAppend data k d p o s).Wf := by
  unfold kvAppend
  refine wf_kvTokens (fun _ _ h1 => ?_) h
  refine wf_ite (wf_descDone h1) ?_
  refine wf_ite (wf_descEnd h1) ?_
  refine wf_ite (wf_descDone h1) ?_
  refine wf_ite (wf_descDone h1) ?_
  dsimp only
  split
  · exact wf_regionFail h1
  · exact wf_svcCommit (fun _ h2 => h2) (wf_descTake h1)

theorem wf_kvReadGo {k : Nat} {d : Desc} {p : Pool} {o : Option Nat} {s : State} (h : s.Wf) :
    (kvReadGo k d p o s).Wf := by
  unfold kvReadGo
  refine wf_kvTokens (fun _ _ h1 => ?_) h
  refine wf_ite (wf_descEnd h1) ?_
  split
  · exact wf_descDone (wf_draw (wf_foldl (fun _ _ h2 => wf_svcWrite (wf_svcWrite h2)) h1))
  · exact wf_regionFail h1
  · exact wf_regionFail h1

theorem wf_partGo {data : InData} {k : Nat} {d : Desc} {s : State} (h : s.Wf) : (partGo data k d s).Wf := by
  unfold partGo
  dsimp only
  split
  · exact wf_descDone h
  · exact wf_descEnd h
  · refine wf_ite (wf_descDone h) ?_
    refine wf_ite (wf_descDone h) ?_
    split
    · exact wf_regionFail h
    · exact wf_descEnd h
    · refine wf_ite (wf_descEnd h) ?_
      refine wf_ite (wf_descEnd h) ?_
      split
      · exact wf_regionFail h
      · refine wf_ite (wf_descEnd h) ?_
        refine wf_ite (wf_descEnd h) ?_
        refine wf_ite (wf_descDone h) ?_
        split
        · exact wf_regionFail h
        · exact wf_svcDone (wf_foldl (fun _ _ ht => wf_svcWrite ht) h)

theorem wf_optLoad {data : InData} {k : Nat} {d : Desc} {s : State} (h : s.Wf) : (optLoad data k d s).Wf := by
  unfold optLoad
  refine wf_ite (wf_descDone h) ?_
  refine wf_ite (wf_descDone h) ?_
  refine wf_ite (wf_descEnd h) ?_
  refine wf_ite (wf_descDone h) ?_
  dsimp only
  split
  · exact wf_regionFail (wf_draw h)
  · exact wf_svcCommit (fun _ ht => ht) (wf_descTake (wf_draw (wf_draw h)))

theorem wf_optSave {k : Nat} {d : Desc} {s : State} (h : s.Wf) : (optSave k d s).Wf := by
  unfold optSave
  refine wf_ite (wf_descDone h) ?_
  refine wf_ite (wf_descEnd h) ?_
  split
  · exact wf_regionFail h
  · exact wf_descDone h
  · split
    · exact wf_regionFail h
    · refine wf_ite (wf_descDone h) ?_
      dsimp only
      split
      · exact wf_regionFail h
      · exact wf_descDone (wf_draw (wf_foldl (fun _ _ ht => wf_svcWrite ht) h))

theorem wf_optStep {k : Nat} {d : Desc} {s : State} (h : s.Wf) : (optStep k d s).Wf := by
  unfold optStep
  refine wf_ite (wf_descDone h) ?_
  split
  · exact wf_regionFail h
  · exact wf_descDone h
  · exact wf_greenEnter h

theorem wf_optWeights {no c : Nat} {s : State} (h : s.Wf) : (optWeights no c s).Wf := by
  unfold optWeights
  split
  · exact h
  · split
    · exact h
    · dsimp only
      split
      · exact wf_collEnd (State.wf_mapColl h)
      · exact wf_writeSum (State.wf_watch (State.wf_mapColl h))

/-- The state that a commit of a block goes on with is canonical. -/
theorem wf_optCommit {o : OptRegion} {w : List Word} {b : Nat} {g : List Nat} {s : State} (h : s.Wf) :
    ∀ x, optCommit o w b g s = .ok x → x.2.Wf := by
  intro x e
  unfold optCommit at e
  dsimp only at e
  split at e
  · cases e
  · split at e
    · cases e
      exact h
    · split at e
      · split at e <;> cases e
        exact h
      · split at e
        · split at e <;> cases e
          · exact h
          · exact wf_pickMany h
        all_goals cases e

theorem wf_execOptsBlockCommit {ctx : BitVec 16} {coll : BitVec 32} {b : Nat} {g : List (BitVec 32)} {s : State}
    (h : s.Wf) : ResWf (execOptsBlockCommit ctx coll b g s) := by
  unfold execOptsBlockCommit
  refine resWf_next ?_
  split
  · exact h
  · next e _ =>
    have hs := wf_optCommit (o := stepRegion s ((e.mems.head?.map (·.key)).getD 0) e.words) (w := e.words) (b := b)
      (g := g.map BitVec.toNat) h
    extract_lets c k o
    split
    · exact wf_collEnd (wf_headEvent h)
    · exact h
    · next eq =>
      split
      · exact wf_collEnd (hs _ eq)
      · refine wf_svcCommit (fun _ h1 => wf_optWeights h1) (State.wf_mapColl (wf_foldl ?_ (hs _ eq)))
        exact fun _ _ h1 => State.wf_mapDesc h1

theorem wf_optSettled {m : MirrorPend} {s : State} (h : s.Wf) : (optSettled m s).Wf := by
  unfold optSettled
  split
  · exact wf_optWeights h
  · exact h

/-! ### The operations of Machine/Partner -/

theorem State.wf_mapFault {s : State} {f : FaultMgr → FaultMgr} (h : s.Wf) : (s.mapFault f).Wf :=
  State.wf_mapQd h (fun _ => rfl)

theorem wf_mirrorBind {b : Bank} {q : Nat} {e : Entry} {s : State} (h : s.Wf) : (mirrorBind b q e s).Wf :=
  wf_ite (State.wf_mapSq (State.wf_mapRings h)) (State.wf_mapRings h)

theorem wf_mirrorApply {b : Bank} {x : MirrorMsg} {s : State} (h : s.Wf) : (mirrorApply b x s).Wf := by
  induction x generalizing b with
  | data => exact State.poke_wf h
  | atomic => exact State.wf_addReplay (State.poke_wf h)
  | window => exact State.wf_dropTrans (State.wf_setWte h)
  | binding => exact wf_mirrorBind h
  | queue => exact State.wf_mapSq h
  | seed => exact State.wf_mapGreen h
  | pool => exact State.wf_mapPools h
  | count => exact State.wf_mapGreen h
  | home _ ih => exact ih

theorem wf_mirrorGoOn {s : State} (h : s.Wf) : (mirrorGoOn s).Wf :=
  wf_retryWaits (wf_retryWaits h)

theorem wf_execMirrorAck {id : Nat} {s : State} (h : s.Wf) : ResWf (execMirrorAck id s) := by
  unfold execMirrorAck
  refine resWf_next ?_
  split
  · exact h
  · exact wf_ite (State.wf_mapNode h) (wf_mirrorGoOn (wf_optSettled (wf_mirrorSettle (State.wf_mapNode h))))

theorem wf_settleMirrors {s : State} (h : s.Wf) : (settleMirrors s).Wf :=
  wf_mirrorGoOn (wf_foldl (fun _ _ ht => wf_optSettled (wf_mirrorSettle ht)) (State.wf_mapNode h))

theorem wf_settleRecords {s : State} (h : s.Wf) : (settleRecords s).Wf := by
  unfold settleRecords
  refine wf_foldl (fun _ _ ht => ?_) h
  split
  · exact wf_ite (wf_sendUpdate ht) ht
  · exact ht

theorem wf_copyResync {s : State} (h : s.Wf) : (copyResync s).Wf :=
  State.wf_setFl (wf_emits h)

theorem wf_loadSpare {s : State} (h : s.Wf) : (loadSpare s).Wf :=
  State.wf_setFl (wf_emits h)

/-! ### The operations of Machine/FaultMgr -/

theorem wf_faultEvent {obj arg0 : Nat} {s : State} (h : s.Wf) : (faultEvent obj arg0 s).Wf :=
  State.wf_eventBoth (wf_draw h)

theorem State.wf_setPair {s : State} {n : Nat} (h : s.Wf) : (s.setPair n).Wf :=
  State.wf_setFl h

theorem wf_sendLive {v : Word} {s : State} (h : s.Wf) : (sendLive v s).Wf :=
  wf_foldl (fun _ _ ht => wf_ite (wf_unitReq ht) ht) h

theorem wf_fence {s : State} (h : s.Wf) : (fence s).Wf := by
  unfold fence
  refine State.wf_setPair ?_
  exact wf_foldl (fun _ _ ht => wf_emit (State.wf_mapLink (State.wf_setFl (State.wf_setFl ht)))) h

theorem wf_pairLost {s : State} (h : s.Wf) : (pairLost s).Wf :=
  wf_settleMirrors (State.wf_setPair (wf_faultEvent h))

theorem wf_combineTake {s : State} {r : CombineRec} (h : s.Wf) : (combineTake s r).Wf :=
  wf_emit (State.wf_mapSw h)

theorem wf_takeOver {s : State} (h : s.Wf) : (takeOver s).Wf := by
  unfold takeOver
  refine wf_sendLive ?_
  refine wf_settleRecords ?_
  refine wf_settleMirrors ?_
  refine State.wf_setPair ?_
  refine State.wf_mapSw ?_
  exact wf_foldl (fun _ _ ht => wf_combineTake ht) (wf_keepMirrored (State.wf_mapFault (wf_faultEvent h)))

theorem wf_planeLost {s : State} (h : s.Wf) : (planeLost s).Wf :=
  wf_ite (wf_takeOver h) (wf_ite (wf_pairLost h) h)

theorem wf_spareNotice {slot : Nat} {first : Bool} {s : State} (h : s.Wf) : (spareNotice slot first s).Wf :=
  wf_ite h (wf_ite (wf_startCensus (State.wf_mapDir h)) (State.wf_mapDir h))

theorem wf_planeLeaves {d : Nat} {s : State} (h : s.Wf) : (planeLeaves d s).Wf :=
  wf_ite (wf_fence h) (wf_startCensus (wf_homeLeave h))

theorem wf_pairGone {old new : Word} {s : State} (h : s.Wf) : (pairGone old new s).Wf :=
  wf_ite (wf_foldl (fun _ _ ht => wf_collAbort (wf_draw ht)) h) h

theorem wf_liveNotice {slot : Nat} {mask : BitVec 18} {s : State} (h : s.Wf) : (liveNotice slot mask s).Wf := by
  unfold liveNotice
  extract_lets _ _ _ _ _ s1 _ s3 _ s5
  have h1 : State.Wf s1 := wf_pairGone (wf_foldl (fun _ _ h2 => wf_planeLeaves h2) (State.wf_setFl h))
  have h3 : State.Wf s3 := wf_foldl (fun _ _ h4 => wf_homeReturn h4) (wf_ite h1 (wf_keepMirrored h1))
  have h5 : State.Wf s5 := wf_ite (State.wf_mapFault (State.wf_setPair h3)) h3
  exact wf_ite (wf_spareNotice h5) h5

theorem wf_expose {s : State} (h : s.Wf) : (expose s).Wf := by
  unfold expose
  refine wf_ite ?_ ?_
  · exact State.wf_mapSw (wf_settleRecords (wf_settleMirrors (State.wf_mapFault (State.wf_setPair h))))
  · refine wf_keepMirrored ?_
    exact State.wf_mapSw (wf_settleRecords (wf_settleMirrors (State.wf_mapFault (State.wf_setPair h))))

theorem wf_execPartnerLinkUp {s : State} (h : s.Wf) : ResWf (execPartnerLinkUp s) := by
  unfold execPartnerLinkUp
  refine resWf_next ?_
  exact wf_ite h (wf_ite (wf_emits (wf_copyResync (State.wf_mapFault h))) (wf_ite (wf_keepMirrored h) h))

theorem wf_execSpareTestDone {ok : Bool} {s : State} (h : s.Wf) : ResWf (execSpareTestDone ok s) := by
  unfold execSpareTestDone
  refine resWf_next ?_
  refine wf_ite ?_ (wf_ite (wf_loadSpare (State.wf_setFl (State.wf_mapFault (State.wf_setPair h)))) h)
  exact wf_ite (wf_ite (State.wf_setPair (State.wf_mapFault h)) (State.wf_mapFault h)) (wf_faultEvent h)

theorem wf_handOver {s : State} (h : s.Wf) : (handOver s).Wf :=
  State.wf_mapFault (State.wf_mapRings (State.wf_mapGreen (wf_emits h)))

theorem wf_admitSpare {s : State} (h : s.Wf) : (admitSpare s).Wf :=
  wf_sendLive (State.wf_setPair (wf_handOver h))

theorem wf_execBoundary {q : Fin 4096} {ridx : BitVec 32} {s : State} (h : s.Wf) :
    ResWf (execBoundary q ridx s) := by
  unfold execBoundary
  refine resWf_next ?_
  split
  · exact h
  · exact wf_descEnd (wf_ite (State.wf_setFl (State.wf_journal h)) (State.wf_journal h))

theorem wf_loseEp {slot : Nat} {s : State} (h : s.Wf) : (loseEp slot s).Wf := by
  unfold loseEp
  refine wf_memberLost ?_
  refine wf_keepMirrored ?_
  exact wf_ite (wf_portReset (wf_faultEvent (State.wf_setRg h))) (wf_faultEvent (State.wf_setRg h))

theorem wf_ftDeclare {idx : Nat} {s : State} (h : s.Wf) : OptWf State.Wf (ftDeclare idx s) :=
  wf_ite (optWf_some (wf_planeLost (wf_ite (wf_emit h) h))) optWf_none

theorem wf_ftPairlost {idx : Nat} {s : State} (h : s.Wf) : OptWf State.Wf (ftPairlost idx s) :=
  wf_ite optWf_none (optWf_some (wf_sendLive (wf_faultEvent h)))

theorem wf_ftSpare {idx : Nat} {s : State} (h : s.Wf) : OptWf State.Wf (ftSpare idx s) :=
  wf_ite (optWf_some (State.wf_mapFault h)) optWf_none

theorem wf_ftAdmit {idx : Nat} {s : State} (h : s.Wf) : OptWf State.Wf (ftAdmit idx s) :=
  wf_ite (optWf_some (wf_admitSpare h)) (wf_ite (optWf_some (wf_sendLive (State.wf_setPair h))) optWf_none)

theorem wf_ftReadmit {idx : Nat} {s : State} (h : s.Wf) : OptWf State.Wf (ftReadmit idx s) := by
  unfold ftReadmit
  refine wf_ite ?_ optWf_none
  exact optWf_some (wf_ite (State.wf_setPstep (State.wf_setPst (State.wf_setRg h))) (State.wf_setRg h))

theorem wf_ftAbortload {idx : Nat} {s : State} (h : s.Wf) : OptWf State.Wf (ftAbortload idx s) :=
  wf_ite (optWf_some (wf_expose (wf_emit (State.wf_mapFault h)))) optWf_none

theorem wf_ftEplost {idx : Nat} {s : State} (h : s.Wf) : OptWf State.Wf (ftEplost idx s) :=
  wf_ite (optWf_some (wf_loseEp h)) optWf_none

theorem wf_ftCmd {f : Nat → State → Option State} {idx : Nat} {ans : BitVec 7 → List Out} {s : State}
    (hf : ∀ z0 z1, z1.Wf → OptWf State.Wf (f z0 z1)) (h : s.Wf) : (ftCmd f idx ans s).Wf := by
  unfold ftCmd
  split
  next e =>
    exact wf_emits (State.wf_setFl (wf_of_some (wf_ite (hf _ _ h) optWf_none) e))
  · exact wf_emits (State.wf_setFl h)

/-- Each command of FT_CMD leaves a canonical state, or suits none. -/
theorem wf_ftOp {op n : Nat} {s : State} (h : s.Wf) : OptWf State.Wf (ftOp op n s) := by
  unfold ftOp
  split
  · exact wf_ftDeclare h
  · exact wf_ftPairlost h
  · exact wf_ftSpare h
  · exact wf_ftAdmit h
  · exact wf_ftReadmit h
  · exact wf_ftAbortload h
  · exact wf_ftEplost h
  · exact optWf_none

theorem wf_ftCmdWrite {v : Word} {ans : BitVec 7 → List Out} {s : State} (h : s.Wf) :
    (ftCmdWrite v ans s).Wf :=
  wf_ftCmd (fun _ _ ht => wf_ftOp ht) h

theorem wf_execGranaryScrub {f : EccFinding} {s : State} (h : s.Wf) : ResWf (execGranaryScrub f s) := by
  unfold execGranaryScrub
  refine resWf_next ?_
  refine wf_ite h ?_
  refine wf_ite ?_ ?_
  · refine wf_ite (State.wf_retireFrame (State.wf_mapFault (State.wf_score (State.wf_event (wf_draw h))))) ?_
    exact State.wf_mapFault (State.wf_score (State.wf_event (wf_draw h)))
  · refine wf_ite ?_ ?_
    · exact State.wf_mapHbm (State.wf_retireFrame (State.wf_score (State.wf_event (wf_draw h)))) (fun _ e => e)
    · refine wf_ite (State.wf_retireFrame (State.wf_score (State.wf_event (wf_draw h)))) ?_
      exact State.wf_mapHbm (State.wf_retireFrame (State.wf_score (State.wf_event (wf_draw h)))) (fun _ e => e)

/-! ### The operations of Machine/Fetch -/

theorem wf_descBegin {k : Nat} {ridx : BitVec 32} {s : State} (h : s.Wf) : (descBegin k ridx s).Wf := by
  unfold descBegin
  split
  · exact h
  · split
    · exact wf_descDone h
    · exact wf_descEnd h
    · exact State.wf_mapDesc (wf_ite h (State.wf_journal h))

theorem wf_addDesc {k : Nat} {d : Desc} {s : State} (h : s.Wf) : (addDesc k d s).Wf :=
  State.wf_mapRings (State.wf_mapSq h)

theorem wf_takeEntry {k : Nat} {inherited : Bool} {x : BitVec 32 × List Word} {s : State} (h : s.Wf) :
    (takeEntry k inherited x s).Wf := by
  unfold takeEntry
  split
  · exact wf_ite (wf_descBegin (State.wf_mapDesc h)) (State.wf_mapDesc h)
  · exact wf_ite (wf_descBegin (wf_addDesc h)) (wf_addDesc h)

theorem wf_failEntries {k : Nat} {st : BitVec 7} {fa : Word} {xs : List (BitVec 32)} {s : State} (h : s.Wf) :
    (failEntries k st fa xs s).Wf := by
  unfold failEntries
  refine wf_foldl (fun _ _ ht => wf_descDone (wf_addDesc ht)) ?_
  split
  · exact wf_descDone h
  · exact h

theorem wf_fetchRest {k : Nat} {f : FetchRun} {s : State} (h : s.Wf) : (fetchRest k f s).Wf :=
  State.wf_mapSq (wf_sendFetch h)

theorem wf_fetchTake {k : Nat} {f : FetchRun} {st : BitVec 7} {d : List Byte} {s : State} (h : s.Wf) :
    (fetchTake k f st d s).Wf := by
  unfold fetchTake
  refine wf_ite (wf_queueFail h) ?_
  refine wf_ite ?_ ?_
  · refine wf_ite ?_ ?_
    · split
      · exact wf_descDone h
      · exact wf_descDone (wf_addDesc h)
    · refine wf_ite (wf_foldl (fun _ _ h1 => wf_takeEntry h1) h) ?_
      exact wf_fetchRest (wf_foldl (fun _ _ h1 => wf_takeEntry h1) h)
  · refine wf_mirrorQueue ?_
    exact State.wf_mapSq (wf_ite (wf_failEntries h) (wf_foldl (fun _ _ h2 => wf_takeEntry h2) h))

theorem wf_fetchPump {k n : Nat} {s : State} (h : s.Wf) : (fetchPump k n s).Wf := by
  induction n generalizing s with
  | zero => exact h
  | succ n ih =>
    unfold fetchPump
    split
    · split
      · exact ih (wf_fetchTake (State.wf_mapSq h))
      · exact h
    · exact h

theorem wf_fetchDone {o : OutReq} {s : State} (h : s.Wf) : (fetchDone o s).Wf := by
  unfold fetchDone
  split
  · exact wf_fetchPump (State.wf_mapSq h)
  · exact h

theorem wf_execDescriptorFetchReturn {p : Packet} {s : State} (h : s.Wf) :
    ResWf (execDescriptorFetchReturn p s) := by
  unfold execDescriptorFetchReturn
  refine resWf_next ?_
  refine wf_ite h ?_
  split
  · exact h
  · split
    · exact wf_ite (wf_ite (wf_unitResponse (fun _ _ ht => wf_fetchDone ht) h) (wf_pktEvent h)) h
    · exact h

/-! ### The operations of Machine/Trace -/

theorem wf_hangTrigger {ring : Nat} {e : Ev} {s : State} (h : s.Wf) : (hangTrigger ring e s).Wf := by
  unfold hangTrigger
  refine wf_ite (State.wf_countSat (State.wf_event h)) ?_
  refine wf_ite (State.wf_record (State.wf_record (State.wf_openTrigger h))) ?_
  exact State.wf_countSat (State.wf_record h)

theorem wf_execHangTimeout {w : WaitInfo} {s : State} (h : s.Wf) : ResWf (execHangTimeout w s) := by
  unfold execHangTimeout
  refine resWf_next ?_
  exact wf_ite h (wf_ite (wf_hangTrigger (State.wf_toRegion h)) (State.wf_event (State.wf_toRegion h)))

theorem wf_trArm {s : State} (h : s.Wf) : (trArm s).Wf :=
  State.wf_setRg (State.wf_setFl (State.wf_setFl (State.wf_setFl (State.wf_mapQd h (fun _ => rfl)))))

theorem wf_lgReplay {v : Word} {ans : BitVec 7 → List Out} {s : State} (h : s.Wf) : (lgReplay v ans s).Wf :=
  wf_ite (wf_emits (State.wf_refused h)) (wf_emits (State.wf_setRg (State.wf_setRg (State.wf_mapLedger h))))

theorem wf_lgAbort {ans : BitVec 7 → List Out} {s : State} (h : s.Wf) : (lgAbort ans s).Wf :=
  wf_emits (wf_ite (State.wf_replayEnd h) h)

theorem wf_replayDesc {b : List Byte} {s : State} (h : s.Wf) : (replayDesc b s).Wf :=
  wf_descBegin (wf_addDesc h)

theorem wf_replayMsg {b : List Byte} {s : State} (h : s.Wf) : (replayMsg b s).Wf :=
  wf_enqueueMsg h

theorem wf_execReplayRecord {s : State} (h : s.Wf) : ResWf (execReplayRecord s) := by
  unfold execReplayRecord
  refine resWf_next ?_
  refine wf_ite h ?_
  split
  · exact wf_ite (wf_replayDesc (State.wf_mapLedger h)) (wf_replayMsg (State.wf_mapLedger h))
  · exact wf_ite h (State.wf_replayEnd h)

theorem wf_healthRise {f : Fld} {s : State} (h : s.Wf) : PairWf (healthRise f s) :=
  wf_pair (State.wf_mapQd h (fun _ => rfl))

theorem wf_healthCount {cls idx weight : Nat} {f : Fld} {s : State} (h : s.Wf) :
    (healthCount cls idx weight f s).Wf :=
  wf_ite (wf_healthRise h) (State.wf_score (wf_healthRise h))

theorem wf_healthPer {cls idx per : Nat} {f : Fld} {s : State} (h : s.Wf) : (healthPer cls idx per f s).Wf :=
  wf_ite (State.wf_mapQd h (fun _ => rfl)) (State.wf_score (State.wf_mapQd h (fun _ => rfl)))

theorem wf_healthLane {port i : Nat} {s : State} (h : s.Wf) : (healthLane port i s).Wf :=
  wf_ite (State.wf_score (State.wf_mapQd h (fun _ => rfl))) (State.wf_mapQd h (fun _ => rfl))

theorem wf_healthPort {n : Nat} {s : State} (h : s.Wf) : (healthPort n s).Wf := by
  unfold healthPort
  refine wf_foldl (fun _ _ ht => wf_healthLane (wf_healthPer ht)) ?_
  exact wf_healthCount (wf_healthCount (wf_healthCount (wf_healthCount (wf_healthCount (wf_healthCount h)))))

theorem wf_healthScore {s : State} (h : s.Wf) : PairWf (healthScore s) :=
  wf_pair (State.wf_mapQd h (fun _ => rfl))

theorem wf_viewPower {s : State} (h : s.Wf) : PairWf (viewPower s) :=
  wf_ite (wf_pair (wf_draw h)) h

theorem wf_viewTemp {s : State} (h : s.Wf) : PairWf (viewTemp s) :=
  wf_ite (wf_pair (wf_draw h)) h

theorem wf_execHealthSend {s : State} (h : s.Wf) : ResWf (execHealthSend s) := by
  unfold execHealthSend
  refine resWf_next ?_
  refine wf_ite ?_ ?_
  · refine wf_healthScore ?_
    refine State.wf_mapQd ?_ (fun _ => rfl)
    exact wf_healthPer (wf_healthPer (wf_foldl (fun _ _ h1 => wf_healthPort h1) h))
  · refine wf_foldl (fun _ _ h2 => ?_) ?_
    · exact wf_ite (wf_foldl (fun _ _ h3 => wf_rslSend h3) h2) h2
    · refine wf_viewTemp ?_
      refine wf_viewPower ?_
      refine wf_healthScore ?_
      refine State.wf_mapQd ?_ (fun _ => rfl)
      exact wf_healthPer (wf_healthPer (wf_foldl (fun _ _ h1 => wf_healthPort h1) h))

/-! ### The operations of Machine/Registers -/

theorem wf_coarseWord {m : Word} {s : State} (h : s.Wf) : PairWf (coarseWord m s) :=
  wf_pair (wf_draw h)

theorem wf_readGrid {off : Nat} {s : State} (h : s.Wf) : PairWf (readGrid off s) := by
  unfold readGrid
  dsimp only
  refine wf_ite (wf_ite h (wf_ite (wf_coarseWord h) (wf_millTelemetry h))) ?_
  exact wf_ite (wf_ite h (wf_getD (wf_debugRead h) h)) (wf_ite h h)

theorem wf_readSwitch {off : Nat} {s : State} (h : s.Wf) : PairWf (readSwitch off s) :=
  wf_ite (wf_coarseWord h) h

theorem wf_readGreen {off : Nat} {s : State} (h : s.Wf) : PairWf (readGreen off s) :=
  wf_ite h (wf_ite (wf_coarseWord h) (wf_ite h h))

theorem wf_readClock {off : Nat} {s : State} (h : s.Wf) : PairWf (readClock off s) :=
  wf_ite h (wf_ite (wf_pair (wf_viewTemp (wf_viewPower h))) (wf_ite h h))

theorem wf_readHbm {off : Nat} {s : State} (h : s.Wf) : PairWf (readHbm off s) :=
  wf_ite (wf_pair (wf_draw h)) h

theorem wf_readReg {src : RegSrc} {off : Nat} {s : State} (h : s.Wf) : PairWf (readReg src off s) := by
  unfold readReg
  refine wf_ite h ?_
  split
  · exact h
  · exact wf_readClock h
  · exact wf_readSwitch h
  · exact wf_ite h h
  · exact wf_readGreen h
  · exact wf_readGrid h
  · exact wf_ite h h
  · exact h
  · exact wf_readHbm h
  · exact h

theorem wf_resetPort {n : Fin 160} {s : State} (h : s.Wf) : (resetPort n s).Wf :=
  wf_portReset (wf_newIdentity (wf_zeroizeAll h))

theorem wf_portCtlAfter {n : Fin 160} {old v : Word} {s : State} (h : s.Wf) : (portCtlAfter n old v s).Wf := by
  unfold portCtlAfter
  extract_lets _ s1 s2
  have h1 : State.Wf s1 := wf_ite (wf_pmAsk h) (wf_ite (wf_pmAsk h) h)
  have h2 : State.Wf s2 := wf_ite (wf_ite h1 (wf_holdForTest h1)) (wf_ite (wf_portReset h1) h1)
  exact wf_ite (wf_resetPort h2) h2

theorem wf_alignAfter {v : Word} {s : State} (h : s.Wf) : (alignAfter v s).Wf :=
  wf_ite (wf_slipLink (wf_draw (wf_ite (wf_slipLink (wf_draw h)) h))) (wf_ite (wf_slipLink (wf_draw h)) h)

theorem wf_refAfter {s : State} (h : s.Wf) : (refAfter s).Wf := by
  unfold refAfter
  refine wf_ite h ?_
  split
  · exact wf_takeRef h
  · exact wf_startHoldover h

theorem wf_loopAfter {old : Word} {s : State} (h : s.Wf) : (loopAfter old s).Wf :=
  wf_ite (State.wf_mapClk h) h

theorem wf_journalAfter {old : Word} {s : State} (h : s.Wf) : (journalAfter old s).Wf :=
  wf_ite h (State.wf_lgWrite h)

theorem wf_afterWrite {off : Nat} {old v : Word} {s : State} (h : s.Wf) : (afterWrite off old v s).Wf := by
  unfold afterWrite
  refine wf_ite (wf_noteBand h) ?_
  refine wf_ite (wf_loopAfter h) ?_
  refine wf_ite (wf_refAfter h) ?_
  refine wf_ite (wf_journalAfter h) ?_
  exact wf_ite (wf_alignAfter h) (wf_ite (wf_portCtlAfter h) (wf_ite (State.wf_setRg h) h))

theorem wf_plainWrite {off : Nat} {v : Word} {ans : BitVec 7 → List Out} {s : State} (h : s.Wf) :
    (plainWrite off v ans s).Wf := by
  unfold plainWrite
  split
  · exact wf_regDrop h
  next e =>
    exact wf_ite (wf_regDrop h) (wf_emits (wf_afterWrite (wf_of_some (State.wf_writeReg h) e)))

theorem wf_rtCmd {v : Word} {ans : BitVec 7 → List Out} {s : State} (h : s.Wf) : (rtCmd v ans s).Wf := by
  unfold rtCmd
  split
  · exact wf_routeHold h
  · exact wf_routeUpdate h
  · exact wf_routeRelease h
  · exact wf_regDrop h

theorem wf_trCmd {v : Word} {ans : BitVec 7 → List Out} {s : State} (h : s.Wf) : (trCmd v ans s).Wf :=
  wf_emits (wf_ite (State.wf_trigger (wf_ite (wf_trArm h) h)) (wf_ite (wf_trArm h) h))

theorem wf_lgCmd {v : Word} {ans : BitVec 7 → List Out} {s : State} (h : s.Wf) : (lgCmd v ans s).Wf := by
  unfold lgCmd
  split
  · exact wf_lgReplay h
  · exact wf_lgAbort h
  · exact wf_regDrop h

theorem wf_writeDevice {src : RegSrc} {off : Nat} {v : Word} {ans : BitVec 7 → List Out} {s : State} (h : s.Wf) :
    (writeDevice src off v ans s).Wf := by
  unfold writeDevice
  refine wf_ite (wf_emits (State.wf_setStaged h)) ?_
  refine wf_ite (wf_emits (State.wf_setStaged h)) ?_
  refine wf_ite (wf_winWithdraw h) ?_
  refine wf_ite (wf_wtCmd h) ?_
  exact wf_ite (wf_sqLoad h) (wf_ite (wf_sqUnbind h) (wf_ite (wf_plainWrite h) (wf_plainWrite h)))

theorem wf_writeDir {off : Nat} {v : Word} {ans : BitVec 7 → List Out} {s : State} (h : s.Wf) :
    (writeDir off v ans s).Wf :=
  wf_ite (wf_hamWrite h) (wf_ite (wf_cohWinWrite h) (wf_ite (wf_cohCmd h) (wf_plainWrite h)))

theorem wf_writeGrid {off : Nat} {v : Word} {ans : BitVec 7 → List Out} {s : State} (h : s.Wf) :
    (writeGrid off v ans s).Wf :=
  wf_ite (wf_emits (wf_ite (State.wf_mapMill h) h)) (wf_ite (wf_emits (wf_debugWrite h)) (wf_plainWrite h))

theorem wf_writeTrace {off : Nat} {v : Word} {ans : BitVec 7 → List Out} {s : State} (h : s.Wf) :
    (writeTrace off v ans s).Wf :=
  wf_ite (wf_trCmd h) (wf_ite (wf_lgCmd h) (wf_ite (wf_emits (State.wf_mapLedger h)) (wf_plainWrite h)))

theorem wf_writeRegister {src : RegSrc} {off : Nat} {v : Word} {ans : BitVec 7 → List Out} {s : State}
    (h : s.Wf) : (writeRegister src off v ans s).Wf := by
  unfold writeRegister
  refine wf_ite (wf_emits h) ?_
  refine wf_ite (wf_emits h) ?_
  split
  · exact wf_writeDevice h
  · exact wf_ite (wf_rtCmd h) (wf_ite (wf_rtLoad h) (wf_plainWrite h))
  · exact wf_writeDir h
  · exact wf_writeGrid h
  · exact wf_writeTrace h
  · refine wf_ite (wf_clkEnable h) ?_
    refine wf_ite (wf_fmeasWrite h) ?_
    refine wf_ite (wf_keyRetire h) ?_
    refine wf_ite (wf_custScrub h) ?_
    exact wf_ite (wf_custCtl h) (wf_ite (wf_regDrop h) (wf_ite (wf_ftCmdWrite h) (wf_plainWrite h)))

theorem wf_writeFrom {src : RegSrc} {off : Nat} {v : Word} {ans : BitVec 7 → List Out} {s : State} (h : s.Wf) :
    (writeFrom src off v ans s).Wf :=
  wf_ite (wf_emits h) (wf_writeRegister h)

theorem wf_readFrom {src : RegSrc} {off : Nat} {s : State} (h : s.Wf) : (readFrom src off s).2.2.Wf :=
  wf_ite (p := fun x : BitVec 7 × Word × State => x.2.2.Wf) h
    (wf_ite (p := fun x : BitVec 7 × Word × State => x.2.2.Wf) h (wf_readReg h))

theorem wf_execRegisterWrite {d : Side} {src : RegSrc} {off v : Word} {s : State} (h : s.Wf) :
    ResWf (execRegisterWrite d src off v s) := by
  unfold execRegisterWrite
  refine resWf_next ?_
  split
  · exact h
  · exact h
  · exact wf_writeFrom h
  · exact wf_ite h (wf_emits (wf_svChanWrite h))
  · exact h

theorem wf_keepSince {n : Nat} {s : State} (h : s.Wf) : (keepSince n s).Wf :=
  wf_foldl (fun _ _ ht => wf_keepAnswer ht) h

theorem wf_execRegwr {l : RslLink} {seq : Byte} {off v : Word} {s : State} (h : s.Wf) :
    ResWf (execRegwr l seq off v s) := by
  unfold execRegwr
  refine resWf_next ?_
  exact wf_rslRequest (fun _ ht => wf_ite (wf_rslAnswer ht) (wf_keepSince (wf_writeFrom (wf_rslPlace ht)))) h

theorem wf_w63Mirror {v : Via} {p : Packet} {s : State} (h : s.Wf) : (w63Mirror v p s).Wf :=
  wf_ite (wf_winWithdraw h) (wf_ite (wf_reply h) (wf_ite (wf_reply h) (wf_failPkt h)))

theorem wf_w63Perform {v : Via} {p : Packet} {s : State} (h : s.Wf) : (w63Perform v p s).Wf := by
  unfold w63Perform
  refine wf_ite ?_ (wf_ite (wf_ite (wf_reply h) (wf_reply (wf_readReg h))) (wf_writeRegister h))
  refine wf_reply ?_
  split
  · exact wf_ite (wf_liveNotice h) h
  · exact h

theorem wf_execWindow63Access {v : Via} {p : Packet} {s : State} (h : s.Wf) :
    ResWf (execWindow63Access v p s) := by
  unfold execWindow63Access
  refine resWf_next ?_
  refine wf_ite h ?_
  split
  · exact wf_rxFail h
  · split
    · exact wf_failPkt h
    · exact wf_ite (wf_failPkt h) (wf_ite (wf_w63Mirror h) (wf_w63Perform h))

/-! ### The operations of Machine/Manage -/

theorem wf_hmSta {slot off : Nat} {v : Word} {s : State} (h : s.Wf) : (hmSta slot off v s).Wf :=
  wf_unitReq h

theorem wf_readEk {slot : Nat} {s : State} (h : s.Wf) : (readEk slot s).Wf :=
  wf_foldl (fun _ _ ht => wf_unitReq ht) h

theorem wf_ekWord {slot j : Nat} {d : List Byte} {s : State} (h : s.Wf) : (ekWord slot j d s).Wf :=
  State.wf_mapCust h

/-! ### The operations of Machine/Boot -/

theorem wf_imgAsk {f : ImgFetch} {off : Nat} {s : State} (h : s.Wf) : (imgAsk f off s).Wf :=
  wf_ite (wf_emit h) (wf_rslSend h)

theorem wf_imgPump {s : State} (h : s.Wf) : (imgPump s).Wf := by
  unfold imgPump
  split
  · exact h
  · exact wf_foldl (fun _ _ ht => wf_imgAsk ht) (State.wf_mapBoot h)

theorem wf_imgStart {kind : Nat} {s : State} (h : s.Wf) : (imgStart kind s).Wf :=
  wf_imgPump (State.wf_mapBoot h)

theorem wf_bootFail {st : BitVec 7} {s : State} (h : s.Wf) : (bootFail st s).Wf :=
  State.wf_eventBoth (State.wf_mapBoot (State.wf_setFl (State.wf_setFl (State.wf_setFl h))))

theorem wf_bootFailFree {s : State} (h : s.Wf) : (bootFailFree s).Wf :=
  wf_bootFail (wf_freeErr h)

theorem wf_execBulkBlock {l : RslLink} {imgid : Word} {off : BitVec 32} {d : List Byte} {crcOk : Bool}
    {s : State} (h : s.Wf) : ResWf (execBulkBlock l imgid off d crcOk s) := by
  unfold execBulkBlock
  refine resWf_next ?_
  refine wf_ite (State.wf_count h) ?_
  split
  · exact h
  · exact wf_ite h (wf_ite (wf_imgStart (State.wf_mapBoot h)) (wf_imgPump (State.wf_mapBoot h)))

theorem wf_execImgreqTimeout {off : BitVec 32} {s : State} (h : s.Wf) : ResWf (execImgreqTimeout off s) := by
  unfold execImgreqTimeout
  refine resWf_next ?_
  split
  · exact h
  · exact wf_ite h (wf_ite (wf_bootFailFree h) (wf_imgAsk (State.wf_mapBoot h)))

theorem wf_applyRecord {table : Bool} {a v : Word} {s : State} (h : s.Wf) : (applyRecord table a v s).Wf := by
  unfold applyRecord
  refine wf_ite trivial ?_
  split
  · exact wf_ite (wf_taken (wf_writeFrom h)) trivial
  · exact wf_ite trivial (wf_taken (State.poke_wf h))
  · exact wf_ite trivial (wf_ite (wf_taken (wf_readFrom h)) trivial)
  · exact trivial

/-- The records of a step leave a canonical state, whether or not the last of them waits. -/
theorem wf_applyRecords {img : List Byte} {table : Bool} {i n : Nat} {s : State} (h : s.Wf) :
    ∀ x, applyRecords img table i n s = .ok x → x.1.Wf := by
  induction n generalizing i s with
  | zero =>
    rintro _ ⟨⟩
    exact h
  | succ n ih =>
    intro x e
    have hrec : ∀ a v, (applyRecord table a v s).Wf := fun a v => wf_applyRecord h
    unfold applyRecords at e
    dsimp only at e
    split at e
    · cases e
    · cases e
      exact h
    · next t et => exact ih (State.wf_mapBoot (et ▸ hrec _ _ : RecOut.Wf (.taken t))) x e

theorem wf_runRecords {table ok : Bool} {done : State → State} {s : State} (hdone : ∀ z, z.Wf → (done z).Wf)
    (h : s.Wf) : (runRecords table ok done s).Wf := by
  unfold runRecords
  extract_lets img nreg first n
  have hrec : ∀ x, applyRecords img table (first + s.qd.boot.applied) (n - s.qd.boot.applied) s = .ok x → x.1.Wf :=
    wf_applyRecords h
  split
  · exact wf_bootFail h
  · next t e => exact hdone _ (State.wf_mapBoot (hrec _ e))
  · next t e => exact wf_ite (hrec _ e) (wf_bootFailFree (hrec _ e))

theorem State.wf_stepTo {s : State} {n : Nat} (h : s.Wf) : (s.stepTo n).Wf :=
  State.wf_setFl h

theorem wf_bootStep1 {s : State} (h : s.Wf) : (bootStep1 s).Wf :=
  wf_ite (State.wf_stepTo h) h

theorem wf_bootStep2 {s : State} (h : s.Wf) : (bootStep2 s).Wf := by
  unfold bootStep2
  split
  · exact State.wf_stepTo (wf_takeRef (State.wf_setFl h))
  · exact h

theorem wf_bootStep4 {s : State} (h : s.Wf) : (bootStep4 s).Wf :=
  wf_ite (State.wf_stepTo h) h

theorem wf_bootStep5 {r : BootResult} {s : State} (h : s.Wf) : (bootStep5 r s).Wf :=
  wf_ite (State.wf_stepTo (State.wf_setFl h)) (State.wf_setFl (State.wf_setFl (wf_customsError h)))

theorem wf_bootStep6 {r : BootResult} {s : State} (h : s.Wf) : (bootStep6 r s).Wf := by
  unfold bootStep6
  refine wf_ite h ?_
  refine wf_ite (wf_bootFail h) ?_
  split
  · exact State.wf_stepTo (State.wf_mapBoot h)
  · exact h

theorem wf_bootStep7 {r : BootResult} {s : State} (h : s.Wf) : (bootStep7 r s).Wf := by
  unfold bootStep7
  refine wf_ite h ?_
  refine wf_ite (wf_bootFail h) ?_
  refine wf_ite (wf_bootFailFree h) ?_
  refine wf_imgStart ?_
  refine State.wf_stepTo ?_
  refine wf_ite (wf_newIdentity (State.wf_mapCust (State.wf_mapBoot h))) ?_
  exact wf_customsError (wf_draw (wf_newIdentity (State.wf_mapCust (State.wf_mapBoot h))))

theorem wf_loadHeader {b : List Byte} {s : State} (h : s.Wf) : (loadHeader b s).Wf :=
  State.wf_setFl (State.wf_setFl (State.wf_setFl (State.wf_setFl (State.wf_setFl (State.wf_setFl h)))))

theorem wf_bootStep8 {r : BootResult} {s : State} (h : s.Wf) : (bootStep8 r s).Wf := by
  unfold bootStep8
  refine wf_ite h ?_
  refine wf_ite (wf_runRecords (fun _ h1 => State.wf_stepTo h1) h) ?_
  refine wf_ite (wf_bootFail h) ?_
  split
  · exact h
  · refine wf_ite (wf_bootFailFree h) ?_
    exact wf_runRecords (fun _ h2 => State.wf_stepTo h2) (wf_loadHeader (State.wf_mapBoot h))

theorem wf_leaveHs {s : State} (h : s.Wf) : (leaveHs s).Wf := by
  unfold leaveHs
  refine wf_ite (State.wf_mapBoot (wf_foldl (fun _ _ ht => State.wf_setFl ht) h)) ?_
  refine State.wf_count ?_
  exact State.wf_lgWrite (State.wf_lgClose (State.wf_mapBoot (wf_foldl (fun _ _ ht => State.wf_setFl ht) h)))

theorem wf_bootStep10 {r : BootResult} {s : State} (h : s.Wf) : (bootStep10 r s).Wf := by
  unfold bootStep10
  refine wf_ite ?_ ?_
  · refine State.wf_stepTo ?_
    exact wf_leaveHs (State.wf_mapBoot (wf_foldl (fun _ _ ht => State.wf_setFl (State.wf_setFl ht)) h))
  · refine State.wf_eventBoth ?_
    refine State.wf_setFl ?_
    refine State.wf_setFl ?_
    exact wf_leaveHs (State.wf_mapBoot (wf_foldl (fun _ _ ht => State.wf_setFl (State.wf_setFl ht)) h))

theorem wf_bootStep11 {r : BootResult} {s : State} (h : s.Wf) : (bootStep11 r s).Wf :=
  wf_runRecords (fun _ ht => State.wf_stepTo (State.wf_mapBoot (wf_emit ht))) h

theorem wf_bootStep12 {s : State} (h : s.Wf) : (bootStep12 s).Wf := by
  unfold bootStep12
  refine State.wf_eventBoth ?_
  refine wf_ite ?_ ?_
  · refine State.wf_mapFault ?_
    refine State.wf_setFl ?_
    refine State.wf_mapBoot ?_
    refine State.wf_setRg ?_
    exact State.wf_count (State.wf_stepTo (State.wf_setFl (wf_placeServices (State.wf_gridCounts h))))
  · refine State.wf_mapBoot ?_
    refine State.wf_setRg ?_
    exact State.wf_count (State.wf_stepTo (State.wf_setFl (wf_placeServices (State.wf_gridCounts h))))

theorem wf_execBootStepDone {r : BootResult} {s : State} (h : s.Wf) : ResWf (execBootStepDone r s) := by
  unfold execBootStepDone
  refine resWf_next ?_
  refine wf_ite h ?_
  dsimp only
  split
  · exact wf_bootStep1 (State.wf_mapBoot h)
  · exact wf_bootStep2 (State.wf_mapBoot h)
  · exact State.wf_stepTo (State.wf_mapBoot h)
  · exact wf_bootStep4 (State.wf_mapBoot h)
  · exact wf_bootStep5 (State.wf_mapBoot h)
  · exact wf_bootStep6 (State.wf_mapBoot h)
  · exact wf_bootStep7 (State.wf_mapBoot h)
  · exact wf_bootStep8 (State.wf_mapBoot h)
  · exact State.wf_stepTo (State.wf_mapBoot h)
  · exact wf_bootStep10 (State.wf_mapBoot h)
  · exact wf_bootStep11 (State.wf_mapBoot h)
  · exact wf_bootStep12 (State.wf_mapBoot h)

/-! ### The operations of Machine/MillScalar -/

theorem wf_salu {m : Nat} {f : FmtA} {fn : Nat} {op : Word → Word → Word} {s : State} (h : s.Wf) :
    (salu m f fn op s).Wf :=
  wf_runInstr (fun _ _ ht => wf_putS ht) h

theorem wf_salu1 {m : Nat} {f : FmtA} {fn : Nat} {op : Word → Word} {s : State} (h : s.Wf) :
    (salu1 m f fn op s).Wf :=
  wf_runInstr (fun _ _ ht => wf_needZero (wf_putS ht)) h

theorem wf_saluImm {m : Nat} {f : FmtI} {maj : Nat} {op : Word → Word} {s : State} (h : s.Wf) :
    (saluImm m f maj op s).Wf :=
  wf_runInstr (fun _ _ ht => wf_putS ht) h

theorem wf_scalarLoad {m : Nat} {f : FmtI} {maj n : Nat} {signed : Bool} {s : State} (h : s.Wf) :
    (scalarLoad m f maj n signed s).Wf :=
  wf_runInstr (fun _ _ h1 => wf_loadAt (fun _ _ h2 => State.wf_mapMill h2) h1) h

theorem wf_scalarStore {m : Nat} {f : FmtI} {maj n : Nat} {s : State} (h : s.Wf) : (scalarStore m f maj n s).Wf :=
  wf_runInstr (fun _ _ ht => wf_storeAt ht) h

theorem wf_scalarAtom {m : Nat} {f : FmtA} {size : Bool} {op : MeshOp} {s : State} (h : s.Wf) :
    (scalarAtom m f size op s).Wf :=
  wf_runInstr (fun _ _ ht => wf_atomAt ht) h

theorem wf_branch {m : Nat} {f : FmtB} {maj : Nat} {cond : Word → Word → Bool} {s : State} (h : s.Wf) :
    (branch m f maj cond s).Wf :=
  wf_runInstr (fun _ _ ht => wf_ite (wf_jump ht) (wf_done ht)) h

/-! ### The operations of Machine/Resets -/

theorem wf_restart {cause step : Nat} {keep : Qd → Qd} {s : State} (h : s.Wf) (hk : ∀ q, q.Wf → (keep q).Wf) :
    (restart cause step keep s).Wf :=
  State.wf_stepTo (State.wf_setFl (State.wf_mapQd_of (wf_lanesIdle h) hk))

theorem wf_fullReset {low : Bool} {s : State} (h : s.Wf) : (fullReset low s).Wf :=
  wf_ite h (wf_restart h fun _ _ => Qd.wf_of_regs wf_regsAfter)

theorem wf_execPowerOn {tray : BitVec 6} {s : State} (h : s.Wf) : ResWf (execPowerOn tray s) := by
  have hs : (restart 0 0 (fun q => { variant := q.variant }) s).Wf :=
    wf_restart h fun _ _ => Qd.wf_of_regs (Tbl.wf_nil _)
  exact resWf_next (wf_ite (wf_emit (State.wf_setFl hs)) (State.wf_setFl hs))

theorem wf_warmReset {s : State} (h : s.Wf) : (warmReset s).Wf :=
  wf_restart (wf_zeroizeAll (wf_ite (State.wf_lgClose h) h)) fun _ hq => Qd.wf_warmKept hq

theorem wf_gridReset {s : State} (h : s.Wf) : (gridReset s).Wf := by
  have hq : ∀ q : Qd, q.Wf → ({ q with
      grid := { creates := q.grid.creates }, regs := gridRegs q.variant q.regs,
      boot := { q.boot with gp := false } } : Qd).Wf :=
    fun _ ⟨hhbm, hmhbm, hregs⟩ => ⟨hhbm, hmhbm, wf_gridRegs hregs⟩
  refine wf_placeServices (State.wf_gridCounts (State.wf_mapQd_of (State.wf_mapSrcs ?_) hq))
  exact wf_newIdentity (wf_zeroizeAll (wf_foldl (fun _ _ h1 => wf_descEnd h1) h))

theorem wf_cmd {op : Nat} {l : RslLink} {seq : Byte} {ok : State → Bool} {act : State → State} {s : State}
    (hact : ∀ z0, z0.Wf → (act z0).Wf) (h : s.Wf) : (cmd op l seq ok act s).Wf :=
  wf_ite h (wf_rslRequest (fun _ ht => wf_ite (hact _ (wf_rslAnswer ht)) (wf_rslAnswer ht)) h)

theorem wf_execPortReset {p : PortSel} {s : State} (h : s.Wf) : ResWf (execPortReset p s) := by
  unfold execPortReset
  refine resWf_next ?_
  split
  · exact wf_ite (wf_resetPort h) h
  · exact wf_ite h (wf_portReset h)

theorem wf_execBoot {l : RslLink} {seq arg : Byte} {s : State} (index : BitVec 16) (h : s.Wf) :
    ResWf (execBoot l seq arg index s) := by
  unfold execBoot
  refine resWf_next ?_
  refine wf_cmd (fun _ ht => ?_) h
  exact wf_imgStart (State.wf_mapBoot (State.wf_stepTo (State.wf_setFl (State.wf_setFl (State.wf_setFl ht)))))

theorem wf_jtagBypass {s : State} (h : s.Wf) : (jtagBypass s).Wf :=
  wf_emit h

theorem wf_jtagDrive {name : String} {s : State} (h : s.Wf) : (jtagDrive name s).Wf :=
  wf_ite (wf_emit (wf_draw h)) (wf_jtagBypass h)

/-! ### The operations of Machine/Responses -/

theorem wf_unitDone {o : OutReq} {s : State} (h : s.Wf) : (unitDone o s).Wf := by
  unfold unitDone
  split
  · refine wf_ite (wf_fetchDone h) ?_
    refine wf_ite (wf_queueAnswer h) ?_
    refine wf_ite (wf_dmaDone h) ?_
    refine wf_ite (wf_postCompletion h) ?_
    refine wf_ite (wf_greenDone h) ?_
    refine wf_ite (wf_relayAnswered h) ?_
    exact wf_ite (wf_ite (wf_ekWord h) h) (wf_ite (wf_custDone h) (wf_ite (wf_svcAck h) h))
  · exact h

theorem wf_unitAnswer {p : Packet} {s : State} (h : s.Wf) : (unitAnswer p s).Wf := by
  unfold unitAnswer
  split
  · exact h
  · refine wf_ite ?_ (wf_unitResponse (fun _ _ ht => wf_unitDone ht) h)
    split
    · exact h
    · exact wf_unitResend h

theorem wf_qdResponse {v : Via} {p : Packet} {s : State} (h : s.Wf) : (qdResponse v p s).Wf := by
  unfold qdResponse
  refine wf_ite h ?_
  refine wf_ite (wf_pktEvent h) ?_
  exact wf_ite (wf_mergeResponse h) (wf_ite h (wf_ite (wf_dirMemReply h) (wf_unitAnswer h)))

theorem wf_execErrorNotice {v : Via} {p : Packet} {s : State} (h : s.Wf) : ResWf (execErrorNotice v p s) := by
  unfold execErrorNotice
  refine resWf_next ?_
  refine wf_ite h ?_
  exact wf_ite (wf_ite h (wf_svNotice h)) (wf_ite h (wf_ite (wf_pktEvent h) (wf_ite (wf_mergeResponse h) h)))

theorem wf_execReplyTimeout {d : Side} {que : BitVec 10} {tag : BitVec 9} {s : State} (h : s.Wf) :
    ResWf (execReplyTimeout d que tag s) := by
  unfold execReplyTimeout
  refine resWf_next ?_
  dsimp only
  split
  · exact wf_svTimeout h
  · refine wf_ite (wf_mergeTimeout h) ?_
    refine wf_ite (wf_dirMemTimeout h) ?_
    split
    · exact h
    · exact wf_unitTimeout (fun _ _ ht => wf_unitDone ht) h

theorem wf_execCdata {v : Via} {p : Packet} {s : State} (h : s.Wf) : ResWf (execCdata v p s) := by
  unfold execCdata
  refine resWf_next ?_
  refine wf_ite h ?_
  refine wf_ite ?_ (wf_ite h (wf_ite (wf_pktEvent h) (wf_ite h (wf_ite (wf_dirCdata h) (wf_unitAnswer h)))))
  refine wf_ite h ?_
  refine wf_ite (wf_pktEvent h) ?_
  refine wf_ite h ?_
  split
  · exact h
  · split
    · exact wf_agCdata h
    · exact wf_relayDone h
    · exact h

theorem wf_execCack {v : Via} {p : Packet} {s : State} (h : s.Wf) : ResWf (execCack v p s) := by
  unfold execCack
  refine resWf_next ?_
  refine wf_ite h ?_
  split
  · exact wf_ite h (wf_ite (wf_pktEvent h) (wf_ite h (wf_agCack h)))
  · exact h
  · refine wf_ite h ?_
    exact wf_ite (wf_pktEvent h) (wf_ite h (wf_ite (wf_ite (wf_censusReport h) h) (wf_ite (wf_dirCack h) h)))

/-! ### Every step -/

/-- Every command answers a canonical next state. -/
theorem wf_exec (i : Instr) {s : State} (h : s.Wf) : ResWf (exec i s) := by
  cases i with
  | flitReceive => exact wf_execFlitReceive h
  | flitSend => exact wf_execFlitSend h
  | retryTimeout => exact resWf_next (wf_ite (State.wf_mapLink h) h)
  | ingressPacket => exact wf_execIngressPacket h
  | cellTimeMatch => exact wf_execCellTimeMatch h
  | hotWindowTick => exact resWf_next (State.wf_mapSw h)
  | mergeUpdateSend => exact wf_execMergeUpdateSend h
  | mergeUpdateResponse => exact resWf_next (wf_ite h (wf_mergeResponse h))
  | combineRecord => exact resWf_next (wf_ite (State.wf_mapSw h) (wf_emit (State.wf_mapSw h)))
  | combineRecordAck => exact wf_execCombineRecordAck h
  | rqoRequest => exact wf_execRqoRequest h
  | ld => exact resWf_next (wf_memOp h)
  | st => exact resWf_next (wf_memOp h)
  | sta => exact resWf_next (wf_memOp h)
  | stm => exact resWf_next (wf_memOp h)
  | stma => exact resWf_next (wf_memOp h)
  | add => exact resWf_next (wf_memOp h)
  | fadd => exact resWf_next (wf_memOp h)
  | amin => exact resWf_next (wf_memOp h)
  | amax => exact resWf_next (wf_memOp h)
  | swap => exact resWf_next (wf_memOp h)
  | cas => exact resWf_next (wf_memOp h)
  | aand => exact resWf_next (wf_memOp h)
  | aor => exact resWf_next (wf_memOp h)
  | axor => exact resWf_next (wf_memOp h)
  | fpadd => exact resWf_next (wf_memOp h)
  | red => exact resWf_next (wf_memOp h)
  | reda => exact resWf_next (wf_memOp h)
  | msg => exact resWf_next (wf_ite h (wf_memOp h))
  | trd => exact resWf_next (wf_memOp h)
  | twr => exact resWf_next (wf_memOp h)
  | tileRegistrationLapse => exact wf_execTileRegistrationLapse h
  | fence => exact resWf_next (wf_ite h (wf_fenceArrive h))
  | fenceAnswer => exact resWf_next (wf_ite (wf_fenceAnswer h) (wf_fenceAnswer (wf_fenceAnswer h)))
  | bell => exact wf_execBell h
  | managementAccess => exact wf_execManagementAccess h
  | millMsgReceive => exact wf_execMillMsgReceive h
  | window63Access => exact wf_execWindow63Access h
  | responseReceive => exact resWf_next (wf_ite h (wf_ite (wf_ite h (wf_svResponse h)) (wf_qdResponse h)))
  | errorNotice => exact wf_execErrorNotice h
  | replyTimeout => exact wf_execReplyTimeout h
  | replayEntryExpire => exact wf_execReplayEntryExpire h
  | mirrorWrite => exact resWf_next (wf_ite h (wf_emit (wf_mirrorApply h)))
  | mirrorAck => exact wf_execMirrorAck h
  | portControllerDown => exact resWf_next (wf_ite (wf_portDown h) h)
  | portControllerUp => exact resWf_next (wf_ite (wf_svRelease (State.wf_mapNode h)) h)
  | apertureWrite => exact resWf_next (wf_emits (wf_apertureWrite h))
  | svPtrL2f => exact resWf_next (wf_emits (State.wf_setSr h))
  | svPtrF2l => exact resWf_next (wf_emits (State.wf_setSr h))
  | svWtCmd => exact resWf_next (wf_emits (wf_svWtCmd h))
  | winWithdraw => exact resWf_next (wf_winWithdraw h)
  | mirrorWithdrawUpdate => exact resWf_next (wf_emit (State.wf_dropTrans (State.wf_setWte h)))
  | withdrawComplete => exact resWf_next (wf_ite (wf_withdrawComplete (wf_withdrawComplete h)) (wf_withdrawComplete h))
  | withdrawTimeout => exact resWf_next (wf_ite (State.wf_nodeEvent h) h)
  | pageTableReadDone => exact wf_execPageTableReadDone h
  | streamPrefetch => exact wf_execStreamPrefetch h
  | descriptorFetch => exact wf_execDescriptorFetch h
  | descriptorFetchReturn => exact wf_execDescriptorFetchReturn h
  | descriptorStart => exact wf_execDescriptorStart h
  | descriptorNop => exact wf_execDescriptorNop h
  | statusWordWrite => exact resWf_next (wf_ite (wf_writeStatus h) h)
  | completionWrite => exact wf_execCompletionWrite h
  | chunkSignalWrite => exact wf_execChunkSignalWrite h
  | sqLoad => exact resWf_next (wf_sqLoad h)
  | sqUnbind => exact resWf_next (wf_sqUnbind h)
  | unbindProgressEvent => exact resWf_next (wf_ite (State.wf_event h) h)
  | unbindComplete => exact wf_execUnbindComplete h
  | sqBindingScrub => exact wf_execSqBindingScrub h
  | windowTableScrub => exact resWf_next (wf_foldl (fun _ _ h1 => wf_ite h1 (State.wf_breakEntry h1)) h)
  | routeScrub => exact resWf_next (wf_foldl (fun _ _ h1 => wf_ite h1 (State.wf_breakRoute h1)) h)
  | directoryScrub => exact wf_execDirectoryScrub h
  | granaryScrub => exact wf_execGranaryScrub h
  | hamCfgWrite => exact resWf_next (wf_hamWrite h)
  | cohWinWrite => exact resWf_next (wf_cohWinWrite h)
  | setMode => exact resWf_next (wf_cohCmd h)
  | setModeSweep => exact resWf_next (wf_cohCmd h)
  | removeWindow => exact resWf_next (wf_cohCmd h)
  | cohCmdDone => exact wf_execCohCmdDone h
  | agentLoad => exact resWf_next (wf_accArrive h)
  | agentStore => exact resWf_next (wf_accArrive h)
  | agentReplace => exact resWf_next (wf_ite h (wf_agReplace h))
  | rdsh => exact resWf_next (wf_dirRequest h)
  | rdown => exact resWf_next (wf_dirRequest h)
  | rdna => exact resWf_next (wf_dirRequest h)
  | upgr => exact resWf_next (wf_dirRequest h)
  | wbd => exact resWf_next (wf_dirRequest h)
  | evict => exact resWf_next (wf_dirRequest h)
  | snpsh => exact resWf_next (wf_snoop h)
  | snpinv => exact resWf_next (wf_snoop h)
  | snpna => exact resWf_next (wf_snoop h)
  | snpcen => exact wf_execSnpcen h
  | cdata => exact wf_execCdata h
  | cack => exact wf_execCack h
  | cnack => exact wf_execCnack h
  | agentNackResend => exact wf_execAgentNackResend h
  | directoryMemoryReply => exact resWf_next (wf_dirMemReply h)
  | censusTimeout => exact wf_execCensusTimeout h
  | reservationExpire => exact resWf_next (wf_ite (State.wf_mapDent (State.wf_mapDir h)) h)
  | coherenceTimeout => exact wf_execCoherenceTimeout h
  | relayedRdna => exact wf_execRelayedRdna h
  | way11Migrate => exact wf_execWay11Migrate h
  | linkDown => exact resWf_next (wf_ite (wf_portDown h) h)
  | routeHold => exact resWf_next (wf_routeHold h)
  | routeDrained => exact wf_execRouteDrained h
  | routeDrainTimeout => exact wf_execRouteDrainTimeout h
  | routeUpdate => exact resWf_next (wf_routeUpdate h)
  | routeRelease => exact resWf_next (wf_routeRelease h)
  | rtLoad => exact resWf_next (wf_rtLoad h)
  | telemetrySample => exact resWf_next (wf_foldl (fun _ _ h1 => State.wf_setRg h1) h)
  | seed => exact wf_execSeed h
  | reduce => exact resWf_next (wf_greenDesc (fun _ _ _ h1 => wf_greenEnter h1) h)
  | allred => exact resWf_next (wf_greenDesc (fun _ _ _ h1 => wf_greenEnter h1) h)
  | rscat => exact resWf_next (wf_greenDesc (fun _ _ _ h1 => wf_greenEnter h1) h)
  | agath => exact resWf_next (wf_greenDesc (fun _ _ _ h1 => wf_greenEnter h1) h)
  | bcast => exact resWf_next (wf_greenDesc (fun _ _ _ h1 => wf_greenEnter h1) h)
  | shift => exact resWf_next (wf_greenDesc (fun _ _ _ h1 => wf_greenEnter h1) h)
  | perm => exact resWf_next (wf_greenDesc (fun _ _ _ h1 => wf_greenEnter h1) h)
  | disp => exact resWf_next (wf_greenDesc (fun _ _ _ h1 => wf_greenEnter h1) h)
  | comb => exact resWf_next (wf_greenDesc (fun _ _ _ h1 => wf_greenEnter h1) h)
  | collectiveStart => exact resWf_next (wf_foldl (fun _ _ h1 => wf_ite (wf_collBegin h1) h1) h)
  | collectiveArrivalTimeout => exact resWf_next (wf_foldl (fun _ _ h1 => wf_collAbort h1) h)
  | greenChunk => exact wf_execGreenChunk h
  | ringDigest => exact wf_execRingDigest h
  | ringChunk => exact wf_execRingChunk h
  | collectiveAbort => exact resWf_next (wf_foldl (fun _ _ h1 => wf_collAbort h1) h)
  | leaseExpire => exact resWf_next (wf_ite h (wf_clearLeases h))
  | meshRequest => exact wf_execMeshRequest h
  | meshResponse => exact wf_execMeshResponse h
  | meshMessage => exact wf_execMeshMessage h
  | messageCreditReturn => exact resWf_next (wf_ite h (wf_millRetry (State.wf_mapMill h)))
  | dmaRead => exact resWf_next (wf_dmaStart (fun _ _ _ _ h1 => wf_dmaSend (wf_dmaBegin (wf_declareStream h1))) h)
  | dmaWrite => exact resWf_next (wf_dmaStart (fun _ _ _ _ h1 => wf_dmaSend (wf_dmaBegin (wf_declareStream h1))) h)
  | copy => exact resWf_next (wf_dmaStart (fun _ _ _ _ h1 => wf_writeRows (wf_dmaBegin h1)) h)
  | dmaFence => exact resWf_next (wf_dmaStart (fun _ _ _ _ h1 => wf_dmaBegin h1) h)
  | relst => exact resWf_next (wf_dmaStart (fun _ _ _ _ h1 => wf_dmaSend (wf_dmaBegin h1)) h)
  | acqld => exact resWf_next (wf_dmaStart (fun _ _ _ _ h1 => wf_dmaSend (wf_dmaBegin h1)) h)
  | dmaDescriptorComplete => exact wf_execDmaDescriptorComplete h
  | create => exact wf_execCreate h
  | allotPlace => exact wf_execAllotPlace h
  | createWaitTimeout => exact resWf_next (wf_ite (State.wf_gridCounts (wf_descDone (State.wf_mapGrid h))) h)
  | allotLoad => exact wf_execAllotLoad h
  | allotLoadDone => exact wf_execAllotLoadDone h
  | allotStart => exact wf_execAllotStart h
  | allotRunEnd => exact resWf_next (wf_ite (wf_ite (State.wf_setFl (wf_endStart h)) (wf_endStart h)) h)
  | allotHalt => exact wf_execAllotHalt h
  | allotHaltDone => exact wf_execAllotHaltDone h
  | free => exact wf_execFree h
  | saluAdd => exact resWf_next (wf_salu h)
  | sub => exact resWf_next (wf_salu h)
  | saluAnd => exact resWf_next (wf_salu h)
  | saluOr => exact resWf_next (wf_salu h)
  | saluXor => exact resWf_next (wf_salu h)
  | sll => exact resWf_next (wf_salu h)
  | srl => exact resWf_next (wf_salu h)
  | sra => exact resWf_next (wf_salu h)
  | slt => exact resWf_next (wf_salu h)
  | sltu => exact resWf_next (wf_salu h)
  | mul => exact resWf_next (wf_salu h)
  | mulh => exact resWf_next (wf_salu h)
  | mulhu => exact resWf_next (wf_salu h)
  | div => exact resWf_next (wf_salu h)
  | divu => exact resWf_next (wf_salu h)
  | rem => exact resWf_next (wf_salu h)
  | remu => exact resWf_next (wf_salu h)
  | saluMin => exact resWf_next (wf_salu h)
  | saluMax => exact resWf_next (wf_salu h)
  | minu => exact resWf_next (wf_salu h)
  | maxu => exact resWf_next (wf_salu h)
  | clz => exact resWf_next (wf_salu1 h)
  | ctz => exact resWf_next (wf_salu1 h)
  | popc => exact resWf_next (wf_salu1 h)
  | addi => exact resWf_next (wf_saluImm h)
  | andi => exact resWf_next (wf_saluImm h)
  | ori => exact resWf_next (wf_saluImm h)
  | xori => exact resWf_next (wf_saluImm h)
  | lui => exact resWf_next (wf_runInstr (fun _ _ h1 => wf_needZero (wf_putS h1)) h)
  | shi => exact resWf_next (wf_runInstr (fun _ _ h1 => wf_needZero (wf_putS h1)) h)
  | slti => exact resWf_next (wf_saluImm h)
  | lb => exact resWf_next (wf_scalarLoad h)
  | lbu => exact resWf_next (wf_scalarLoad h)
  | lh => exact resWf_next (wf_scalarLoad h)
  | lhu => exact resWf_next (wf_scalarLoad h)
  | lw => exact resWf_next (wf_scalarLoad h)
  | lwu => exact resWf_next (wf_scalarLoad h)
  | scalarLd => exact resWf_next (wf_scalarLoad h)
  | sb => exact resWf_next (wf_scalarStore h)
  | sh => exact resWf_next (wf_scalarStore h)
  | sw => exact resWf_next (wf_scalarStore h)
  | sd => exact resWf_next (wf_scalarStore h)
  | atomAdd => exact resWf_next (wf_scalarAtom h)
  | atomSwap => exact resWf_next (wf_scalarAtom h)
  | beq => exact resWf_next (wf_branch h)
  | bne => exact resWf_next (wf_branch h)
  | blt => exact resWf_next (wf_branch h)
  | bge => exact resWf_next (wf_branch h)
  | bltu => exact resWf_next (wf_branch h)
  | bgeu => exact resWf_next (wf_branch h)
  | jal => exact resWf_next (wf_runInstr (fun _ _ h1 => wf_jump (State.wf_mapMill h1)) h)
  | jalr => exact resWf_next (wf_runInstr (fun _ _ h1 => wf_jump (State.wf_mapMill h1)) h)
  | vadd => exact resWf_next (wf_vlane h)
  | vsub => exact resWf_next (wf_vlane h)
  | vmul => exact resWf_next (wf_vlane h)
  | vand => exact resWf_next (wf_vlane h)
  | vor => exact resWf_next (wf_vlane h)
  | vxor => exact resWf_next (wf_vlane h)
  | vsll => exact resWf_next (wf_vlane h)
  | vsrl => exact resWf_next (wf_vlane h)
  | vsra => exact resWf_next (wf_vlane h)
  | vmin => exact resWf_next (wf_vlane h)
  | vmax => exact resWf_next (wf_vlane h)
  | vminu => exact resWf_next (wf_vlane h)
  | vmaxu => exact resWf_next (wf_vlane h)
  | vcmpeq => exact resWf_next (wf_vcmp h)
  | vcmplt => exact resWf_next (wf_vcmp h)
  | vcmpltu => exact resWf_next (wf_vcmp h)
  | vsel => exact resWf_next (wf_runInstr (fun _ _ h1 => wf_done (State.wf_mapMill h1)) h)
  | vperm => exact resWf_next (wf_runInstr (fun _ _ h1 => wf_putV h1) h)
  | vbcast => exact resWf_next (wf_runInstr (fun _ _ h1 => wf_putV h1) h)
  | vext => exact resWf_next (wf_runInstr (fun _ _ h1 => wf_needZero (wf_putS h1)) h)
  | vins => exact resWf_next (wf_runInstr (fun _ _ h1 => wf_needZero (wf_done (State.wf_mapMill h1))) h)
  | vfadd => exact resWf_next (wf_vfp h)
  | vfsub => exact resWf_next (wf_vfp h)
  | vfmul => exact resWf_next (wf_vfp h)
  | vfma => exact resWf_next (wf_vfp h)
  | vfmin => exact resWf_next (wf_vfp h)
  | vfmax => exact resWf_next (wf_vfp h)
  | vexp2 => exact resWf_next (wf_vfn h)
  | vrcp => exact resWf_next (wf_vfn h)
  | vrsq => exact resWf_next (wf_vfn h)
  | vfcmpeq => exact resWf_next (wf_vcmp h)
  | vfcmplt => exact resWf_next (wf_vcmp h)
  | vfcmple => exact resWf_next (wf_vcmp h)
  | vcvtWiden => exact resWf_next (wf_runInstr (fun _ _ h1 => wf_needZero (wf_putV h1)) h)
  | vcvtNarrow => exact resWf_next (wf_runInstr (fun _ _ h1 => wf_needZero (wf_putV h1)) h)
  | vld => exact resWf_next (wf_runInstr (fun _ _ h1 => wf_loadAt (fun _ _ h2 => State.wf_mapMill h2) h1) h)
  | vst => exact resWf_next (wf_runInstr (fun _ _ h1 => wf_storeAt h1) h)
  | vgather => exact wf_execVgather h
  | vscatter => exact wf_execVscatter h
  | rsumf => exact resWf_next (wf_vred h)
  | rmaxf => exact resWf_next (wf_vred h)
  | rminf => exact resWf_next (wf_vred h)
  | rsumi => exact resWf_next (wf_vred h)
  | rmaxi => exact resWf_next (wf_vred h)
  | rmini => exact resWf_next (wf_vred h)
  | tmma => exact wf_execTmma h
  | tmmaComplete => exact wf_execTmmaComplete h
  | tzero => exact resWf_next (wf_tmov (fun _ _ h1 => wf_done (State.wf_mapMill h1)) h)
  | tld => exact resWf_next (wf_tmov (fun _ _ h1 => wf_tmovAddr (fun _ => wf_done (State.wf_mapMill h1))) h)
  | tst => exact resWf_next (wf_tmov (fun _ _ h1 => wf_tmovAddr (fun _ => wf_done (State.wf_setScratch h1))) h)
  | tstb => exact wf_execTstb h
  | trow => exact resWf_next (wf_tmov (fun _ _ h1 => wf_done (State.wf_mapMill h1)) h)
  | twrow => exact resWf_next (wf_tmov (fun _ _ h1 => wf_done (State.wf_mapMill h1)) h)
  | qcfg =>
    exact resWf_next (wf_runInstr (fun _ _ h1 => wf_needZero (wf_ite (wf_done (State.wf_mapMill h1)) trivial)) h)
  | qsend => exact resWf_next (wf_runInstr (fun _ _ h1 => wf_sendTry h1) h)
  | qrecv => exact resWf_next (wf_runInstr (fun _ _ h1 => wf_recvTry h1) h)
  | qpoll => exact wf_execQpoll h
  | qstat => exact wf_execQstat h
  | dmaq => exact wf_execDmaq h
  | dwait => exact resWf_next (wf_runInstr (fun _ _ h1 => wf_dwaitTry h1) h)
  | dread => exact resWf_next (wf_runInstr (fun _ _ h1 => wf_putS h1) h)
  | dclr => exact resWf_next (wf_runInstr (fun _ _ h1 => wf_done (State.wf_mapMill h1)) h)
  | dlog => exact wf_execDlog h
  | dwaitf => exact resWf_next (wf_runInstr (fun _ _ h1 => wf_dwaitTry h1) h)
  | csrRead => exact resWf_next (wf_csr h)
  | csrWrite => exact resWf_next (wf_csr h)
  | csrSwap => exact resWf_next (wf_csr h)
  | csrSet => exact resWf_next (wf_csr h)
  | sysNop => exact resWf_next (wf_sys (fun _ _ h1 => wf_done h1) h)
  | sysFence => exact resWf_next (wf_sys (fun _ _ h1 => wf_fenceTry h1) h)
  | sysHalt => exact resWf_next (wf_sys (fun _ _ h1 => wf_stopped (wf_millStop (State.wf_mapMill h1))) h)
  | brk => exact resWf_next (wf_sys (fun _ _ h1 => wf_ite (wf_stopped (State.wf_mapMill h1)) trivial) h)
  | eret => exact resWf_next (wf_sys (fun _ _ h1 => wf_ite (wf_jump (State.wf_mapMill h1)) trivial) h)
  | sysAbort => exact resWf_next (wf_sys (fun _ _ h1 => trivial) h)
  | bar => exact wf_execBar h
  | waitt => exact resWf_next (wf_sys (fun _ _ h1 => wf_waittTry h1) h)
  | waittExpire => exact wf_execWaittExpire h
  | tfence => exact resWf_next (wf_sys (fun _ _ h1 => wf_tfenceTry h1) h)
  | debugHalt => exact resWf_next (wf_emits (wf_ite (wf_debugHalt h) h))
  | debugStep => exact resWf_next (wf_emits (wf_ite (wf_debugGo h) h))
  | debugResume => exact resWf_next (wf_emits (wf_ite (wf_debugGo h) h))
  | debugRegWrite => exact resWf_next (wf_emits (wf_debugWrite h))
  | pool => exact resWf_next (wf_svcDesc (fun _ _ _ h1 => wf_ite h1 (wf_poolMake h1)) h)
  | pfree => exact wf_execPfree h
  | openSeq => exact resWf_next (wf_kvSeq (fun _ _ _ _ _ h1 => wf_seqOpen h1) h)
  | append => exact resWf_next (wf_kvSeq (fun _ _ _ _ _ h1 => wf_kvAppend h1) h)
  | kvRead => exact resWf_next (wf_kvSeq (fun _ _ _ _ _ h1 => wf_kvReadGo h1) h)
  | trunc => exact resWf_next (wf_kvSeq (fun _ _ _ _ _ h1 => wf_seqTrunc h1) h)
  | close => exact resWf_next (wf_kvSeq (fun _ _ _ _ _ h1 => wf_seqClose h1) h)
  | part => exact resWf_next (wf_svcDesc (fun _ _ _ h1 => wf_partGo h1) h)
  | optsLoad => exact resWf_next (wf_svcDesc (fun _ _ _ h1 => wf_optLoad h1) h)
  | optsStep => exact resWf_next (wf_svcDesc (fun _ _ _ h1 => wf_optStep h1) h)
  | save => exact resWf_next (wf_svcDesc (fun _ _ _ h1 => wf_optSave h1) h)
  | optsBlockCommit => exact wf_execOptsBlockCommit h
  | rsiResponse => exact wf_execRsiResponse h
  | rqiAnswerLate => exact resWf_next (wf_ite (State.wf_svEvent h) h)
  | svLiveWrite => exact resWf_next (wf_ite h (wf_emits (wf_svLiveWrite h)))
  | mapRestore => exact wf_execMapRestore h
  | svapoBringup =>
    exact resWf_next (wf_ite h (wf_readEk (wf_hmSta (wf_ite (wf_foldl (fun _ _ h1 => wf_hmSta h1) h) h))))
  | keyLoadCommit => exact resWf_next (wf_ite h (wf_emits (wf_keyCommit h)))
  | holderRetirePhase0 => exact resWf_next (wf_ite h (wf_emits (wf_keyRetireCmd h)))
  | holderRetirePhase1 => exact resWf_next (wf_ite h (wf_emits (wf_keyRetireCmd h)))
  | holderZeroizeTimeout => exact resWf_next (wf_ite (wf_keyZeroize h) h)
  | holderSlotRelease => exact resWf_next (wf_ite (State.wf_mapSvKey h) h)
  | caFlush => exact resWf_next (wf_caFlush h)
  | limiterPeriod => exact wf_execLimiterPeriod h
  | blockReset => exact wf_execBlockReset h
  | signalEnergyDetect => exact wf_execSignalEnergyDetect h
  | trainingStepDone => exact resWf_next (wf_ite (State.wf_setPstep h) h)
  | trainingRestart =>
    exact resWf_next (wf_ite (State.wf_mapLink (State.wf_setPfailed (State.wf_setPstep (State.wf_setPst h)))) h)
  | ts => exact resWf_next (wf_ite (wf_emit (State.wf_mapLink h)) h)
  | mark => exact resWf_next (wf_ite (State.wf_mapLink h) h)
  | ident => exact wf_execIdent h
  | crinit => exact resWf_next (wf_ite (wf_portComesUp (wf_ite h (State.wf_mapLink h))) h)
  | mcred => exact resWf_next (wf_ite (State.wf_mapLink h) h)
  | pmreq => exact resWf_next (wf_ite h (wf_ite (State.wf_mapLink h) (State.wf_mapLink h)))
  | pmack => exact resWf_next (wf_ite (wf_pmEnter (State.wf_mapLink h)) h)
  | pmnak => exact resWf_next (wf_ite (wf_pmEnter (State.wf_mapLink h)) h)
  | retrain => exact resWf_next (wf_ite h (wf_startRetrain (State.wf_mapLink (wf_ite (State.wf_portCount h) h))))
  | test => exact wf_execTest h
  | laneFail => exact wf_execLaneFail h
  | pmExit => exact resWf_next (wf_ite (wf_startExit h) h)
  | lqAutoTimeout => exact wf_execLqAutoTimeout h
  | portReset => exact wf_execPortReset h
  | lqRequest => exact resWf_next (wf_ite (wf_pmAsk (State.wf_setReq h)) h)
  | ldRequest => exact resWf_next (wf_ite (wf_pmAsk (State.wf_setReq h)) h)
  | portTest => exact resWf_next (wf_ite (wf_holdForTest h) h)
  | transferClose => exact resWf_next (wf_ite h (wf_openTransfer (State.wf_mapFerry (wf_pickMany h))))
  | ferryData p => exact wf_execFerryData p h
  | ferryResp p => exact wf_execFerryResp p h
  | ferryAck p => exact wf_execFerryAck p h
  | ferryAbort => exact resWf_next (wf_ferrySegment (fun _ _ h1 => wf_foldl (fun _ _ h3 => wf_collAbort h3) h1) h)
  | ferryAckSend =>
    exact resWf_next (wf_ite h (wf_foldl (fun _ _ h1 => wf_sendSegment (State.wf_mapRx (wf_sealSegment h1))) h))
  | segmentResendTimeout => exact resWf_next (wf_ite h (wf_foldl (fun _ _ h1 => wf_sendPart (State.wf_mapTx h1)) h))
  | peerRackLost => exact resWf_next (wf_ite h (wf_rackLost h))
  | ferryKeyExpire => exact resWf_next (State.wf_mapFerry h)
  | timeMark => exact resWf_next (wf_ite h (wf_meetMark (wf_clearHold h)))
  | rslLockLoss => exact resWf_next (wf_ite (wf_setLock (State.wf_score (State.wf_count h))) h)
  | slip => exact resWf_next (wf_slipLink h)
  | regrd => exact resWf_next (wf_rslRequest (fun _ h1 => wf_ite (wf_rslAnswer h1) (wf_rslAnswer (wf_readFrom h1))) h)
  | regwr => exact wf_execRegwr h
  | bulkBlock => exact wf_execBulkBlock h
  | imgreqTimeout => exact wf_execImgreqTimeout h
  | healthSend => exact wf_execHealthSend h
  | referenceLoss => exact resWf_next (wf_refLost h)
  | referenceReturn => exact wf_execReferenceReturn h
  | holdoverEvent => exact resWf_next (wf_ite (State.wf_event h) h)
  | vfLoopTick => exact wf_execVfLoopTick h
  | dvfsSettled => exact wf_execDvfsSettled h
  | dvfsUpTimeout => exact wf_execDvfsUpTimeout h
  | clockStretch => exact resWf_next (State.wf_mapQd h (fun _ => rfl))
  | eqLoopAdapt => exact wf_execEqLoopAdapt h
  | bufLoopTick => exact wf_execBufLoopTick h
  | placementLoopTick => exact wf_execPlacementLoopTick h
  | frameMoveDone => exact resWf_next (wf_ite (State.wf_mapClk h) (wf_frameRetired h))
  | clockGate => exact resWf_next (wf_clkEnable h)
  | clockUngate => exact resWf_next (wf_clkEnable h)
  | fmeasStart => exact resWf_next (wf_fmeasWrite h)
  | fmeasDone => exact wf_execFmeasDone h
  | throttleAssert => exact wf_execThrottleAssert h
  | thermalThrottle => exact resWf_next (wf_ite h (wf_enterThrottle (State.wf_mapClk (wf_setTj h))))
  | throttleStep => exact resWf_next (wf_ite h (wf_ite (wf_moveDown h) (wf_ite (State.wf_mapClk h) h)))
  | throttleEnd => exact resWf_next (State.wf_mapClk (State.wf_setFl (State.wf_setFl h)))
  | thermalTrip => exact wf_execThermalTrip h
  | pwrfail => exact wf_execPwrfail h
  | pwrfailRelease => exact resWf_next (wf_ite (State.wf_mapBoot (State.wf_setFl h)) (State.wf_setFl h))
  | brownOut => exact resWf_next (wf_ite (wf_stopClocks h) (wf_stopClocks (State.wf_eventBoth (State.wf_setFl h))))
  | report => exact resWf_next (wf_custDesc (fun _ _ _ h1 => wf_ite (wf_descDone h1) (wf_descDone (wf_custWrite h1))) h)
  | deliver => exact resWf_next (wf_custDesc (fun _ _ _ h1 => wf_ite (wf_descDone h1) (wf_deliverEnvelope h1)) h)
  | retire => exact wf_execRetire h
  | counters => exact wf_execCounters h
  | keyRetire => exact resWf_next (wf_keyRetire h)
  | retireDrainEnd => exact wf_execRetireDrainEnd h
  | retireComplete => exact wf_execRetireComplete h
  | retireHoldExpire => exact resWf_next (wf_ite (wf_ksEvent (State.wf_mapKs h)) h)
  | custScrub => exact resWf_next (wf_custScrub h)
  | scrubDone => exact resWf_next (State.wf_setFl (State.wf_mapCust h))
  | selftest => exact resWf_next (wf_custCtl h)
  | zeroize => exact resWf_next (wf_custCtl h)
  | entropyTestFail => exact resWf_next (wf_customsError h)
  | partnerPoll => exact resWf_next (wf_ite h (State.wf_mapFault h))
  | planeDeclare => exact resWf_next (wf_ite (wf_planeLost h) h)
  | fenceStop => exact resWf_next (wf_ite h (wf_fence h))
  | liveNotice => exact resWf_next (wf_ite (wf_liveNotice h) h)
  | pairExpose => exact resWf_next (wf_ite h (wf_ite (wf_ite h (wf_pairLost h)) (wf_ite (wf_expose h) h)))
  | partnerLinkUp => exact wf_execPartnerLinkUp h
  | resyncDone => exact resWf_next (wf_ite (State.wf_setPair (State.wf_setFl (State.wf_mapFault h))) h)
  | declare => exact resWf_next (wf_ftCmd (fun _ _ h1 => wf_ftDeclare h1) h)
  | pairlost => exact resWf_next (wf_ftCmd (fun _ _ h1 => wf_ftPairlost h1) h)
  | spare => exact resWf_next (wf_ftCmd (fun _ _ h1 => wf_ftSpare h1) h)
  | spareTestDone => exact wf_execSpareTestDone h
  | spareLoadDone => exact resWf_next (wf_ite (State.wf_setFl (State.wf_setPair h)) h)
  | spareAdmit => exact resWf_next (wf_ite (wf_admitSpare h) h)
  | ftAdmit => exact resWf_next (wf_ftCmd (fun _ _ h1 => wf_ftAdmit h1) h)
  | readmit => exact resWf_next (wf_ftCmd (fun _ _ h1 => wf_ftReadmit h1) h)
  | abortload => exact resWf_next (wf_ftCmd (fun _ _ h1 => wf_ftAbortload h1) h)
  | eplost => exact resWf_next (wf_ftCmd (fun _ _ h1 => wf_ftEplost h1) h)
  | boundary => exact wf_execBoundary h
  | portVectorExchange => exact resWf_next (wf_ite h (wf_emit (State.wf_mapFault h)))
  | endPointDeclare => exact resWf_next (wf_ite (wf_loseEp h) h)
  | hangTimeout => exact wf_execHangTimeout h
  | arm => exact resWf_next (wf_emits (wf_trArm h))
  | trig => exact resWf_next (wf_emits (State.wf_trigger h))
  | postTimeout => exact resWf_next (wf_ite (State.wf_setFl h) h)
  | replay => exact resWf_next (wf_lgReplay h)
  | ledgerAbort => exact resWf_next (wf_lgAbort h)
  | replayRecord => exact wf_execReplayRecord h
  | powerOn => exact wf_execPowerOn h
  | resetNAssert => exact resWf_next (wf_fullReset h)
  | bootStepDone => exact wf_execBootStepDone h
  | fr => exact resWf_next (wf_cmd (fun _ h1 => wf_fullReset h1) h)
  | wr => exact resWf_next (wf_cmd (fun _ h1 => wf_warmReset h1) h)
  | gr => exact resWf_next (wf_cmd (fun _ h1 => wf_gridReset h1) h)
  | pr => exact resWf_next (wf_cmd (fun _ h1 => wf_resetPort h1) h)
  | boot _ _ _ index => exact wf_execBoot index h
  | setup => exact resWf_next (wf_cmd (fun _ h1 => State.wf_setFl h1) h)
  | run => exact resWf_next (wf_cmd (fun _ h1 => State.wf_setFl h1) h)
  | gpin => exact resWf_next (wf_cmd (fun _ h1 => State.wf_mapBoot h1) h)
  | gpout => exact resWf_next (wf_cmd (fun _ h1 => State.wf_mapBoot h1) h)
  | hsin => exact resWf_next (wf_cmd (fun _ h1 => wf_enterHs h1) h)
  | hsout => exact resWf_next (wf_cmd (fun _ h1 => wf_leaveHs h1) h)
  | dsin => exact resWf_next (wf_cmd (fun _ h1 => wf_restart (wf_zeroizeAll h1) fun _ hq => Qd.wf_sleepKept hq) h)
  | wake => exact resWf_next (wf_cmd (fun _ h1 => State.wf_stepTo (State.wf_setFl (State.wf_mapBoot h1))) h)
  | wtCmd => exact resWf_next (wf_wtCmd h)
  | registerWrite => exact wf_execRegisterWrite h
  | bypass => exact resWf_next (wf_jtagBypass h)
  | idcode => exact resWf_next (wf_emit h)
  | samplePreload => exact resWf_next (wf_emit (wf_draw h))
  | extest => exact resWf_next (wf_jtagDrive h)
  | extestPulse => exact resWf_next (wf_jtagDrive h)
  | extestTrain => exact resWf_next (wf_jtagDrive h)
  | clamp => exact resWf_next (wf_jtagDrive h)
  | highz => exact resWf_next (wf_jtagDrive h)
  | tokenBucketRefill => exact resWf_next (wf_ite h (wf_pumpAll (State.wf_mapSv h (fun _ => rfl))))
  | trainingStepFail => exact wf_execTrainingStepFail h
  | blockResetRelease => exact resWf_next (wf_ite (State.wf_mapSv (wf_draw h) (fun _ => rfl)) h)
  | partnerImgreq => exact resWf_next (wf_ite h (wf_ite (wf_emit h) (wf_ite (wf_emit h) (wf_emit h))))
  | selftestDone => exact resWf_next (wf_ite h (wf_ite (State.wf_mapCust h) (wf_customsError h)))
  | allotFreeDone => exact wf_execAllotFreeDone h

/-- A step answers a canonical next state: the tick of the clock on an empty queue, or what the command at its
front answers. -/
theorem wf_step {s : State} (h : s.Wf) : ResWf (step s) := by
  unfold step
  split
  · exact resWf_next (wf_aonTick h)
  · exact wf_exec _ (wf_same h rfl)

/-- Settles O58: every operation keeps the canonical form, command by command. -/
theorem everyStepKeepsTheCanonicalForm : Obligations.EveryStepKeepsTheCanonicalForm := by
  unfold Obligations.EveryStepKeepsTheCanonicalForm
  exact fun s h => wf_step h

end Sys2Proof.Machine
end

section
/-! PROOFS. Set-up and upkeep of the directory (O40): fields of registers, the entries of a line, and what each
command comes to. -/

namespace Sys2Proof.Machine

/-! ### Fields of words -/

theorem testBit_fget (w : Word) (lo k i : Nat) : (fget w lo k).testBit i = (decide (i < k) && bitAt w (lo + i)) := by
  rw [fget, Nat.testBit_mod_two_pow, BitVec.toNat_ushiftRight, Nat.testBit_shiftRight, bitAt, BitVec.getLsbD]

/-- A bit of a word with a field replaced. -/
theorem bitAt_fset (w : Word) {lo k : Nat} (v b : Nat) (h : lo + k ≤ 64) :
    bitAt (fset w lo k v) b = if lo ≤ b ∧ b < lo + k then v.testBit (b - lo) else bitAt w b := by
  by_cases hb : b < 64
  · simp only [bitAt, fset, BitVec.getLsbD_or, BitVec.getLsbD_and, BitVec.getLsbD_not, BitVec.getLsbD_shiftLeft,
      BitVec.getLsbD_ofNat, Nat.testBit_two_pow_sub_one]
    by_cases hlo : b < lo
    · simp [hlo, hb, Nat.not_le.2 hlo]
    · by_cases hk : b < lo + k
      · simp [hlo, hb, hk, Nat.le_of_not_lt hlo, show b - lo < k by omega, show b - lo < 64 by omega]
      · simp [hlo, hb, hk, show ¬ b - lo < k by omega]
  · rw [if_neg (by omega), bitAt, bitAt, BitVec.getLsbD_of_ge _ _ (by omega), BitVec.getLsbD_of_ge _ _ (by omega)]

/-- A field reads as what was put there, modulo its width. -/
theorem fget_fset_self (w : Word) {lo k : Nat} (v : Nat) (h : lo + k ≤ 64) : fget (fset w lo k v) lo k = v % 2 ^ k := by
  apply Nat.eq_of_testBit_eq
  intro i
  rw [testBit_fget, bitAt_fset w v _ h, Nat.testBit_mod_two_pow]
  by_cases hi : i < k
  · rw [if_pos (by omega), Nat.add_sub_cancel_left]
  · simp only [hi, decide_false, Bool.false_and]

/-- A field beside the one replaced keeps its value. -/
theorem fget_fset_beside (w : Word) {lo k lo' k' : Nat} (v : Nat) (h : lo + k ≤ 64) (hd : lo' + k' ≤ lo ∨ lo + k ≤ lo') :
    fget (fset w lo k v) lo' k' = fget w lo' k' := by
  apply Nat.eq_of_testBit_eq
  intro i
  rw [testBit_fget, testBit_fget, bitAt_fset w v _ h]
  by_cases hi : i < k'
  · rw [if_neg (by omega)]
  · simp only [hi, decide_false, Bool.false_and]

/-- The mask of the low `k` bits takes the remainder. -/
theorem and_mask_eq_ofNat (v : Word) : v &&& 0x7FFFFFFFFFFFF = BitVec.ofNat 64 (v.toNat % 2 ^ 51) := by
  apply BitVec.eq_of_toNat_eq
  have hmask : (0x7FFFFFFFFFFFF : Word).toNat = 2 ^ 51 - 1 := rfl
  rw [BitVec.toNat_and, hmask, Nat.and_two_pow_sub_one_eq_mod, BitVec.toNat_ofNat]
  omega

/-! ### Registers -/

@[simp] theorem rg_emits (s : State) (os : List Out) (off : Nat) : (emits s os).rg off = s.rg off := rfl
@[simp] theorem rg_mapDir (s : State) (f : Dir → Dir) (off : Nat) : (s.mapDir f).rg off = s.rg off := rfl

theorem rg_setFl (s : State) (f : Fld) (v off : Nat) :
    (s.setFl f v).rg off = if off = f.off then fset (s.rg f.off) f.lo f.wd v else s.rg off := State.rg_setRg ..

/-- Writing one register and answering leaves every other register. -/
theorem regsKept_setRg (s : State) (off : Nat) (w : Word) (os : List Out) : RegsKept s (emits (s.setRg off w) os) [off] := by
  intro o ho
  rw [rg_emits, State.rg_setRg, if_neg (by simpa using ho)]

/-! ### Entries of the directory -/

theorem entIs_put (s : State) (k : Nat) (e : DirEnt) : EntIs s (Tbl.put s.qd.dir.ents k e) k e :=
  fun j => Tbl.at_put _ k j e

/-- A table of one entry has no other. -/
theorem at_singleton_ne {α : Type} [Inhabited α] {k j : Nat} (x : α) (h : j ≠ k) : Tbl.at [(k, x)] j = default := by
  simp [Tbl.at, Tbl.get, Ne.symm h]

/-- A change of a line's entry, where the line has one. -/
theorem mapDent_of_dirWay {s : State} {l : BitVec 57} {k : Nat} (h : s.dirWay l = some k) (f : DirEnt → DirEnt) :
    s.mapDent l f = s.setDent k (f (s.dent k)) := by
  rw [State.mapDent, h]

/-- An entry that is not in I keeps its way. -/
theorem settle_of_held {e : DirEnt} (h : e.hst ≠ Hst.I) : e.settle = e := by
  rw [DirEnt.settle, if_neg fun hI => h hI.1]

/-- The only transaction is written back, and its line's entry shows how it is busy. -/
theorem putTxn_only {s : State} {x t : DirTxn} {k : Nat} (hx : s.qd.dir.txns = [x])
    (hplace : x.slice = t.slice ∧ x.idx = t.idx) (hway : s.dirWay t.line = some k) :
    s.putTxn t = { s with qd := { s.qd with dir := { s.qd.dir with
      ents := Tbl.put s.qd.dir.ents k { s.dent k with busy := t.busyKind }, txns := [t] } } } := by
  have hd : (s.mapDir (fun d => { d with
      txns := d.txns.map (fun y => if y.slice = t.slice ∧ y.idx = t.idx then t else y) })).dirWay t.line = some k := hway
  rw [State.putTxn, mapDent_of_dirWay hd]
  simp only [State.setDent, State.mapDir, State.mapQd, State.dent, hx, List.map_cons, List.map_nil, if_pos hplace]

/-! ### Hamlets and coherent windows (R137, R138) -/

/-- A member word of a hamlet that is not valid is written. -/
theorem hamWrite_member {s : State} {h : Nat} (hv : s.flag (F.HAM_CFG_W2_VALID h) = false) (v : Word)
    (ans : BitVec 7 → List Out) : hamWrite h 0 v ans s = emits (s.setRg (R.HAM_CFG_W0 h) v) (ans St.OK) := by
  simp [hamWrite, hv]

/-- A member word of a valid hamlet is dropped. -/
theorem hamWrite_valid {s : State} {h : Nat} (hv : s.flag (F.HAM_CFG_W2_VALID h) = true) (v : Word)
    (ans : BitVec 7 → List Out) :
    hamWrite h 0 v ans s = emits (s.refused (Rg.dir 0) (R.HAM_CFG_W0 h) v) (ans St.PERM) := by
  simp [hamWrite, hv]

theorem cohWinWrite_free {s : State} {i : Nat} (hv : Cw.valid (s.rg (R.COH_WIN i)) = false) (v : Word)
    (ans : BitVec 7 → List Out) :
    cohWinWrite i v ans s = emits (s.setRg (R.COH_WIN i) (BitVec.ofNat 64 (v.toNat % 2 ^ 51))) (ans St.OK) := by
  rw [cohWinWrite, hv, if_neg Bool.false_ne_true, and_mask_eq_ofNat]

theorem cohWinWrite_valid {s : State} {i : Nat} (hv : Cw.valid (s.rg (R.COH_WIN i)) = true) (v : Word)
    (ans : BitVec 7 → List Out) :
    cohWinWrite i v ans s = emits (s.refused (Rg.dir 0) (R.COH_WIN i) v) (ans St.PERM) := by
  rw [cohWinWrite, if_pos hv]

/-! ### COH_CMD (R163) -/

/-- A command with no entry left to act on acts on none. -/
theorem cohWalk_of_none_left {s : State} {i op : Nat} {mode : Bool} (hc : s.qd.dir.cmd = some (i, op, mode))
    (h : s.cmdLeft i op = []) : cohWalk s = s := by
  simp only [cohWalk, hc, h, List.foldl_nil, ite_self]

theorem cmdLeft_of_no_entries {s : State} (h : s.qd.dir.ents = []) (i op : Nat) : s.cmdLeft i op = [] := by
  simp only [State.cmdLeft, h, List.filter_nil]

/-- The state of COH_CMD_STS while a command runs that has acted on no entry. -/
def State.cmdRuns (s : State) : State :=
  ((s.setFl F.COH_CMD_STS_BUSY 1).setFl F.COH_CMD_STS_STATUS 0).setFl F.COH_CMD_STS_COUNT 0

/-- The word of a coherent window under a command: SET_MODE and SET_MODE_SWEEP set its mode. -/
def State.cmdMode (s : State) (i op : Nat) (mode : Bool) : State :=
  if op = 2 then s else s.setFl (F.COH_WIN_MOESI i) (b2n mode)

/-- A command of a valid window with an empty directory starts. -/
theorem cohCmd_starts {s : State} {op : Nat} {v : Word} (hop : op ≠ 3) (hb : s.flag F.COH_CMD_STS_BUSY = false)
    (he : s.qd.dir.ents = []) (hv : Cw.valid (s.rg (R.COH_WIN (v.toNat % 256))) = true) (ans : BitVec 7 → List Out) :
    cohCmd op v ans s = emits ((s.cmdRuns.cmdMode (v.toNat % 256) op (bitAt v 10)).mapDir
      (fun d => { d with cmd := some (v.toNat % 256, op, bitAt v 10) })) (ans St.OK) := by
  have hi : fget v 0 8 = v.toNat % 256 := by simp [fget]
  have hents : (s.cmdRuns.cmdMode (v.toNat % 256) op (bitAt v 10)).qd.dir.ents = [] := by
    rw [State.cmdMode]; split <;> exact he
  rw [cohCmd, hi, hb, if_neg Bool.false_ne_true, if_neg (by simp [hop, hv])]
  exact congrArg (emits · (ans St.OK)) (cohWalk_of_none_left rfl (cmdLeft_of_no_entries hents ..))

theorem testBit_b2n_zero (b : Bool) : (b2n b).testBit 0 = b := by cases b <;> rfl

/-- A coherent window's word is no status of COH_CMD. -/
theorem cohWin_ne_cmdSts (i : Nat) : R.COH_WIN i ≠ R.COH_CMD_STS := by simp only [R.COH_WIN, R.COH_CMD_STS]; omega

theorem rg_cmdRuns (s : State) {off : Nat} (h : off ≠ R.COH_CMD_STS) : s.cmdRuns.rg off = s.rg off := by
  simp only [State.cmdRuns, rg_setFl, if_neg h]

theorem rg_cmdMode (s : State) (i op : Nat) (mode : Bool) {off : Nat} (h : off ≠ R.COH_WIN i) :
    (s.cmdMode i op mode).rg off = s.rg off := by
  rw [State.cmdMode]
  split
  · rfl
  · rw [rg_setFl, if_neg h]

/-- BUSY is 1, STATUS and COUNT are 0 while a command runs that has acted on no entry. -/
theorem cmdSts_cmdRuns (s : State) :
    s.cmdRuns.fl F.COH_CMD_STS_BUSY = 1 ∧ s.cmdRuns.fl F.COH_CMD_STS_STATUS = 0 ∧ s.cmdRuns.fl F.COH_CMD_STS_COUNT = 0 := by
  have hword : s.cmdRuns.rg R.COH_CMD_STS = fset (fset (fset (s.rg R.COH_CMD_STS) 0 1 1) 1 7 0) 8 32 0 := by
    simp only [State.cmdRuns, rg_setFl, if_true]
  refine ⟨?busy, ?status, ?count⟩ <;> rw [State.fl, hword]
  case busy =>
    rw [fget_fset_beside _ _ (by decide) (by decide), fget_fset_beside _ _ (by decide) (by decide)]
    exact fget_fset_self _ 1 (by decide)
  case status =>
    rw [fget_fset_beside _ _ (by decide) (by decide)]
    exact fget_fset_self _ 0 (by decide)
  case count => exact fget_fset_self _ 0 (by decide)

/-- Only MOESI changes in a coherent window's word. -/
theorem bitAt_cmdMode (s : State) (i op : Nat) (mode : Bool) (b : Nat) :
    bitAt ((s.cmdMode i op mode).rg (R.COH_WIN i)) b =
      if b = 18 ∧ op ≠ 2 then mode else bitAt (s.rg (R.COH_WIN i)) b := by
  rw [State.cmdMode]
  by_cases hop : op = 2
  · rw [if_pos hop, if_neg fun h => h.2 hop]
  · rw [if_neg hop, rg_setFl, if_pos rfl, bitAt_fset _ _ _ (show 18 + 1 ≤ 64 by decide)]
    by_cases hb : b = 18
    · rw [if_pos (by omega), if_pos ⟨hb, hop⟩, hb]
      exact testBit_b2n_zero mode
    · rw [if_neg (by omega), if_neg fun h => hb h.1]

/-- What a command that starts leaves: the registers, the command in progress, and the answer. -/
theorem cohCmd_started {s : State} {op : Nat} {v : Word} (src : RegSrc) (hop : op ≠ 3) (hb : s.flag F.COH_CMD_STS_BUSY = false)
    (he : s.qd.dir.ents = []) (hv : Cw.valid (s.rg (R.COH_WIN (v.toNat % 256))) = true) :
    let i := v.toNat % 256
    let t := cohCmd op v (regAns src) s
    t = { s with out := s.acks src St.OK, qd := { s.qd with regs := t.qd.regs, dir := t.qd.dir } } ∧
    RegsKept s t [R.COH_CMD_STS, R.COH_WIN i] ∧ t.qd.dir = { s.qd.dir with cmd := some (i, op, bitAt v 10) } ∧
    t.fl F.COH_CMD_STS_BUSY = 1 ∧ t.fl F.COH_CMD_STS_STATUS = 0 ∧ t.fl F.COH_CMD_STS_COUNT = 0 ∧
    ∀ b, b < 64 → bitAt (t.rg (R.COH_WIN i)) b = if b = 18 ∧ op ≠ 2 then bitAt v 10 else bitAt (s.rg (R.COH_WIN i)) b := by
  intro i t
  have ht : t = emits ((s.cmdRuns.cmdMode i op (bitAt v 10)).mapDir (fun d => { d with cmd := some (i, op, bitAt v 10) }))
      (regAns src St.OK) := cohCmd_starts hop hb he hv _
  have hrg : ∀ off, t.rg off = (s.cmdRuns.cmdMode i op (bitAt v 10)).rg off := fun off => by rw [ht, rg_emits, rg_mapDir]
  have hsts : t.rg R.COH_CMD_STS = s.cmdRuns.rg R.COH_CMD_STS := by rw [hrg, rg_cmdMode _ _ _ _ (cohWin_ne_cmdSts i).symm]
  obtain ⟨hbusy, hstatus, hcount⟩ := cmdSts_cmdRuns s
  refine ⟨?frame, fun off hoff => ?kept, ?dir, ?busy, ?status, ?count, fun b _ => ?word⟩
  case frame => rw [ht, State.cmdMode]; split <;> rfl
  case kept =>
    obtain ⟨hoff1, hoff2⟩ : off ≠ R.COH_CMD_STS ∧ off ≠ R.COH_WIN i := by simpa using hoff
    rw [hrg, rg_cmdMode _ _ _ _ hoff2, rg_cmdRuns _ hoff1]
  case dir => rw [ht, State.cmdMode]; split <;> rfl
  case word => rw [hrg, bitAt_cmdMode, rg_cmdRuns _ (cohWin_ne_cmdSts i)]
  case busy => rw [State.fl, hsts]; exact hbusy
  case status => rw [State.fl, hsts]; exact hstatus
  case count => rw [State.fl, hsts]; exact hcount

/-- The command in progress has ended: BUSY falls, and a removed window is no longer valid. -/
def State.cmdEnded (s : State) (i op : Nat) : State :=
  let t := (s.mapDir (fun d => { d with cmd := none })).setFl F.COH_CMD_STS_BUSY 0
  if op = 2 then t.setFl (F.COH_WIN_VALID i) 0 else t

/-- COH_CMD_DONE with no entry left ends the command. -/
theorem execCohCmdDone_ends {s : State} {i op : Nat} {mode : Bool} (hc : s.qd.dir.cmd = some (i, op, mode))
    (h : s.cmdLeft i op = []) : execCohCmdDone s = .next (s.cmdEnded i op) := by
  simp only [execCohCmdDone, cohWalk_of_none_left hc h, hc, h, List.isEmpty_nil, Bool.not_true, Bool.false_eq_true, and_false,
    if_false, State.cmdEnded]

theorem rg_cmdEnded (s : State) {i off : Nat} (op : Nat) (h : off ≠ R.COH_WIN i) :
    (s.cmdEnded i op).rg off = if off = R.COH_CMD_STS then fset (s.rg R.COH_CMD_STS) 0 1 0 else s.rg off := by
  rw [State.cmdEnded]
  split
  · rw [rg_setFl, if_neg h, rg_setFl, rg_mapDir, rg_mapDir]
  · rw [rg_setFl, rg_mapDir, rg_mapDir]

/-- Only VALID changes in a coherent window's word, and only by REMOVE_WINDOW. -/
theorem bitAt_cmdEnded (s : State) (i op b : Nat) :
    bitAt ((s.cmdEnded i op).rg (R.COH_WIN i)) b =
      if b = 19 ∧ op = 2 then false else bitAt (s.rg (R.COH_WIN i)) b := by
  have hword : ((s.mapDir (fun d => { d with cmd := none })).setFl F.COH_CMD_STS_BUSY 0).rg (R.COH_WIN i) = s.rg (R.COH_WIN i) := by
    rw [rg_setFl, if_neg (cohWin_ne_cmdSts i), rg_mapDir]
  rw [State.cmdEnded]
  by_cases hop : op = 2
  · rw [if_pos hop, rg_setFl, if_pos rfl, bitAt_fset _ _ _ (show 19 + 1 ≤ 64 by decide), hword]
    by_cases hb : b = 19
    · rw [if_pos (by omega), if_pos ⟨hb, hop⟩, Nat.zero_testBit]
    · rw [if_neg (by omega), if_neg fun h => hb h.1]
  · rw [if_neg hop, if_neg fun h => hop h.2, hword]

/-- What a command that ends leaves. -/
theorem cmdEnded_leaves (s : State) (i op : Nat) :
    let t := s.cmdEnded i op
    t = { s with qd := { s.qd with regs := t.qd.regs, dir := { s.qd.dir with cmd := none } } } ∧
    RegsKept s t [R.COH_CMD_STS, R.COH_WIN i] ∧ t.fl F.COH_CMD_STS_BUSY = 0 ∧
    ∀ b, b < 64 → bitAt (t.rg (R.COH_WIN i)) b = if b = 19 ∧ op = 2 then false else bitAt (s.rg (R.COH_WIN i)) b := by
  refine ⟨?frame, fun off hoff => ?kept, ?busy, fun b _ => ?word⟩
  case frame => simp only [State.cmdEnded]; split <;> rfl
  case kept =>
    obtain ⟨hoff1, hoff2⟩ : off ≠ R.COH_CMD_STS ∧ off ≠ R.COH_WIN i := by simpa using hoff
    rw [rg_cmdEnded _ _ hoff2, if_neg hoff1]
  case busy =>
    rw [State.fl, rg_cmdEnded _ _ (cohWin_ne_cmdSts i).symm, if_pos rfl]
    exact fget_fset_self _ 0 (by decide)
  case word => exact bitAt_cmdEnded s i op b

/-! ### What the directory does of itself -/

/-- RESERVATION_EXPIRE ends the reservation of a stable line that is held (R164). -/
theorem execReservationExpire_held {s : State} {l : BitVec 57} {k : Nat} (hr : l ∈ s.qd.dir.reserved) (ht : s.txnOf l = none)
    (hw : s.dirWay l = some k) (hh : (s.dent k).hst ≠ Hst.I) :
    execReservationExpire l s = .next { s with qd := { s.qd with dir := { s.qd.dir with
      ents := Tbl.put s.qd.dir.ents k { s.dent k with nxv := false, nxt := 0 }
      reserved := s.qd.dir.reserved.filter (fun x => decide (x ≠ l)) } } } := by
  have hd : (s.mapDir (fun d => { d with reserved := d.reserved.filter (· ≠ l) })).dirWay l = some k := hw
  have hc : s.qd.dir.reserved.contains l = true ∧ (s.txnOf l).isNone = true := ⟨by simpa using hr, by rw [ht]; rfl⟩
  have hset : DirEnt.settle { s.dent k with nxv := false, nxt := 0 } = { s.dent k with nxv := false, nxt := 0 } := settle_of_held hh
  rw [execReservationExpire, if_pos hc, mapDent_of_dirWay hd]
  exact congrArg (fun e => Host.Outcome.next (State.setDent _ k e)) hset

/-- COHERENCE_TIMEOUT resends the snoops of a transaction that has resends left (R165). -/
theorem dirTimeout_resends {s : State} {x : DirTxn} {k : Nat} (hx : s.qd.dir.txns = [x]) (hs : x.snoops ≠ []) (hwb : x.wb = 0)
    (hr : x.resends < s.fl F.QD_TXN_TMO_RTY_MAX) (hw : s.dirWay x.line = some k) :
    dirTimeout (544 + x.slice) x.idx s = { s with
      out := s.out ++ (x.snoops ++ x.acks).map (fun r => .unitSend (snoopPacket s x r).resent)
      qd := { s.qd with dir := { s.qd.dir with
        ents := Tbl.put s.qd.dir.ents k { s.dent k with busy := x.busyKind }, txns := [{ x with resends := x.resends + 1 }] } } } := by
  have hfind : s.qd.dir.txns.find? (fun t => 544 + t.slice == 544 + x.slice && t.idx == x.idx) = some x := by simp [hx]
  have hput := putTxn_only (s := emits s ((x.snoops ++ x.acks).map (fun r => .unitSend (snoopPacket s x r).resent)))
    (t := { x with resends := x.resends + 1 }) hx ⟨rfl, rfl⟩ hw
  simp only [dirTimeout, hfind]
  rw [if_neg (by simp [hs]), if_pos hr, if_neg (by simp [hwb]), hput]
  rfl

/-- A census goes on while a member has not sent LAST. -/
theorem censusEnd_of_waiting {s : State} {c : Census} {w : Nat} (hc : s.qd.dir.census = some c) (hw : w ∈ c.waiting) :
    censusEnd s = s := by
  have hne : c.waiting.isEmpty = false := by simpa using List.ne_nil_of_mem hw
  simp only [censusEnd, hc, hne, Bool.not_false, if_true]

/-- CENSUS_TIMEOUT passes over a silent member while another is awaited (R170). -/
theorem execCensusTimeout_passes {s : State} {c : Census} {slot : Fin 144} {w : Nat} (hc : s.qd.dir.census = some c)
    (hs : slot.val ∈ c.waiting) (hw : w ∈ c.waiting) (hne : w ≠ slot.val) :
    let u := s.event (Rg.dir 0)
      { cat := Cat.TIMEOUT, obj := Obj.EP, arg0 := wd slot.val, arg1 := wd (s.fl F.DIR_CTL_CEN_TMO * 1000) }
    execCensusTimeout slot s = .next (u.mapDir (fun d => { d with census := some { c with
      waiting := c.waiting.filter (fun x => x != slot.val), reports := c.reports.filter (fun x => x.1 != slot.val) } })) := by
  have hin : (!c.waiting.contains slot.val) = false := by simpa using hs
  have hleft : w ∈ c.waiting.filter (fun x => x != slot.val) := List.mem_filter.2 ⟨hw, by simpa using hne⟩
  simp only [execCensusTimeout, hc, hin, Bool.false_eq_true, if_false]
  exact congrArg Host.Outcome.next (censusEnd_of_waiting rfl hleft)

/-- WAY11_MIGRATE moves the only entry, which stands in way 11, to way 0 (R163). -/
theorem execWay11Migrate_moves {s : State} {k : Nat} {e : DirEnt} (hm : s.flag F.DIR_CTL_RWMIG = true) (hl : s.qd.dir.late = [])
    (he : s.qd.dir.ents = [(12 * k + 11, e)]) (hv : e.valid = true) :
    execWay11Migrate s = .next ((s.setDent (12 * k) e).setDent (12 * k + 11) default) := by
  have hway : (12 * k + 11) % 12 = 11 := by omega
  have hset : (12 * k + 11) / 12 * 12 = 12 * k := by omega
  have hfree : (s.dent (12 * k)).valid = false := by
    rw [State.dent, he, at_singleton_ne _ (by omega)]
    rfl
  simp [execWay11Migrate, hm, he, hv, hway, hset, hfree, List.range_succ_eq_map, State.setDent, hl]

/-- The table after the move. -/
theorem at_moved (s : State) {k : Nat} {e : DirEnt} (he : s.qd.dir.ents = [(12 * k + 11, e)]) (j : Nat) :
    Tbl.at (Tbl.put (Tbl.put s.qd.dir.ents (12 * k) e) (12 * k + 11) default) j = if j = 12 * k then e else default := by
  rw [Tbl.at_put, Tbl.at_put]
  by_cases h11 : j = 12 * k + 11
  · rw [if_pos h11, if_neg (by omega)]
  · rw [if_neg h11, he, at_singleton_ne _ h11]

/-- DIRECTORY_SCRUB notes an entry that it has corrected (R144, R484). -/
theorem execDirectoryScrub_corrected {s : State} {f : EccFinding} (hc : f.correctable = true)
    (hs : f.addr / 16 / (12 * 8192) < 16) :
    execDirectoryScrub f s = .next ((s.event (Rg.dir (f.addr / 16 / (12 * 8192)))
      { cat := Cat.INTEGRITY, obj := Obj.DIRENT, arg0 := wd f.addr, arg1 := f.found }).score 6
        (f.addr / 16 / (12 * 8192)) 1) := by
  simp only [execDirectoryScrub, if_neg (Nat.not_le.2 hs), hc, if_true]

/-- Settles O40, command by command. -/
theorem directorySetUpAndUpkeep : Obligations.DirectorySetUpAndUpkeep := by
  unfold Obligations.DirectorySetUpAndUpkeep
  intro s
  refine ⟨fun src h v => ⟨fun hv => ?ham, fun hv => ?hamValid⟩, fun src i v => ⟨fun hv => ?win, fun hv => ?winValid⟩,
    fun src v hb he hv => ⟨?setMode, ?sweep, ?remove⟩, fun i op mode hc hl _ => ?done, fun l k hr ht hw hh => ?expire,
    fun x k que tag hf hx hq htag hs hwb hr hw => ?timeout, fun c slot w hc hs hw hne => ?census,
    fun k e hm hl he hv => ?migrate, fun f hc hs => ?scrub⟩
  case ham =>
    exact ⟨_, congrArg Host.Outcome.next (hamWrite_member hv v _), rfl, regsKept_setRg _ _ _ _, State.rg_setRg_self .., rfl⟩
  case hamValid => exact congrArg Host.Outcome.next (hamWrite_valid hv v _)
  case win =>
    exact ⟨_, congrArg Host.Outcome.next (cohWinWrite_free hv v _), rfl, regsKept_setRg _ _ _ _, State.rg_setRg_self .., rfl⟩
  case winValid => exact congrArg Host.Outcome.next (cohWinWrite_valid hv v _)
  case setMode => exact ⟨_, rfl, cohCmd_started src (by decide) hb he hv⟩
  case sweep => exact ⟨_, rfl, cohCmd_started src (by decide) hb he hv⟩
  case remove => exact ⟨_, rfl, cohCmd_started src (by decide) hb he hv⟩
  case done => exact ⟨_, execCohCmdDone_ends hc hl, cmdEnded_leaves s i op⟩
  case expire => exact ⟨_, entIs_put _ _ _, execReservationExpire_held hr ht hw hh⟩
  case timeout =>
    refine ⟨_, entIs_put _ _ _, ?_⟩
    show execCoherenceTimeout .qd que tag s = _
    simp only [execCoherenceTimeout, hf, hq, htag, Bool.false_eq_true, if_false, dirTimeout_resends hx hs hwb hr hw]
  case census => exact execCensusTimeout_passes hc hs hw hne
  case migrate =>
    refine ⟨_, at_moved s he, ?_⟩
    show execWay11Migrate s = _
    rw [execWay11Migrate_moves hm hl he hv]
    rfl
  case scrub => exact execDirectoryScrub_corrected hc hs

end Sys2Proof.Machine
end

section
/-! PROOFS. The states that refute O39 and O41: dirty data longer than LEN can say, and a write-back that an agent
owes since a census. -/

namespace Sys2Proof.Machine

/-! ### Packets that the block builds (R54, R55, R79) -/

/-- A field of the word that a number spells. -/
theorem fget_wd (n lo k : Nat) : fget (wd n) lo k = n % 2 ^ 64 / 2 ^ lo % 2 ^ k := by
  rw [fget, wd, BitVec.toNat_ushiftRight, BitVec.toNat_ofNat, Nat.shiftRight_eq_div_pow]

/-- The E2E of a packet fits its field. -/
theorem e2eOf_lt (p : Packet) : p.e2eOf < 2 ^ 32 := by
  unfold Packet.e2eOf
  split
  · decide
  · exact BitVec.isLt _
  · exact BitVec.isLt _

/-- The fields of W3 that a header fills. -/
theorem hdrW3_fields (h : Hdr) {e : Nat} (he : e < 2 ^ 32) :
    fget (h.w3 e) 0 32 = e ∧ fget (h.w3 e) 41 8 = h.tseq.toNat ∧ fget (h.w3 e) 49 8 = h.aux % 256 ∧
      fget (h.w3 e) 57 7 = h.status.toNat := by
  have ht := h.tseq.isLt
  have hs := h.status.isLt
  simp only [Hdr.w3, fget_wd]
  omega

/-- NCRIT of a header is the complement of the critical bits. -/
theorem hdrW1_ncrit (h : Hdr) : fget h.w1 0 44 = 2 ^ 44 - 1 - fget h.w0 0 44 := by
  have hlt : fget h.w0 0 44 < 2 ^ 44 := Nat.mod_lt _ (by decide)
  rw [Hdr.w1, fget_wd]
  generalize fget h.w0 0 44 = c at *
  omega

/-- W3 of a packet holds the E2E of its mask and payload. -/
theorem hdrPacket_w3 (h : Hdr) (g : Option Geom) (m : Option (Word × Word)) (d : List Byte) :
    (h.packet g m d).w3 = h.w3 (h.packet g m d).e2eOf := by
  simp only [Hdr.packet, Packet.e2eOf]

/-- A packet carries the E2E of its mask and payload. -/
theorem hdrPacket_e2eOk (h : Hdr) (g : Option Geom) (m : Option (Word × Word)) (d : List Byte) :
    (h.packet g m d).e2eOk = true := by
  obtain ⟨he, -⟩ := hdrW3_fields h (e2eOf_lt (h.packet g m d))
  rw [Packet.e2eOk, decide_eq_true_eq, Packet.e2e, hdrPacket_w3, he]

/-- A packet without a mask carries the complement of its header. -/
theorem hdrPacket_complOk (h : Hdr) (g : Option Geom) (d : List Byte) : (h.packet g none d).complOk = true := by
  simp only [Packet.complOk, Packet.ncrit, Hdr.packet, hdrW1_ncrit, decide_true, Bool.and_true]

/-- TSEQ, AUX and STATUS are those of the header. -/
theorem hdrPacket_tseq_aux_status (h : Hdr) (g : Option Geom) (m : Option (Word × Word)) (d : List Byte) :
    (h.packet g m d).tseq = h.tseq ∧ (h.packet g m d).aux = h.aux % 256 ∧ (h.packet g m d).status = h.status := by
  obtain ⟨-, ht, ha, hs⟩ := hdrW3_fields h (e2eOf_lt (h.packet g m d))
  simp only [Packet.tseq, Packet.aux, Packet.status, hdrPacket_w3, ht, ha, hs, BitVec.ofNat_toNat, BitVec.setWidth_eq, and_self]

/-! ### A payload that LEN cannot name (R54) -/

/-- LEN has nine bits. -/
theorem packet_len_lt (p : Packet) : p.len < 512 := Nat.mod_lt _ (by decide)

/-- No coherence response carries 512 bytes or more, since its LEN would have to count them. -/
theorem CohAnswers.length_lt {q p : Packet} {opc aux : Nat} {st : BitVec 7} {d : List Byte}
    (h : CohAnswers q p opc aux st d) : d.length < 512 := by
  obtain ⟨-, hlen⟩ := h.data
  exact hlen ▸ packet_len_lt q

/-- RDSH of slot 0 for line 0. -/
def readOfLine0 : Packet := Hdr.packet { dst := 0, ctx := 0, opc := Opc.RDSH, src := 0, cls := 1, que := 0 }

/-- The transaction of that RDSH, which has snooped member 1. -/
def readTxn : DirTxn :=
  { slice := 0, idx := 0, tseq := 1, line := 0, kind := 2, cw := 0, req := some (.unit, readOfLine0), snpOpc := Opc.SNPSH
    snoops := [1], grant := 1 }

/-- Hamlet 0 of slots 0 and 1; slot 1 owns line 0, and the directory has snooped it for slot 0. -/
def snoopedOwner : State :=
  { qd := {
      regs := [(R.HAM_CFG_W0 0, 0x0100), (R.HAM_CFG_W2 0, 0x22)]
      dir := { ents := [(dirKey 0 0, { valid := true, hst := Hst.X, shr := 2, own := 1, busy := 2 })], txns := [readTxn] } } }

/-- The owner's dirty data, with a payload of 512 bytes. -/
def longCdata : Packet :=
  Hdr.packet { dst := 0, ctx := 0, opc := Opc.CDATA, src := 1, cls := 1, rsp := true, que := 544, tseq := 1, aux := 3 + 8 }
    none none (List.replicate 512 0)

theorem longCdata_w3 : longCdata.tseq = 1 ∧ longCdata.aux = 3 + 8 ∧ longCdata.status = 0 :=
  hdrPacket_tseq_aux_status ..

/-- The state and the answer meet the hypotheses under which a snooped owner's dirty data is granted on. -/
theorem snoopedOwner_awaits_longCdata :
    (snoopedOwner.fenced = false ∧ snoopedOwner.dirWay 0 = some (dirKey 0 0) ∧ snoopedOwner.homePlane 0 = snoopedOwner.qdPlane) ∧
    (snoopedOwner.dent (dirKey 0 0)).nxv = false ∧
    (snoopedOwner.memberOf 0 readOfLine0.src = some 0 ∧ snoopedOwner.memberOf 0 longCdata.src = some 1) ∧
    (longCdata.rsp = true ∧ longCdata.dst = snoopedOwner.qdNode ∧ longCdata.que.toNat = 544 ∧ longCdata.tag.toNat = 0 ∧
      longCdata.opc = Opc.CDATA) ∧
    readOfLine0.opc = Opc.RDSH := by decide +kernel

/-- Refutes O39: the clause of the owner's dirty data does not say that the payload is a line (R148), and data of 512
bytes cannot be granted on with a LEN that counts it. -/
theorem not_directoryServesRequests : ¬ Obligations.DirectoryServesRequests := by
  unfold Obligations.DirectoryServesRequests
  intro h
  obtain ⟨⟨hfence, hway, hhome⟩, hnxv, ⟨hm, ho⟩, ⟨hrsp, hdst, hque, htag, hopc⟩, hreq⟩ :=
    snoopedOwner_awaits_longCdata
  obtain ⟨htseq, haux, hst⟩ := longCdata_w3
  obtain ⟨-, hserves⟩ := h
  obtain ⟨-, hdirty, -, -⟩ := hserves .unit readOfLine0 longCdata readTxn 0 (dirKey 0 0) 1 snoopedOwner rfl hfence rfl rfl
    hway hnxv rfl hm (by decide) hhome
  obtain ⟨q, d, hq, -⟩ := hdirty ⟨hrsp, hdrPacket_complOk .., hdrPacket_e2eOk .., hst, hdst, by decide, hque, htag, htseq, ho⟩ hopc haux hreq rfl
  have hlen : longCdata.data.length = 512 := List.length_replicate
  exact absurd hq.length_lt (by omega)

/-! ### A write-back that a census has announced (R68, R169) -/

/-- An outstanding request of the agent for line 1. -/
def requestOfLine1 : OutReq := { que := 32, tag := 0, tseq := 1, parts := [], purpose := .agent 1 }

/-- An agent that awaits the data of line 1 and owes the write-back of line 0, whose home plane is live. -/
def owingAgent : State :=
  { sv := {
      regs := [(SR.SV_LIVE, 1)]
      lines := [(0, { st := .wi, owes := true }), (1, { st := .is })]
      srcs := { reqs := [requestOfLine1] } } }

/-- The data of line 1, granted in S. -/
def grantOfLine1 : Packet :=
  Hdr.packet { dst := owingAgent.svNode, ctx := 0, opc := Opc.CDATA, src := 0, cls := 1, rsp := true, que := 32, tseq := 1, aux := 1 }

theorem grantOfLine1_fields :
    (grantOfLine1.rsp = true ∧ grantOfLine1.complOk = true ∧ grantOfLine1.e2eOk = true ∧ grantOfLine1.status = 0) ∧
    (grantOfLine1.dst = owingAgent.svNode ∧ grantOfLine1.que.toNat = 32 ∧ grantOfLine1.tag.toNat = 0 ∧ grantOfLine1.tseq = 1) ∧
    grantOfLine1.opc = Opc.CDATA ∧ grantOfLine1.aux = 1 ∧ (owingAgent.agLine 1).st = .is := by decide +kernel

/-- The grant ends the request of line 1, and the write-back of line 0 goes out. -/
theorem owingAgent_sends_writeBack :
    ∃ t, exec (.cdata (.plane 0) grantOfLine1) owingAgent = .next t ∧ t.sv.srcs.reqs.length = 1 :=
  ⟨_, rfl, by decide +kernel⟩

/-- Refutes O41: a grant that the agent takes also sends the write-backs that it owes since a census, so that the
request that ends is not all that changes. -/
theorem not_theCoherenceAgent : ¬ Obligations.TheCoherenceAgent := by
  unfold Obligations.TheCoherenceAgent
  intro h
  obtain ⟨⟨hrsp, hcompl, he2e, hst⟩, ⟨hdst, hque, htag, htseq⟩, hopc, haux, his⟩ := grantOfLine1_fields
  obtain ⟨-, -, hanswers, -, -⟩ := h owingAgent rfl rfl rfl rfl
  obtain ⟨hgrant, -, -⟩ := hanswers 0 requestOfLine1 1 grantOfLine1 rfl rfl hrsp hcompl he2e hst hdst hque htag htseq (by decide)
  obtain ⟨ls, -, htakes⟩ := hgrant hopc haux his
  obtain ⟨t, hexec, hreqs⟩ := owingAgent_sends_writeBack
  rw [htakes] at hexec
  cases hexec
  exact absurd hreqs Nat.zero_ne_one

end Sys2Proof.Machine
end
